-- ==== Sys2Proof/Word.lean ====
section
/-! DEFINITION. The word types of the OVM-1280 model (R6, R7): 32-bit registers, bytes, and the field of a register. -/

namespace Sys2Proof

/-- A register of the device: 32 bits (R7). -/
abbrev Word := BitVec 32

/-- One byte. -/
abbrev Byte := BitVec 8

/-- A field of a register: its lowest bit and its width (R6). -/
structure Fld where
  lsb : Nat
  width : Nat
deriving DecidableEq, Repr

/-- Who makes an access: the codes of `AUX.MODE_REQ_STS.SOURCE` and of `ERR_INFO.SOURCE` (R41, R405). -/
inductive Source where
  | host
  | service
  | firmware
deriving DecidableEq, Repr

/-- The operating modes, in the order of their codes 0x0 to 0xB (R41). -/
inductive Mode where
  | unpowered
  | standby
  | spore
  | boot
  | bringUp
  | quiescent
  | forwarding
  | degraded
  | drain
  | handover
  | lowPowerHold
  | faultHold
deriving DecidableEq, Repr

end Sys2Proof
end

