-- ==== Sys2Proof/Machine/Bits.lean ====
section
/-! DEFINITION. Bit-field, byte-order and bound helpers used by every block (R6, R7). -/

namespace Sys2Proof.Machine

/-- The field `f` of a word, as a number. -/
def fldGet (f : Fld) (w : Word) : Nat := (w.toNat >>> f.lsb) % 2 ^ f.width

/-- The word of ones over the field `f`. -/
def fldMask (f : Fld) : Word := BitVec.ofNat 32 ((2 ^ f.width - 1) <<< f.lsb)

/-- `w` with the field `f` replaced by the number `v`, cut to the field's width. -/
def fldPut (f : Fld) (w : Word) (v : Nat) : Word :=
  (w &&& ~~~(fldMask f)) ||| BitVec.ofNat 32 ((v % 2 ^ f.width) <<< f.lsb)

/-- A truth value as a bit. -/
def b2n (b : Bool) : Nat := if b then 1 else 0

/-- Bit `i` of a number. -/
def bitAt (v i : Nat) : Bool := (v >>> i) % 2 = 1

/-- `v` with bit `i` set. -/
def bitOn (v i : Nat) : Nat := v ||| (1 <<< i)

/-- `v` with bit `i` cleared. -/
def bitOff (v i : Nat) : Nat := if bitAt v i then v - (1 <<< i) else v

/-- How many of the low `n` bits of `v` are ones. -/
def popcount : Nat → Nat → Nat
  | 0, _ => 0
  | n + 1, v => v % 2 + popcount n (v / 2)

/-- The number `v` as `n` bytes, least significant first (R7). -/
def leBytes : Nat → Nat → List Byte
  | 0, _ => []
  | n + 1, v => BitVec.ofNat 8 v :: leBytes n (v / 256)

/-- The number that bytes spell, least significant first (R7). -/
def leNat : List Byte → Nat
  | [] => 0
  | b :: bs => b.toNat + 256 * leNat bs

/-- The number that bytes spell, most significant first (network byte order). -/
def beNat (bs : List Byte) : Nat := bs.foldl (fun a b => 256 * a + b.toNat) 0

/-- The number `v` as `n` bytes, most significant first (network byte order). -/
def beBytes (n v : Nat) : List Byte := (leBytes n v).reverse

/-- `a` less `b`, but never below 0. -/
def satSub (a b : Nat) : Nat := a - b

/-- A number of `bits` bits in two's complement. -/
def toSigned (bits v : Nat) : Int :=
  if v % 2 ^ bits < 2 ^ (bits - 1) then (v % 2 ^ bits : Nat) else (v % 2 ^ bits : Nat) - (2 ^ bits : Nat)

/-- An integer as a field of `bits` bits in two's complement. -/
def ofSigned (bits : Nat) (i : Int) : Nat := (i % (2 ^ bits : Nat)).toNat

/-- `v` held between `lo` and `hi`. -/
def clampInt (lo hi v : Int) : Int := if v < lo then lo else if hi < v then hi else v

/-- The quotient of `a` by `b`, rounded up. -/
def ceilDiv (a b : Nat) : Nat := (a + b - 1) / b

/-- Bytes `off .. off + n - 1` of a list, zeros past its end. -/
def bytesAt (bs : List Byte) (off n : Nat) : List Byte :=
  let t := (bs.drop off).take n
  t ++ List.replicate (n - t.length) 0

/-- A little-endian field of `n` bytes at `off`. -/
def leAt (bs : List Byte) (off n : Nat) : Nat := leNat (bytesAt bs off n)

/-- The list with its entry `i` replaced. -/
def listSet {α : Type} (l : List α) (i : Nat) (v : α) : List α := l.set i v

/-- The first `n` naturals. -/
def upTo (n : Nat) : List Nat := List.range n

/-- Split a list into pieces of `n` (the last may be shorter); `fuel` bounds the pieces. -/
def chunksOf {α : Type} (n : Nat) : Nat → List α → List (List α)
  | 0, _ => []
  | _ + 1, [] => []
  | fuel + 1, l => l.take n :: chunksOf n fuel (l.drop n)

/-- The CRC-32C register after one bit, right-shifting with the reflected polynomial 0x82F6_3B78 (R311). -/
def crc32cBit (c : Word) : Word :=
  if c.getLsbD 0 then (c >>> 1) ^^^ 0x82F63B78#32 else c >>> 1

/-- The CRC-32C register after one byte. -/
def crc32cByte (c : Word) (b : Byte) : Word :=
  let x := c ^^^ (b.setWidth 32)
  crc32cBit (crc32cBit (crc32cBit (crc32cBit (crc32cBit (crc32cBit (crc32cBit (crc32cBit x)))))))

/-- CRC-32C over bytes from a start value, with no inversion of its own. -/
def crc32cRaw (init : Word) (bs : List Byte) : Word := bs.foldl crc32cByte init

/-- The CRC-32 register (the Ethernet FCS polynomial, reflected 0xEDB8_8320) after one bit. -/
def crc32Bit (c : Word) : Word :=
  if c.getLsbD 0 then (c >>> 1) ^^^ 0xEDB88320#32 else c >>> 1

/-- The CRC-32 register after one byte. -/
def crc32Byte (c : Word) (b : Byte) : Word :=
  let x := c ^^^ (b.setWidth 32)
  crc32Bit (crc32Bit (crc32Bit (crc32Bit (crc32Bit (crc32Bit (crc32Bit (crc32Bit x)))))))

/-- The Ethernet FCS of a frame's bytes. -/
def fcs32 (bs : List Byte) : Word := ~~~(bs.foldl crc32Byte 0xFFFFFFFF#32)

end Sys2Proof.Machine
end

