-- ==== Sys2Proof/Machine/Store.lean ====
section
/-! DEFINITION. Sparse maps from numbers to values in one canonical form: keys strictly rising, no entry equal to what
an unlisted key reads as. Registers, memories and every large array of the device are held so. -/

namespace Sys2Proof.Machine

/-- A sparse map: what is not listed reads as a default that each use names. -/
abbrev NMap (α : Type) := List (Nat × α)

/-- The listed value of a key, if any. -/
def NMap.find? {α : Type} : NMap α → Nat → Option α
  | [], _ => none
  | (j, v) :: r, k => if j = k then some v else NMap.find? r k

/-- The value of a key, an unlisted key reading as `d`. -/
def NMap.get {α : Type} (d : α) (m : NMap α) (k : Nat) : α :=
  match NMap.find? m k with
  | some v => v
  | none => d

/-- List a value at a key, in its place. -/
def NMap.put {α : Type} : NMap α → Nat → α → NMap α
  | [], k, v => [(k, v)]
  | (j, w) :: r, k, v =>
    if j = k then (k, v) :: r
    else if k < j then (k, v) :: (j, w) :: r
    else (j, w) :: NMap.put r k v

/-- Take a key off the list. -/
def NMap.del {α : Type} (m : NMap α) (k : Nat) : NMap α := m.filter (fun e => e.1 != k)

/-- Write a key: the default removes the entry, any other value lists it. -/
def NMap.set {α : Type} [DecidableEq α] (d : α) (m : NMap α) (k : Nat) (v : α) : NMap α :=
  if v = d then NMap.del m k else NMap.put m k v

/-- Change the value of a key. -/
def NMap.modify {α : Type} [DecidableEq α] (d : α) (m : NMap α) (k : Nat) (f : α → α) : NMap α :=
  NMap.set d m k (f (NMap.get d m k))

/-- Keys strictly rising. -/
def NMap.rising {α : Type} : NMap α → Bool
  | [] => true
  | [_] => true
  | (j, _) :: (k, w) :: r => (j < k : Bool) && NMap.rising ((k, w) :: r)

/-- The canonical form: keys strictly rising and no entry equal to the default of its key. -/
def NMap.wf {α : Type} [DecidableEq α] (d : Nat → α) (m : NMap α) : Bool :=
  NMap.rising m && m.all (fun e => decide (e.2 ≠ d e.1))

/-- A byte memory: the host's cells, in canonical form; an unlisted address reads 0. -/
abbrev Memory := List Host.Cell

/-- One byte of a memory.
DEDUCED, unsafe: log entry 168. -/
def Memory.read (m : Memory) (a : Nat) : Byte := NMap.get 0#8 m a

/-- Write one byte of a memory. -/
def Memory.write (m : Memory) (a : Nat) (b : Byte) : Memory := NMap.set 0#8 m a b

/-- `n` bytes from address `a`. -/
def Memory.readN (m : Memory) (a n : Nat) : List Byte := (upTo n).map (fun i => Memory.read m (a + i))

/-- Write bytes from address `a` up. -/
def Memory.writeN (m : Memory) (a : Nat) : List Byte → Memory
  | [] => m
  | b :: bs => Memory.writeN (Memory.write m a b) (a + 1) bs

/-- The canonical form of a memory. -/
def Memory.wf (m : Memory) : Bool := NMap.wf (fun _ => 0#8) m

end Sys2Proof.Machine
end

