-- ==== Sys2Proof/Machine/Operands.lean ====
section
/-! DEFINITION. The operand forms of the commands: what arrives from a bus, a wire, a pin or the board. -/

namespace Sys2Proof.Machine

/-- A write access on BAR0 or from the service port: the bytes at an address, `none` where a byte is not enabled (R399). -/
structure Access where
  src : Source
  addr : BitVec 26
  bytes : List (Option Byte)
deriving DecidableEq, Repr

/-- A write of one register by its own row: who writes, the word written, and for a register that a row names by index,
nothing else. -/
structure RegWrite where
  src : Source
  value : Word
deriving DecidableEq, Repr

/-- A Trasum frame as it arrives on the service port (R459), less its EtherType and the OP, which the row gives. -/
structure Trasum where
  fcsOk : Bool
  dst : BitVec 48
  src : BitVec 48
  version : BitVec 8
  response : Bool
  seq : BitVec 16
  len : BitVec 16
  arg0 : Word
  arg1 : Word
  payload : List Byte
deriving DecidableEq, Repr

/-- A time of day: seconds and nanoseconds. -/
structure Stamp where
  sec : BitVec 48
  ns : BitVec 32
deriving DecidableEq, Repr

/-- The header of a cascade message (R384), its TYPE apart. -/
structure CHdr where
  src : BitVec 2
  dst : BitVec 2
  lseq : BitVec 16
  ack : BitVec 16
deriving DecidableEq, Repr

/-- A cascade message by TYPE (R384). `bad` is a reserved TYPE. -/
inductive CMsg where
  | hello (eligible master paused : Bool) (seen : BitVec 4)
  | timeSync (t1 : Stamp)
  | delayReq (t3 : Stamp)
  | delayResp (t4 : Stamp) (lseq : BitVec 16)
  | prepare (stamp : Stamp) (type : BitVec 4) (operand : Word) (tag : BitVec 16)
  | accept (tag : BitVec 16)
  | refuse (tag : BitVec 16) (result : BitVec 8)
  | confirm (tag : BitVec 16)
  | abandon (tag : BitVec 16)
  | learn (seq : Word) (key : BitVec 64) (value : BitVec 20) (table : BitVec 3) (age : Bool)
  | bad (type : BitVec 4)
deriving DecidableEq, Repr

/-- The answer of a module or a PHY on the board to a transfer (R472). -/
inductive BusAnswer where
  | ok (data : List Byte)
  | noModule
  | nak
deriving DecidableEq, Repr

/-- The NV record being written when power fails, if any (R449, R468). `header true` is slot B's. -/
inductive Torn where
  | none
  | header (slotB : Bool)
  | boot
  | settings
  | map
  | log
deriving DecidableEq, Repr

end Sys2Proof.Machine
end

