-- ==== Sys2Proof/Machine/TypesD5.lean ====
section
/-! DEFINITION. State types of the DDR5 system (R334 to R367). -/

namespace Sys2Proof.Machine

/-- What the ECC finds in a word of a channel: clean, corrected or uncorrectable (R348). -/
inductive EccSeen where
  | clean
  | corrected
  | uncorrectable
deriving DecidableEq, Repr

/-- One physical channel beside its registers. -/
structure D5Chan where
  /-- `Dc_RESET_N` is released; it is held low from power-on (R500) -/
  resetHigh : Bool := false
  /-- burst units whose reads wait in the read queue of each subchannel, oldest first (R345) -/
  rqA : List Nat := []
  rqB : List Nat := []
  /-- burst units in the write queue of each subchannel, oldest first (R345) -/
  wqA : List Nat := []
  wqB : List Nat := []
  /-- burst units that the DRAM holds with an error: true if it is uncorrectable (R347, R348) -/
  flaws : NMap Bool := []
  /-- the number of the next refresh slot, and ns on the model's clock at slot 0 (R349) -/
  slot : Nat := 0
  slotFrom : Nat := 0
  /-- the ticks in which MR4 was last read and the channel last calibrated (R351, R355) -/
  mr4Tick : Option Nat := none
  calTick : Option Nat := none
  /-- a change to hot or cool that takes effect at the next odd slot (R351, R352) -/
  crossing : Option Bool := none
  /-- postponement is suspended (R351, R352) -/
  suspended : Bool := false
  /-- write CRC retries and CA parity errors in this tick (R356) -/
  errTick : Nat := 0
  /-- pages of 4 KiB of local addresses written during a hold (R356) -/
  marked : List Nat := []
  /-- the state in which a hold or a RETRAIN began (R356, R357) -/
  before : Nat := 0
deriving DecidableEq, Repr

/-- An evacuation in progress (R358 to R361): source, target, what the source becomes, the ns it has copied for, and the tick in
which the copy ended. -/
structure Evac where
  source : Nat
  target : Nat
  after : Nat
  age : Nat
  copied : Option Nat
deriving DecidableEq, Repr

/-- The DDR5 system beside its registers. -/
structure D5St where
  /-- `D5M.CFG` as the last entry to BRING-UP read it (R337) -/
  cfg : Word := 0x03000865#32
  /-- the table region by DDR5 address (R342): what a read accepted now would answer -/
  mem : Memory := []
  chans : NMap D5Chan := []
  evac : Option Evac := none
  /-- logical channels whose replacement takes peat writes from the next tick on (R362) -/
  joining : List Nat := []
  /-- re-mirrors in progress: logical channel and the ns copied for (R362) -/
  remirror : List (Nat × Nat) := []
deriving DecidableEq, Repr

end Sys2Proof.Machine
end

