-- ==== Sys2Proof/Machine/TypesBase.lean ====
section
/-! DEFINITION. State types of the device as a whole: modes and pins, time, descriptor rings, and what leaves the device. -/

namespace Sys2Proof.Machine

/-- A packet fetched from an inject ring whose descriptors have not returned (R418): its number, its descriptors, and their
STATUS once it is known. -/
structure Injected where
  serial : Nat
  descs : Nat
  status : Option Nat
deriving DecidableEq, Repr

/-- A TABLE_OP or TCAM_OP descriptor whose records are being executed (R135, R161): its type and address, the next record's address,
how many are left, STOP, and what it has come to: records executed, and RESULT and index of the first that was not OK. -/
structure BulkJob where
  type : Nat
  desc : Nat
  next : Nat
  left : Nat
  stop : Bool
  done : Nat := 0
  fail : Option (Nat × Nat) := none
deriving DecidableEq, Repr

/-- One descriptor ring beside its registers (R412 to R414): the descriptors the device owns, those of them it has
fetched and not returned, the returns since the last request, the interrupt request, and whether a message has gone out that
told of it. -/
structure Ring where
  owned : Nat := 0
  taken : Nat := 0
  unreported : Nat := 0
  /-- ns on the model's clock at the first return not yet reported (R414) -/
  firstAt : Nat := 0
  request : Bool := false
  told : Bool := false
  /-- packets fetched from an inject ring, oldest first (R418) -/
  injects : List Injected := []
  /-- the table-bulk-load ring's descriptor in progress -/
  job : Option BulkJob := none
deriving DecidableEq, Repr

/-- A ring right after reset. -/
def Ring.fresh : Ring := {}

/-- Host memory as the device's transfers reach it: its bytes, and the address ranges whose transfers fail (R413).
DESIGN CHOICE, unsafe: log entry 10. -/
structure HostMem where
  mem : Memory := []
  bad : List (Nat × Nat) := []
deriving DecidableEq, Repr

/-- A mode request (R41): codes of `AUX.MODE_REQ.REQ`. -/
structure ModeReq where
  code : Nat
  src : Source
  seq : Nat
deriving DecidableEq, Repr

/-- The mode, what led to it, the request registers and the pins and supplies that transitions read (R41 to R45, R496
to R508). `cond` holds the conditions of R39, bit 0 for SPARE_D5. -/
structure ModeSt where
  mode : Mode := .standby
  prev : Mode := .unpowered
  cause : Nat := 0
  transition : Bool := false
  role : Nat := 0
  reqSeq : Nat := 0
  reqSrc : Source := .host
  reqResult : Nat := 0
  /-- a request being carried out -/
  inProgress : Option ModeReq := none
  /-- ns on the model's clock when the present mode was entered, when the request in progress was made, and when MAIN_EN last rose
  (R41 to R43) -/
  since : Nat := 0
  reqAt : Nat := 0
  mainEnSince : Nat := 0
  /-- HANDOVER_LATE has been raised in the present HANDOVER (R43) -/
  lateTold : Bool := false
  /-- VAUX_IN is at or above 4.5 V, and ns on the model's clock when it became so (R496) -/
  vaux : Bool := true
  vauxSince : Nat := 0
  /-- the level of MAIN_RST_N, high when released (R503) -/
  mainRstN : Bool := true
  /-- the level of PCIE_PERST_N, and ns on the model's clock at its last rise (R505) -/
  perstN : Bool := true
  perstSince : Nat := 0
  /-- MAIN_EN is driven high (R497) -/
  mainEn : Bool := false
  /-- the main rails are good, and ns on the model's clock when they became so (R498, R500) -/
  railsGood : Bool := false
  railsSince : Nat := 0
  /-- the straps as last sampled (R504) -/
  bootAuto : Bool := false
  sporeN : Bool := true
  /-- the present STANDBY may start by the strap (R41) -/
  autoStart : Bool := true
  /-- the loader check of the present loader has ended: passed or failed (R455, R469) -/
  loaderOk : Option Bool := none
  /-- both large dies are in the core range of the grade, and either is below it (R4, R497) -/
  inRange : Bool := false
  tooCold : Bool := true
  /-- HANDOVER was entered from QUIESCENT (R41) -/
  fromQuiescent : Bool := false
  /-- ports are held down by a QUIESCENT request whose 10 ms run (R42) -/
  portHold : Bool := false
  /-- boundary scan has been entered (R508) -/
  scan : Bool := false
  /-- rank of the trigger that took effect in the present island clock (R45) -/
  winner : Option Nat := none
  /-- a request waits in STANDBY for the loader check (R455) -/
  bootPending : Option Source := none
  /-- the gate of R4 has held the device since the loader check passed -/
  gated : Bool := false
  /-- SPORE has lost its main rails: MAIN_EN stays low until a BOOT request (R44) -/
  sporeRailLost : Bool := false
  /-- THERM_N is pulled low: SHUTDOWN has been set, or a HARD_OFF has occurred, since power-on (R506) -/
  thermLow : Bool := false
deriving DecidableEq, Repr

/-- The time base beside its registers (R368 to R374). `t` counts network time in units of 10⁻¹² ns. -/
structure TimeSt where
  t : Nat := 0
  /-- what remains of the slew in progress, in units of 10⁻¹² ns, signed (R370) -/
  slewLeft : Int := 0
  /-- a time of day has been loaded since BRING-UP (R373) -/
  todLoaded : Bool := false
  /-- network time, in ns, when TOD was armed (R372) -/
  armedAt : Option Nat := none
  /-- real ns elapsed since the last accepted edge (R371, R373) -/
  sinceEdge : Option Nat := none
  /-- ticks fired since BRING-UP (R35) -/
  fired : Nat := 0
  /-- domain-45 cycles since power-on: time that no step moves -/
  elapsed : Nat := 0
  /-- consecutive accepted edges within and beyond LOCK_NS (R373) -/
  goodRun : Nat := 0
  badRun : Nat := 0
  /-- errors of the last rejected big edges, newest first (R374) -/
  bigErrs : List Int := []
  /-- the last values of FREQ_ADJ, newest first, at most 64 (R373) -/
  adjHist : List Int := []
deriving DecidableEq, Repr

/-- What an OTN context sends in its next frame (R300, R303): STAT, the PT, the TX_TTI, a byte of which goes with each frame, BEI/BIAE and
BDI of SM, BEI and BDI of PM and of the tributary's PM, and what fills its payload: 0 a packet, 1 GFP idle frames, 2 IMP idles. -/
structure OtnSent where
  stat : Nat
  pt : Nat
  tti : List Byte
  smBei : Nat
  smBdi : Bool
  pmBei : Nat
  pmBdi : Bool
  tribBei : Nat
  tribBdi : Bool
  fill : Nat
deriving DecidableEq, Repr

/-- What the sorus does to a module (R307): RESET_N released, an ApSel written to the staged control set, data-path initialisation
run, or low-power mode kept. -/
inductive CageStep where
  | release
  | stage (apsel : Nat)
  | initPath
  | lowPower
deriving DecidableEq, Repr

/-- What leaves the device, in the order it leaves.
DESIGN CHOICE, safe: log entry 11. -/
inductive Out where
  /-- an MSI-X message: vector, address, data (R406) -/
  | msix (vector addr data : Nat)
  /-- a frame leaves a MAC port: logical port, bytes, and whether its FCS is good or inverted (R321) -/
  | frame (port : Nat) (bytes : List Byte) (good : Bool)
  /-- a pause or PFC frame leaves a MAC port: port, class enable vector, quanta (R289) -/
  | pause (mac : Nat) (classes quanta : Nat)
  /-- what an OTN context sends in its next frame (R300, R303) -/
  | otn (ctx : Nat) (f : OtnSent)
  /-- the sorus acts on the module of a cage (R307) -/
  | cage (slice cage : Nat) (step : CageStep)
  /-- the FlexE overhead that a PHY sends: RPF, CR and C (R295, R305) -/
  | flexe (group phy : Nat) (rpf cr c : Bool)
  /-- the RS of a MAC port or a FlexE PHY, by its `LineObj.key`, begins or ends sending remote fault (R305) -/
  | remoteFault (obj : Nat) (on : Bool)
  /-- a fabric cell leaves a lane (R248) -/
  | cell (lane : Nat) (bytes : List Byte)
  /-- IDLE cells of a device number that return no credit leave a lane, one after another (R258) -/
  | idles (lane n dev : Nat)
  /-- a lane begins to send codewords: the state of its scrambler and its first CW_COUNT (R245) -/
  | codeStart (lane scram count : Nat)
  /-- `Dc_RESET_N` of a DDR5 channel is released or driven low (R500) -/
  | dramReset (chan : Nat) (high : Bool)
  /-- a cascade message leaves a link on one of its two lanes (R384) -/
  | cascade (link lane : Nat) (bytes : List Byte)
  /-- a Trasum frame leaves the service port (R459) -/
  | trasum (bytes : List Byte)
  /-- HANDOVER_LATE is raised on the service port (R43) -/
  | handoverLate
  /-- an AER Uncorrectable Internal Error is reported (R397) -/
  | aer
  /-- a rising edge of PPS_OUT with its width in ns (R375) -/
  | ppsPulse (widthNs : Nat)
  /-- a word read through a window or a register read returned, poisoned or not (R409) -/
  | data (bytes : List Byte) (poisoned : Bool)
  /-- a read that no completion answers (R396) -/
  | noCompletion
  /-- a read that ends in Completer Abort (R399, R442) -/
  | abort
  /-- an island bus transfer: unit, address, bytes written (R472) -/
  | bus (unit addr : Nat) (bytes : List Byte)
deriving DecidableEq, Repr

end Sys2Proof.Machine
end

