-- ==== Sys2Proof/Machine/TypesLine.lean ====
section
/-! DEFINITION. State types of the line side beside its registers: lanes, FlexE overhead, OTN framing, defect reports. -/

namespace Sys2Proof.Machine

/-- A line lane beside its registers (R278): counted attempts of the retrain in progress, whether it began from FAILED, and the ns
from which the lane has shown loss of lock with its signal present. -/
structure LineLane where
  attempts : Nat := 0
  fromFailed : Bool := false
  lolAt : Option Nat := none
deriving DecidableEq, Repr

/-- The overhead lock of a FlexE PHY (R292): found and missed signatures in a row with frame lock, and consistent and
inconsistent multiframes in a row with multiframe lock. -/
structure FlexPhy where
  found : Nat := 0
  missed : Nat := 0
  frameLock : Bool := false
  same : Nat := 0
  other : Nat := 0
  multiLock : Bool := false
deriving DecidableEq, Repr

/-- An aligned stream of an OTN context (R298, R299): its trackers with the patterns in a row that each has found, the
position in frame with the misses in a row, the multiframe state with its runs, and the logical lane that its marker names with the
delay in ns at which it arrives. -/
structure OtnStream where
  trackers : List (Nat × Nat) := []
  at_ : Option Nat := none
  missed : Nat := 0
  mfas : Nat := 0
  mfGood : Nat := 0
  mfBad : Nat := 0
  inMf : Bool := false
  marker : Nat := 0
  delay : Nat := 0
deriving DecidableEq, Repr

/-- A trail trace as it is received (R302): the bytes of the present multiframe, the last whole value, and how often it has
repeated.
PRESUMED, unsafe: log entry 79. -/
structure Tti where
  now : List Byte := []
  last : List Byte := []
  runs : Nat := 0
deriving DecidableEq, Repr

/-- An OTN context beside its registers: its streams, the runs of its detectors by defect bit (16 up for the tributary's),
the traces, the PT last received with its run, the GFP state (0 HUNT, 1 PRESYNC, 2 SYNC), the BEI of SM, PM and the tributary's PM to
send next, and whether the context is in frame and deskewed, and in multiframe, with the ns from which that has been so (R298 to
R304). -/
structure OtnCtx where
  streams : NMap OtnStream := []
  runs : NMap Nat := []
  sm : Tti := {}
  pm : Tti := {}
  pt : Nat := 0
  ptRun : Nat := 0
  gfp : Nat := 0
  smBei : Nat := 0
  pmBei : Nat := 0
  tribBei : Nat := 0
  framed : Bool := false
  framedAt : Nat := 0
  multi : Bool := false
  multiAt : Nat := 0
deriving DecidableEq, Repr

/-- The line side beside its registers. Objects are keyed as `LineObj.key` says. -/
structure LineSt where
  lanes : NMap LineLane := []
  phys : NMap FlexPhy := []
  /-- the client IDs received in slots of the calendar in use, by group (R296) -/
  rxIds : NMap (List (Nat × Nat)) := []
  /-- the ns from which a group's skew has been within 4 µs again (R293), and at which its CAL_REQ was written (R295) -/
  skewOk : NMap Nat := []
  calReqAt : NMap Nat := []
  /-- the ns at which an object's last defect that takes it down cleared, or at which it was enabled (R286) -/
  clearAt : NMap Nat := []
  /-- the ns of the last pause frame sent for MAC port × 16 + class (R289), and of the last poll of a cage (R307) -/
  pausedAt : NMap Nat := []
  polledAt : NMap Nat := []
  /-- the ns at which the last cause of a SyncE output's squelch cleared (R376) -/
  synceClear : NMap Nat := []
  otn : NMap OtnCtx := []
  /-- ports, clients and contexts that are up (R286) -/
  up : List Nat := []
  /-- objects whose REPORTED bits changed in this tick, with those bits before, and the ticks that had fired then (R306) -/
  changed : NMap Nat := []
  changedTick : Nat := 0
deriving DecidableEq, Repr

end Sys2Proof.Machine
end

