-- ==== Sys2Proof/Machine/TypesPass.lean ====
section
/-! DEFINITION. What a pinna's body asks for and decides (R59, R60, R512): its encoding is published with Ezuno and not given, so a
body enters the model as the accesses it issues and the outcome it forms from their results. -/

namespace Sys2Proof.Machine

/-- An access of a pinna in a slot that its slot records claim (R60, R62), by the slot's place among the pinna's slots of that
kind (searches by the table and SLOT that they have in common, R154) and its key's place among the keys built: a direct SRAM
read, an exact-match lookup, a longest-prefix lookup, a TCAM search, or the read-modify-write of the update slot. -/
inductive PinnaAcc where
  | read (slot key : Nat)
  | em (slot key : Nat)
  | route (slot key : Nat)
  | search (slot key : Nat)
  | update (key : Nat)
deriving DecidableEq, Repr

/-- What a pinna's body asks for: the keys it builds, each with its bits and value, and its accesses. -/
structure PinnaAsk where
  keys : List (Nat × Nat) := []
  accs : List PinnaAcc := []
deriving DecidableEq, Repr, Inhabited

/-- What a pinna decides once its lookups have answered: container writes, counter updates (pair and bytes), and the new word
of its update slot. -/
structure PinnaOut where
  writes : List (Nat × Nat) := []
  counters : List (Nat × Nat) := []
  word : Option (BitVec 256) := none
deriving DecidableEq, Repr, Inhabited

end Sys2Proof.Machine
end

