-- ==== Sys2Proof/Machine/TypesTbl.lean ====
section
/-! DEFINITION. State types of the table SRAM, its engines, the TCAM, and the DDR5 system. -/

namespace Sys2Proof.Machine

/-- A word of the table SRAM (R118). -/
abbrev TWord := BitVec 256

/-- Words of an LPM table freed by a change and not yet free again (R132): the ticks fired when they were replaced, their
LEVEL (31 for leaves), the first of them, and how many they are in one copy. -/
structure Grace where
  at_ : Nat
  level : Nat
  pos : Nat := 0
  words : Nat
deriving DecidableEq, Repr

/-- An LPM table (R125, R126): results by length and prefix, results by code, where the trie lies in its levels, and the words
in grace. A run is the children or the leaves of one node, contiguous in one region (R124). -/
structure Lpm where
  /-- the result of each route, by length × 2¹²⁸ + prefix bits -/
  routes : NMap Nat := []
  codes : NMap Nat := []
  /-- first word and length of each run, by (2 × level of the node + 1 for leaves) × 2¹²⁸ + the address bits above it; the
  root's level is 0 -/
  runs : NMap (Nat × Nat) := []
  grace : List Grace := []
  v6 : Bool := false
deriving DecidableEq, Repr

/-- A write of one slot that an exact-match operation has still to make (R132). -/
structure SlotWrite where
  word : Nat
  slot : Nat
  wide : Bool
  val : Nat
  /-- the entry's hit bit is set with the write (R138, R143) -/
  hit : Bool := false
deriving DecidableEq, Repr

/-- A learning request (R137): learned table, key, learned value. -/
structure LearnReq where
  table : Nat
  key : Nat
  value : Nat
  move : Bool
deriving DecidableEq, Repr

/-- The table SRAM and its engines beside their registers. -/
structure TblSt where
  /-- words by bank × 24,576 + bank address. Where the engine has written a trie: the difference from what it wrote. -/
  sram : NMap TWord := []
  /-- the words of tries as the engine wrote them (R123 to R125) -/
  trie : NMap TWord := []
  /-- hit bits by word × 2 + slot -/
  hits : NMap Bool := []
  /-- LPM tables by the place of their root -/
  lpm : NMap Lpm := []
  /-- slot writes left of the exact-match operation in progress, and whether a register operation waits for them -/
  moving : List SlotWrite := []
  movingReg : Bool := false
  fifo : List LearnReq := []
  /-- MOVED outcomes of a key in this tick, by learned table × 2⁶⁴ + key (R139) -/
  moves : NMap Nat := []
  /-- entries that an aging pass found unhit: learned table and key (R142) -/
  aging : List (Nat × Nat) := []
  /-- the ticks fired at the last aging pass of each learned table (R142) -/
  agedAt : NMap Nat := []
  /-- the partition map whose changed units have been zeroed and which awaits the tick (R120) -/
  zeroed : Option (List Word) := none
  /-- the block that the shadow walk comes to next, among the enabled blocks in order, and the ticks fired when the present
  walk began (R145) -/
  walkPos : Nat := 0
  walkFrom : Nat := 0
  /-- blocks that failed their comparison and wait to be read again: SHD table, copy, block (R146) -/
  reread : List (Nat × Nat × Nat) := []
  /-- `SHD.REBASE` as last written -/
  rebase : Nat := 0
deriving DecidableEq, Repr

/-- A row of a TCAM group (R149, R166): its width code, VALUE, MASK, PRIORITY, ACTION, HANDLE, state and commit group. -/
structure TRow where
  width : Nat := 0
  value : Nat := 0
  mask : Nat := 0
  prio : Nat := 0
  action : Nat := 0
  handle : Nat := 0
  state : Nat := 0
  cgrp : Nat := 0
deriving DecidableEq, Repr

/-- A step-through in progress (R170): the table's banks, width and key as they stood at START, and the entry last
returned, as PRIORITY, group and row. -/
structure Step where
  banks : Nat
  width : Nat
  key : Nat
  last : Option (Nat × Nat × Nat)
deriving DecidableEq, Repr

/-- The TCAM beside its registers. -/
structure TcamSt where
  /-- rows by first bank × 8,192 + row; an unlisted row is FREE -/
  rows : NMap TRow := []
  /-- commit flags, one bit for each commit group (R168) -/
  flags : Nat := 0
  /-- spare rows in use: the spare that stands in for bank × 8,192 + row (R173) -/
  steered : NMap Nat := []
  /-- spare rows that can stand in for none, by bank × 64 + spare: found faulty at BRING-UP, or with a hard fault in use (R173,
  R176) -/
  deadSpares : NMap Bool := []
  /-- rows that hard faults have retired, by bank × 8,192 + row (R174) -/
  retired : NMap Bool := []
  /-- stored copies with an uncorrectable error, by bank × 8,192 + row (R160) -/
  copyBad : NMap Bool := []
  /-- rows queued for an immediate scrub, first bank × 8,192 + row (R159) -/
  scrubQ : List Nat := []
  /-- ticks that had fired when the scrubber's last pass began (R172) -/
  scrubFrom : Nat := 0
  step : Option Step := none
deriving DecidableEq, Repr

end Sys2Proof.Machine
end

