-- ==== Sys2Proof/Machine/TypesData.lean ====
section
/-! DEFINITION. State types of the data plane on the frond die: cells, chunks, bridge groups, packets, passes, staging, the
port egress FIFO. -/

namespace Sys2Proof.Machine

/-- What a reader meets of a stored cell beside what was stored (R318): the verdicts of its ECC codes, bytes of the
covered data that arrive changed (position and difference), and the difference of its rind. The default is a clean read. -/
structure Seen where
  uncorr : Bool := false
  rindUncorr : Bool := false
  rindFixed : Bool := false
  fixed : Bool := false
  flips : List (Nat × Byte) := []
  rindFlip : Word := 0
deriving DecidableEq, Repr

/-- What a search of the TCAM meets, by bank and row: rows that a flipped cell makes match (R159), and rows whose stored copy has
an uncorrectable error (R160). -/
structure TcSeen where
  flipped : List (Nat × Nat) := []
  copyErr : List (Nat × Nat) := []
deriving DecidableEq, Repr

/-- What the accesses of a pass meet: a table word with an uncorrectable error that it read, by bank × 24,576 + address (R325), and
what its searches of the TCAM meet. -/
structure AccSeen where
  sram : Option Nat := none
  tcam : TcSeen := {}
deriving DecidableEq, Repr

/-- What an admission cycle of a frond meets: the wire group that is asked first (R55), and the searches that the passes in it make
(R59). -/
structure AdmitSeen where
  prefer : Nat := 0
  tcam : TcSeen := {}
deriving DecidableEq, Repr

/-- W32_0 of a packet with no port of arrival, its SLICE left out (R67): LPORT and MAC_PORT 0xFF, NO_LPORT 1. -/
def noArrival : Nat := 0xFF + 0xFF * 2 ^ 8 + 2 ^ 19

/-- A cell: the fields of the internal header (R314), its payload bytes without padding, its rind, the queue manager's mark
that its packet is to be dropped (R319), and W32_0 of its packet without SLICE, which names its port of arrival (R67).
DEDUCED, unsafe: log entry 179. -/
structure Cell where
  queue : Nat := 0
  sop : Bool := false
  eop : Bool := false
  pktLen : Nat := 0
  idx : Nat := 0
  recirc : Nat := 0
  epoch : Nat := 0
  metaW : Nat := 0
  pay : List Byte := []
  rind : Word := 0
  marked : Bool := false
  arrival : Nat := noArrival
deriving DecidableEq, Repr

/-- A chunk on the bridge (R20, R21): the header chunk of a cell, or 32 of its payload bytes. -/
structure Chunk where
  hdr : Option Cell
  bytes : List Byte
  last : Bool
  seq : Nat
deriving DecidableEq, Repr

/-- A packet in departure on a wire group from the TD (R234): its queue, the cells it has still to send, its tag, and
where it goes. -/
structure Depart where
  queue : Nat
  left : Nat
  idx : Nat
  tag : Nat
  outLport : Nat
  outNone : Bool
  credits : Nat
  poison : Bool
  /-- cells that its weight still gives it in this round of the interleaving (R234) -/
  quota : Nat := 0
deriving DecidableEq, Repr

/-- One wire group in one direction (R19 to R25): chunks cut and waiting, the skid buffer, chunks sent and not arrived,
the crossing FIFO, the sender's credits, the credits the receiver owes, replays in a row and in all, the chunk sequence
number, and the packet tags of both ends.
DEDUCED, unsafe: log entry 63. -/
structure Group where
  waiting : List Chunk := []
  skid : List Chunk := []
  flight : List Chunk := []
  fifo : List Chunk := []
  credits : Nat := 44
  owed : Nat := 0
  fails : Nat := 0
  replays : Nat := 0
  seq : Nat := 0
  txTag : Nat := 0
  rxTag : Nat := 0
  departing : List Depart := []
  /-- where the packets whose first cell has been sent go: OUT_LPORT, OUT_NONE and the word credits spent -/
  announced : List (Nat × Bool × Nat) := []
deriving DecidableEq, Repr

/-- The bridge beside its registers: rind failures on arrival in this tick (R29). -/
structure BridgeSt where
  groups : NMap Group := []
  rindFails : Nat := 0
  /-- a drift event has fired under AUTO_HALF at full width, and the switch to half width is under way (R30) -/
  halfDue : Bool := false
  /-- `BRG.CREDIT_STALL_CNT` and `BRG.CREDIT_VIOL_CNT`, saturating: their addresses are not given -/
  stallCnt : Nat := 0
  violCnt : Nat := 0
deriving DecidableEq, Repr

/-- A packet of a run (R79): its bytes as presented to the parser, where it came from, its stamp and what it carries. -/
structure Pkt where
  bytes : List Byte := []
  len : Nat := 0
  fcsOk : Bool := true
  lport : Nat := 0xFF
  noLport : Bool := true
  macPort : Nat := 0xFF
  metaW : Nat := 0
  stamped : Bool := false
  bank : Nat := 0
  epoch : Nat := 0
  inEpoch : Nat := 0
  recirc : Nat := 0
  fromRecirc : Bool := false
  inject : Bool := false
  egress : Bool := false
  outLport : Nat := 0
  outNone : Bool := false
  advance : Option Nat := none
  rinds : List Word := []
  sec : Nat := 0
  ns : Nat := 0
  /-- egress packet store entry, for an egress pass -/
  store : Option Nat := none
  /-- inject ring and the packet's number there: its descriptors return at admission (R418) -/
  descs : Option (Nat × Nat) := none
deriving DecidableEq, Repr

/-- What the parser and the payload matcher make of a packet (R102 to R104, R109, R114): outcome 0 OK, 1 DEPTH_EXCEEDED,
2 MALFORMED, and the containers written. -/
structure ParseOut where
  outcome : Nat := 0
  limit : Nat := 0
  reason : Nat := 0
  headers : Nat := 0
  lastOff : Nat := 0
  advanced : Bool := false
  conts : NMap Nat := []
  pay : Option Nat := none
deriving DecidableEq, Repr

/-- What a packet does in its pinnae: its program runs, or it goes through as a bubble that carries its disposition: a
drop, a punt by the parser, or a bad FCS (R107, R316). -/
inductive PassKind where
  | runs
  | dropped
  | punted (ring reason : Nat)
  | badFcs
deriving DecidableEq, Repr

/-- A longest-prefix lookup of a pass on its way (R123): table, copy and address, and the word that it comes to: LEVEL (32 for
RESULT), region ordinal and word offset, the entry or code in it, and how many address bits lie below. -/
structure Walk where
  table : Nat
  copy : Nat
  addr : Nat
  level : Nat
  ord : Nat
  off : Nat
  sub : Nat
  left : Nat
deriving DecidableEq, Repr

/-- A pass in a frond: the packet, its parse under the sets in force at its admission, what it does, and in the pinnae the
admission cycle of its frond entry, how many pinnae have run, the containers after them (R59), and its walks (R123). -/
structure Pass where
  pkt : Pkt
  parse : ParseOut
  kind : PassKind
  /-- its drain window has closed: it is dropped at hand-off (R82) -/
  expired : Bool := false
  since : Nat := 0
  next : Nat := 0
  phv : NMap Nat := []
  walks : List Walk := []
deriving DecidableEq, Repr

/-- What a pinna's accesses have taken so far of what its descriptor declares (R60, R512): the slots used, by kind and place, and
the hash units; and the walks of the pass. -/
structure PinnaUse where
  slots : List (Nat × Nat) := []
  hashes : Nat := 0
  walks : List Walk := []
deriving DecidableEq, Repr

/-- One frond: its admission cycles so far (R53), the stamp and cycle of the last packet admitted (R54, R83), the passes
in its parser and in its pinnae, oldest first, and its inject FIFO (R418). -/
structure Frond where
  cycle : Nat := 0
  lastBank : Option Nat := none
  lastAt : Nat := 0
  parser : List Pass := []
  pinnae : List Pass := []
  inject : List Pkt := []
  /-- the containers of the last pass handed off, read only under FREEZE -/
  lastPhv : NMap Nat := []
deriving DecidableEq, Repr

/-- A staged packet, and whether it is ready (R91). -/
structure Staged where
  pkt : Pkt
  ready : Bool
deriving DecidableEq, Repr

/-- What becomes of an egress packet after its pass. -/
inductive Fate where
  | running
  | port
  | drop
  | punt (ring reason : Nat) (copy forward parser : Bool)
  | recirc (slice : Nat)
deriving DecidableEq, Repr

/-- An entry of the FD egress packet store: a packet read from the crossing FIFOs of its group, or injected into the frond, its
cells so far, and what its pass made of it. -/
structure EgPkt where
  frond : Nat := 8
  group : Nat
  tag : Nat
  queue : Nat
  len : Nat
  cells : List Cell := []
  /-- its bytes that have arrived, discarded ones included -/
  arrived : Nat := 0
  complete : Bool := false
  outLport : Nat := 0
  outNone : Bool := false
  /-- word credits spent at departure and not returned (R209) -/
  credits : Nat := 0
  fate : Fate := .running
  /-- the rewritten first cell, after the pass (R210) -/
  head : List Byte := []
  pass : Option Pkt := none
deriving DecidableEq, Repr

/-- A span of a packet in a port egress FIFO (R311, R322). -/
structure Span where
  bytes : List Byte
  rind : Word
deriving DecidableEq, Repr

/-- A packet in a port egress FIFO: its store entry, its spans so far, whether it is whole, the bytes that have left, its
tag, whether its transmission has begun, and whether its words are discarded as they arrive. -/
structure EgfPkt where
  id : Nat
  spans : List Span
  whole : Bool
  sent : Nat
  tag : Nat
  started : Bool
  discard : Bool
deriving DecidableEq, Repr

/-- A port egress FIFO (R208 to R213): its packets, oldest first; those whose first word has yet to be written; the TD's
word credits; credits on their way back; the share in force; the next packet tag; and the TD's held choice (R235). -/
structure Egf where
  pkts : List EgfPkt := []
  coming : List Nat := []
  tdCredits : Nat := 1024
  owed : Nat := 0
  share : Nat := 32
  tag : Nat := 0
  held : Option Nat := none
deriving DecidableEq, Repr

/-- The recirculation path and FIFO of a slice (R85 to R88). -/
structure Recirc where
  path : List Pkt := []
  fifo : List Pkt := []
deriving DecidableEq, Repr

/-- A program bank: the bytes of its image (R71), and the code and DETAIL of the re-check that has made it REFUSED (R78). Its
state stands in `GLB.PROG_BANK_STS`. -/
structure Bank where
  image : List Byte := []
  refused : Option (Nat × Nat) := none
deriving DecidableEq, Repr

/-- The program loader beside its registers (R76 to R84): the banks, the bytes received, whether an image has ever been loaded
(R76), and what is left of the drain window in hundredths of an FD core cycle. -/
structure ProgSt where
  bank0 : Bank := {}
  bank1 : Bank := {}
  received : List Byte := []
  everLoaded : Bool := false
  drainLeft : Nat := 0
  /-- the epoch number (R37) -/
  epoch : Nat := 0
deriving DecidableEq, Repr

/-- The data plane of the frond die. -/
structure FdSt where
  fronds : NMap Frond := []
  staging : NMap (List Staged) := []
  /-- the recirculation path and FIFO of each slice (R85 to R88) -/
  recirc : NMap Recirc := []
  prog : ProgSt := {}
  bridge : BridgeSt := {}
  store : NMap EgPkt := []
  nextId : Nat := 1
  /-- the inject ring that the round robin comes to next (R418) -/
  injectNext : Nat := 32
  egf : NMap Egf := []
  /-- the BRIDGE_LIMIT budget of each ingress frond at half width: chunks in thousandths, and the ns since power-on at which
  they were brought up to date (R31) -/
  budget : NMap (Nat × Nat) := []
  /-- the pattern sets of the payload matcher by set and index: nine words (R116) -/
  patterns : NMap (List Word) := []
deriving DecidableEq, Repr

end Sys2Proof.Machine
end

