-- ==== Sys2Proof/Machine/TypesTd.lean ====
section
/-! DEFINITION. State types of the table die: queues in sward and peat, the scheduler, the fabric side. -/

namespace Sys2Proof.Machine

/-- A stored cell as the queue manager expects it: its sward address and its CSEQ (R312). -/
structure Slot where
  addr : Nat
  cseq : Nat
deriving DecidableEq, Repr

/-- A block on its way to a queue's head (R190, R200): a read of a written block whose first cell has a CSEQ, the relinking
of a block whose write is in flight, with its sward cells and whether the write has completed, or a lost block, of which the
link table keeps the SOP and EOP marks. -/
inductive Fetching where
  | read (block cseq : Nat)
  | relink (block : Nat) (cells : List Slot) (written : Bool)
  | lost (marks : List (Bool × Bool))
deriving DecidableEq, Repr

/-- A queue in storage beside its record (R185 to R204). -/
structure Queue where
  spilling : Bool := false
  /-- cells in the sward, oldest first -/
  head : List Slot := []
  tail : List Slot := []
  fetching : List Fetching := []
  /-- blocks resting in the peat, with the CSEQ of their first cell -/
  middle : List (Nat × Nat) := []
  /-- blocks being written, with their sward cells -/
  writing : List (Nat × List Slot) := []
  /-- cells of admitted packets that have not been pushed (R184, R185) -/
  reserved : Nat := 0
  /-- complete packets (R182) -/
  packets : Nat := 0
  /-- the average depth A in 1/256 of a cell (R202) -/
  avg : Nat := 0
  drops : Nat := 0
  dropWrap : Bool := false
  crossed : Bool := false
  level : Bool := false
  fellTold : Bool := false
  /-- the next CSEQ to give (R311) -/
  seqIn : Nat := 0
  /-- the channel of the queue's previous block (R197) -/
  lastChan : Nat := 15
  /-- a packet of the queue is departing (R193) -/
  sending : Bool := false
  /-- the packet whose cells are spilled, or read back, next has failed there already (R318) -/
  spillBad : Bool := false
  readBad : Bool := false
  /-- the packet whose cells come next at the head is being dropped (R200, R319) -/
  dooming : Bool := false
deriving DecidableEq, Repr

/-- The assembly context of a producer stream (R181, R184): the packet's queue, its stored cells, its reserved cells
still unused, and whether its cells are being discarded. -/
structure Assembly where
  queue : Nat
  pool : Nat
  addrs : List Nat
  left : Nat
  cells : Nat
  dropping : Bool
  idx : Nat
  tag : Nat
deriving DecidableEq, Repr

/-- The storage side of the table die. -/
structure StoreSt where
  queues : NMap Queue := []
  /-- queue records: word W0 of KIND 0 (R179) -/
  records : NMap Nat := []
  /-- storage and drop profiles: KIND 1 and 2 by index and word (R194, R215) -/
  storeProf : NMap (List Nat) := []
  dropProf : NMap (List Nat) := []
  /-- assembly contexts by stream: wire group, or 32 + re-sequencer context (R181) -/
  assembling : NMap (Option Assembly) := []
  sward : NMap Cell := []
  /-- peat blocks in use: their eight cells (R195) -/
  peat : NMap (List Cell) := []
  lost : List Nat := []
  lfsr : Nat := 1
  /-- logical channels whose peat contents are lost and not yet usable again (R200) -/
  deadChans : List Nat := []
  /-- pools whose falling notice has been sent since CROSSED was set, one bit each (R205) -/
  poolFell : Nat := 0
  /-- ns since power-on from which each budget has room for a block again (R198) -/
  writeFrom : Nat := 0
  readFrom : Nat := 0
  /-- queues whose spill write, and whose read, waits for budget, oldest request first (R198) -/
  writeWait : List Nat := []
  readWait : List Nat := []
  /-- ns since power-on up to which `QMG.PROF_STS.STATE` reads busy (R215) -/
  profUntil : Nat := 0
deriving DecidableEq, Repr

/-- A node's moving state (R223, R227): buckets in microbits, the stamp of each update in ns, DEFICIT in bytes. -/
structure NodeSt where
  commit : Int := 0
  peak : Int := 0
  stamp : Nat := 0
  deficit : Int := 0
deriving DecidableEq, Repr

/-- A VOQ beside its destination record (R237, R238): BALANCE in bytes and the request state it last sent. -/
structure Voq where
  balance : Int := 0
  state : Nat := 0
  /-- ticks that had fired when its last request went out -/
  sentAt : Nat := 0
  /-- ticks that had fired when its depth became 0; none while it holds cells -/
  emptyAt : Option Nat := some 0
deriving DecidableEq, Repr

/-- A request context of a destination (R239): the port and class it asks for, whether its state is FAST, and the ticks that had
fired at its last message. -/
structure ReqCtx where
  port : Nat
  cls : Nat
  fast : Bool
  at_ : Nat
deriving DecidableEq, Repr

/-- A grant generator beside its record (R240, R241): bucket, stamp, stopped, and by class the key of the context it served
last with how many grants in a row. -/
structure GrantSt where
  bucket : Int := 0
  stamp : Nat := 0
  stopped : Bool := false
  last : NMap (Nat × Nat) := []
deriving DecidableEq, Repr

/-- The pace buckets of a slice (R233): tokens in units of 1/12,800, half-width chunks in thousandths, and the ns since
power-on at which both were brought up to date. They are full at reset. -/
structure Pace where
  tokens : Nat := 204800
  chunks : Nat := 576000
  at_ : Nat := 0
deriving DecidableEq, Repr

/-- The scheduler beside its registers. -/
structure SchedSt where
  /-- node records by level × 2²⁰ + index: words W0 to W3 (R219, R243) -/
  nodes : NMap (List Nat) := []
  nodeSt : NMap NodeSt := []
  /-- the child each deficit round robin points at, by level, parent, phase and PRIO (R223) -/
  pointers : NMap (Option Nat) := []
  /-- profile sets by set × 2¹⁴ + index: RATE, BURST, LEN_ADJ as words W0 and W1 (R226) -/
  profiles : NMap (List Nat) := []
  /-- VOQ destination records: word W0 (R237) -/
  voqRec : NMap Nat := []
  voqs : NMap Voq := []
  /-- request contexts by source device × 2²⁰ + source VOQ (R239) -/
  contexts : NMap ReqCtx := []
  /-- grant generator records: W0 to W2 (R243) -/
  grantRec : NMap (List Nat) := []
  grants : NMap GrantSt := []
  /-- departure calendar positions by slice, decisions so far -/
  calPos : NMap Nat := []
  /-- the pace buckets by slice (R233) -/
  pace : NMap Pace := []
  /-- received pauses by MAC port × 16 + class, 8 for a plain pause, with the ns at which they end (R236, R288) -/
  pauses : NMap Nat := []
  /-- PARENT writes that wait for the end of the packet a node is sending (R224): node key and parent -/
  moves : List (Nat × Nat) := []
  /-- ns since power-on up to which `SCH.STS.STATE` reads busy (R243) -/
  cmdUntil : Nat := 0
deriving DecidableEq, Repr

/-- A cell on the fabric link (R248, R249). -/
structure FCell where
  sop : Bool := false
  eop : Bool := false
  dest : Nat := 0
  src : Nat := 0
  engine : Nat := 0
  seq : Nat := 0
  rind : Word := 0
  metaW : Nat := 0
  pktLen : Nat := 0
  port : Nat := 0
  cls : Nat := 0
  pay : List Byte := []
deriving DecidableEq, Repr

/-- What waits on a lane: a DATA cell, or a CONTROL cell with its destination and messages (R266, R272). -/
inductive LaneCell where
  | data (c : FCell)
  | control (dest : Nat) (msgs : List Nat)
deriving DecidableEq, Repr

/-- Where a lane's receiver stands among the units (R246, R247): nothing taken since lock was gained, after damage and so on its
way to FIRST_HDR, or within the units of a cell that has begun. -/
inductive RxPos where
  | start
  | skip
  | within (units : List Nat)
deriving DecidableEq, Repr

/-- A fabric lane beside its registers (R253 to R266). -/
structure FabLane where
  /-- rates untried or good in this bring-up, and the partner's mask -/
  mask : Nat := 0
  farMask : Option Nat := none
  told : Bool := false
  farOk : Bool := false
  /-- the partner's LINK_CREDITS (R257) -/
  farCredits : Nat := 0
  /-- the reach map: bit d for device d (R260) -/
  reach : Nat := 0
  /-- the load value V in bytes, and whether the lane is spraying (R262, R265) -/
  load : Nat := 0
  spraying : Bool := false
  tx : List LaneCell := []
  lastControl : Bool := false
  /-- bits that the lane's rate has let pass and no cell has taken; below 0 after a cell ahead of its time (R244) -/
  bits : Int := 0
  /-- IDLE cells without returns sent since the last other cell (R258) -/
  idles : Nat := 0
  /-- credits to return (R258) -/
  owed : Nat := 0
  /-- link CRC failures in this tick, codewords in a row good and bad (R246, R256) -/
  crcTick : Nat := 0
  goodRun : Nat := 0
  badRun : Nat := 0
  /-- codeword lock (R246), and training that has ended well and waits for it (R253) -/
  locked : Bool := false
  trained : Bool := false
  /-- the receiver among the units, and the last 58 scrambled bits received, from which the next are recovered (R245) -/
  rx : RxPos := .start
  rxScram : Nat := 0
  /-- ns and ticks at which the lane came to its state, at its partner's last HELLO, and at its own last (R253, R255, R256) -/
  since : Nat := 0
  sinceTick : Nat := 0
  heard : Nat := 0
  heardTick : Nat := 0
  said : Option (Nat × Nat) := none
deriving DecidableEq, Repr

/-- A cell that the re-sequencer holds, and the ns at which it came (R267, R268). -/
structure HeldCell where
  cell : FCell := {}
  came : Nat := 0
deriving DecidableEq, Repr

/-- A re-sequencer context (R267 to R271): EXPECT, whether it is synchronised, early cells, cells delivered and not yet
taken by the queue manager, whether it skips to the next SOP, and the ns at which it last asked for a SYNC. -/
structure Reseq where
  expect : Nat := 0
  synced : Bool := false
  held : List HeldCell := []
  delivered : List FCell := []
  skipping : Bool := false
  asked : Option Nat := none
deriving DecidableEq, Repr

/-- The fabric side beside its registers. -/
structure FabricSt where
  lanes : NMap FabLane := []
  /-- transmit staging of each engine (R263) -/
  staging : NMap (List FCell) := []
  /-- the next SEQ of each stream, by engine × 2,048 + destination -/
  seqs : NMap Nat := []
  /-- streams whose SYNC has been sent (R271) -/
  synced : List Nat := []
  contexts : NMap Reseq := []
  /-- control messages waiting, by destination, each with the ns at which it came (R266) -/
  control : NMap (List (Nat × Nat)) := []
  /-- the ns from which the head cell of an engine's staging has had no reaching lane (R264) -/
  stranded : NMap Nat := []
  /-- the engine served last by the spray stage (R264) -/
  lastEngine : Nat := 7
  /-- cells of lanes that left UP before they were sent, to be sprayed again (R262) -/
  again : List LaneCell := []
deriving DecidableEq, Repr

/-- The data plane of the table die. `skew` is by how much its follower copy of network time is ahead of the master since the last
correction, in units of 10⁻¹² ns (R34). -/
structure TdSt where
  store : StoreSt := {}
  sched : SchedSt := {}
  fab : FabricSt := {}
  skew : Int := 0
deriving DecidableEq, Repr

end Sys2Proof.Machine
end

