-- ==== Sys2Proof/Machine/TypesCmd.lean ====
section
/-! DEFINITION. The operand forms of the commands of the data plane, the line, the fabric and the memories: what arrives, and what a
reader meets. -/

namespace Sys2Proof.Machine

/-- The reference clocks of R502: the line's serve SDS0 to SDS3 and SDS4 to SDS7, the fabric's SDS8 to SDS11 with SDS20, SDS12 to
SDS15, and SDS16 to SDS19 (R501). -/
inductive RefClk where
  | fd
  | td
  | line (k : BitVec 1)
  | fab (k : Fin 3)
  | d5
  | time
deriving DecidableEq, Repr

/-- How a cell arrives on a lane: whether its LINK_CRC holds, its CREDIT_RET, and for a CONTROL cell how many messages with a
reserved code it carries (R247, R248, R272). -/
structure CellRx where
  lane : Nat
  crcOk : Bool
  ret : Nat
  badMsgs : Nat
deriving DecidableEq, Repr

/-- A codeword on its way to a lane (R245): its 5,140 message bits as they were sent, the first bit the most significant, and by
what its symbols differ on arrival, symbol 0 sent first. -/
structure Codeword where
  msg : BitVec 5140
  errs : List (Fin 544 × BitVec 10)
deriving DecidableEq, Repr

/-- How an attempt to train a lane ends (R253, R254): with codeword lock, with the lock still to come, or without success. -/
inductive Trained where
  | locked
  | waits
  | failed
deriving DecidableEq, Repr

/-- What a HELLO says (R257). -/
structure Hello where
  version : Nat
  role : Nat
  id : Nat
  plane : Nat
  port : Nat
  mask : Nat
  retrain : Bool
  credits : Nat
deriving DecidableEq, Repr

/-- The overhead of a FlexE PHY as one overhead frame brings it (R292 to R296): whether the signature was found, whether the
OMF indication was consistent (present at a multiframe's end), the group and PHY numbers, the PHY map as a set of numbers,
RPF, the C bit, client IDs of slots, the group's measured skew in ns, and what FEC and the overhead CRC met. -/
structure FlexeOh where
  found : Bool
  multiframe : Option Bool
  groupNum : Nat
  phyNum : Nat
  phyMap : List Nat
  rpf : Bool
  c : Bool
  ids : List (Nat × Nat)
  skew : Nat
  corr : Nat
  uncorr : Nat
  ohCrc : Nat
deriving DecidableEq, Repr

/-- What a poll of a cage's expander and module brings (R307). -/
structure CagePoll where
  present : Bool
  int : Bool
  busOk : Bool
  rev : Nat
  /-- the advertised applications from ApSel 1 on: the mode that the host interface matches (a MODE code of R282, or 0x20 and an OTN
  TYPE) and the host lane count -/
  apps : List (Nat × Nat)
  fault : Bool
deriving DecidableEq, Repr

/-- An object that holds defects (R305), or a lane that contains them. MAC ports, contexts and tributaries by their device
numbers, FlexE PHYs and clients by group and index. -/
inductive LineObj where
  | lane (n l : Nat)
  | mac (k : Nat)
  | phy (g i : Nat)
  | group (g : Nat)
  | client (g c : Nat)
  | otn (c : Nat)
  | trib (c : Nat)
deriving DecidableEq, Repr

/-- The tributary overhead of an OTUCn's ODUflex in a frame: PM STAT and BDI, the received and the computed BIP-8, BEI, and
whether the MSI is one ODUflex in every slot (R305). -/
structure TribOh where
  stat : Nat
  bdi : Bool
  rxBip : Nat
  calcBip : Nat
  bei : Nat
  msiOk : Bool
deriving DecidableEq, Repr

/-- The overhead of a frame (R300 to R302): SM and PM BIP-8 as received and computed, BEI/BIAE, IAE and BDI, PM STAT, the PT
if the frame carries it, a byte of each trail trace, and what FEC met. -/
structure OtnOh where
  smRx : Nat
  smCalc : Nat
  smBei : Nat
  iae : Bool
  smBdi : Bool
  pmRx : Nat
  pmCalc : Nat
  pmBei : Nat
  pmBdi : Bool
  stat : Nat
  pt : Option Nat
  smTti : Byte
  pmTti : Byte
  corr : Nat
  uncorr : Nat
  trib : Option TribOh
deriving DecidableEq, Repr

/-- A frame period of an aligned stream: the positions at which the pattern is found, MFAS, the logical lane that the stream's marker
names and the delay in ns at which it arrives, and the overhead if this stream brings it (R298, R299). -/
structure OtnFrame where
  stream : Nat
  hits : List Nat
  mfas : Nat
  marker : Nat
  delay : Nat
  oh : Option OtnOh
deriving DecidableEq, Repr

/-- What a port's PCS and FEC have met in the codewords that a frame touches: corrected and uncorrectable codewords, corrected symbols,
BIP violations (R284, R285). -/
structure FecSeen where
  corrCw : Nat
  uncorrCw : Nat
  corrSym : Nat
  bip : Nat
deriving DecidableEq, Repr

/-- A GFP header as it is met (R304): good, corrected, or uncorrectable, and what follows it. -/
inductive GfpFrame where
  | idle
  | ethernet (bytes : List Byte) (fcsOk : Bool)
  | other
deriving DecidableEq, Repr

/-- What the scrub of a row finds (R172): the row matches its copy, a rewrite mends it, or it has a hard fault. -/
inductive ScrubSeen where
  | clean
  | soft
  | hard
deriving DecidableEq, Repr

/-- What a scrub finds: the word, counted from START_ADDR, and whether its error is uncorrectable (R330). -/
structure ScrubWord where
  word : Nat
  uncorr : Bool
deriving DecidableEq, Repr

/-- When the reads of one reading of a block fell about its last write: all before it, all after it, or across it (R145). -/
inductive WalkAt where
  | before
  | after
  | spans
deriving DecidableEq, Repr

/-- Differences that have come about in the words of a block since they were last read: word and difference. -/
abbrev Upsets := List (Nat × TWord)


/-- A link error on the way to a component: a write CRC error or a CA parity error, retried once (R348). -/
structure LinkErr where
  chan : Nat
  parity : Bool
deriving DecidableEq, Repr

/-- What a training shows when it ends (R354). -/
structure D5Train where
  pass : Bool
  attempts : BitVec 8
  wrMargin : BitVec 8
  rdMargin : BitVec 8
  step : BitVec 4
deriving DecidableEq, Repr

/-- A read on BAR0 or by an island agent, or on BAR4, of so many bytes (R12, R399, R442). -/
inductive ReadAccess where
  | bar0 (src : Source) (addr : BitVec 26) (len : Fin 4097)
  | bar4 (offset : BitVec 16) (len : Fin 4097)
deriving DecidableEq, Repr

/-- The fatal errors that the data plane detects of itself (R32, R364, R502). -/
inductive FatalCode where
  | bridgeFailed
  | pairLost
  | corePll
deriving DecidableEq, Repr

/-- An object of the line that claims lanes, with a register that holds its ENABLE in bit 31 (R283). -/
inductive OwnerReg where
  | mac (n : Fin 8) (k : Fin 16)
  | phy (g i : Fin 8)
  | otn (c : Fin 64)
deriving DecidableEq, Repr

/-- A cascade HELLO, or a message of a reserved TYPE, 0xB to 0xF (R384). -/
inductive HelloMsg where
  | hello (eligible master paused : Bool) (seen : BitVec 4)
  | reserved (k : Fin 5)
deriving DecidableEq, Repr

/-- The registers of a performance counter whose write programs it anew (R439). -/
inductive PmcReg where
  | cfg
  | inst
  | thresh
deriving DecidableEq, Repr

end Sys2Proof.Machine
end

