-- ==== Sys2Proof/Syntax.lean ====
section
/-! DEFINITION. The commands that the block takes: one constructor for each row of the opcode table, with its operands. -/

namespace Sys2Proof

open Machine

/-- A command (R8 to R513): what a bus, a wire, a pin, the board or a unit of the device brings about next. Those with operands
come first. -/
inductive Instr where
  /-- `REGISTER_WRITE` (R8) -/
  | registerWrite (x : Access)
  /-- `LO_HI_READ` (R12) -/
  | loHiRead (x : ReadAccess)
  /-- `LOCK_KEY_WRITE` (R404) -/
  | lockKeyWrite (w : RegWrite) (p : BitVec 10)
  /-- `PAGE_SOFT_RESET` (R403) -/
  | pageSoftReset (w : RegWrite) (p : BitVec 10)
  /-- `PAGE_SOFT_RESET_END` (R403) -/
  | pageSoftResetEnd (p : BitVec 10)
  /-- `ERR_CLR` (R405) -/
  | errClr (w : RegWrite) (p : BitVec 10)
  /-- `INT_FORCE` (R406) -/
  | intForce (w : RegWrite) (p : BitVec 10)
  /-- `BOOT` (R41) -/
  | boot (w : RegWrite) (same : Bool)
  /-- `SPORE` (R41) -/
  | spore (w : RegWrite) (same : Bool)
  /-- `MAIN_OFF` (R41) -/
  | mainOff (w : RegWrite) (same : Bool)
  /-- `WARM_RESET` (R484) -/
  | warmReset (w : RegWrite) (same : Bool)
  /-- `QUIESCENT` (R42) -/
  | quiescent (w : RegWrite) (same : Bool)
  /-- `FORWARDING` (R41) -/
  | forwarding (w : RegWrite) (same : Bool)
  /-- `LOW_POWER_HOLD` (R41) -/
  | lowPowerHold (w : RegWrite) (same : Bool)
  /-- `SORUS_RESTART` (R470) -/
  | sorusRestart (w : RegWrite) (same : Bool)
  /-- `FAULT_HOLD` (R41) -/
  | faultHold (w : RegWrite) (same : Bool)
  /-- `ISLAND_POWER_ON_RESET` (R41) -/
  | islandPowerOnReset (bootAuto : Bool) (sporeN : Bool)
  /-- `VAUX_IN_LOSS` (R499) -/
  | vauxInLoss (torn : Torn)
  /-- `MAIN_RST_N_RELEASE` (R504) -/
  | mainRstNRelease (bootAuto : Bool) (sporeN : Bool)
  /-- `LOADER_CHECK_RESULT` (R455) -/
  | loaderCheckResult (sigOk : Bool)
  /-- `FIRMWARE_START` (R455) -/
  | firmwareStart (sigA : Bool) (sigB : Bool)
  /-- `BRING_UP_COMPLETE` (R41) -/
  | bringUpComplete (half : Bool) (faults : List (Nat × Nat)) (trained : Vector D5Train 17)
  /-- `BRING_UP_FAILURE` (R41) -/
  | bringUpFailure (kind : Fin 3)
  /-- `FATAL_ERROR` (R41) -/
  | fatalError (code : FatalCode)
  /-- `KICK` (R446) -/
  | kick (w : RegWrite)
  /-- `BRIDGE_SLOT` (R25) -/
  | bridgeSlot (d : Fin 2) (g : Fin 32) (pick : Nat) (seen : Seen)
  /-- `BRIDGE_CHUNK_ARRIVE` (R24) -/
  | bridgeChunkArrive (d : Fin 2) (g : Fin 32) (flips : List (Nat × Byte))
  /-- `BRIDGE_CREDIT_RETURN` (R23) -/
  | bridgeCreditReturn (d : Fin 2) (g : Fin 32)
  /-- `CHUNK_REPLAY` (R30) -/
  | chunkReplay (d : Fin 2) (g : Fin 32)
  /-- `WIDTH_REQ` (R33) -/
  | widthReq (w : RegWrite)
  /-- `FULL_WIDTH_RETURN` (R33) -/
  | fullWidthReturn (passed : Bool)
  /-- `DRIFT_CLEAR` (R29) -/
  | driftClear (w : RegWrite)
  /-- `TICK` (R35) -/
  | tick (drift : Option (BitVec 5))
  /-- `FRAME_RECEIVE` (R92) -/
  | frameReceive (o : LineObj) (bytes : List Byte) (fcsOk : Bool) (fec : FecSeen)
  /-- `PACKET_READY` (R91) -/
  | packetReady (p : Fin 256)
  /-- `FROND_ADMISSION` (R54) -/
  | frondAdmission (f : Fin 16) (seen : AdmitSeen)
  /-- `PARSER_EXIT` (R102) -/
  | parserExit (f : Fin 16)
  /-- `HAND_OFF` (R49) -/
  | handOff (f : Fin 16) (wire : Fin 4) (cells : List Seen) (acc : AccSeen)
  /-- `RECIRC_STORE` (R88) -/
  | recircStore (k : Fin 8)
  /-- `FRD_CAL_COMMIT` (R57) -/
  | frdCalCommit (w : RegWrite) (f : Fin 16)
  /-- `FRD_CAL_CHECK` (R56) -/
  | frdCalCheck (f : Fin 16)
  /-- `PROG_LOAD_START` (R76) -/
  | progLoadStart (w : RegWrite)
  /-- `PROG_LOAD_ABORT` (R76) -/
  | progLoadAbort (w : RegWrite)
  /-- `PROG_ACTIVATE` (R37) -/
  | progActivate (w : RegWrite)
  /-- `RANGE_COMMIT` (R110) -/
  | rangeCommit (w : RegWrite)
  /-- `STAGE_WRITE` (R93) -/
  | stageWrite (w : RegWrite) (p : Fin 256)
  /-- `PAY_COMMIT` (R116) -/
  | payCommit (w : RegWrite)
  /-- `COPY` (R117) -/
  | copy (w : RegWrite)
  /-- `PAT_READ` (R117) -/
  | patRead (w : RegWrite)
  /-- `PAT_WRITE` (R117) -/
  | patWrite (w : RegWrite)
  /-- `PART_COMMIT` (R120) -/
  | partCommit (w : RegWrite)
  /-- `NOP` (R136) -/
  | nop (w : RegWrite)
  /-- `EM_INSERT` (R131) -/
  | emInsert (w : RegWrite)
  /-- `EM_UPDATE` (R132) -/
  | emUpdate (w : RegWrite)
  /-- `EM_DELETE` (R132) -/
  | emDelete (w : RegWrite)
  /-- `EM_READ` (R136) -/
  | emRead (w : RegWrite)
  /-- `ROUTE_ADD` (R127) -/
  | routeAdd (w : RegWrite)
  /-- `ROUTE_DELETE` (R132) -/
  | routeDelete (w : RegWrite)
  /-- `ROUTE_READ` (R136) -/
  | routeRead (w : RegWrite)
  /-- `DIRECT_WRITE` (R136) -/
  | directWrite (w : RegWrite)
  /-- `DIRECT_READ` (R136) -/
  | directRead (w : RegWrite)
  /-- `TABLE_CLEAR` (R136) -/
  | tableClear (w : RegWrite)
  /-- `TABLE_STATS` (R136) -/
  | tableStats (w : RegWrite)
  /-- `AGING_PASS` (R142) -/
  | agingPass (n : Fin 8)
  /-- `AGING_REMOVAL` (R143) -/
  | agingRemoval (hit : Bool)
  /-- `SHADOW_WALK` (R145) -/
  | shadowWalk (first second third fourth : WalkAt) (upsets : Upsets)
  /-- `SHADOW_REREAD` (R146) -/
  | shadowReread (upsets : Upsets)
  /-- `REBASE` (R144) -/
  | rebase (w : RegWrite)
  /-- `MISMATCH_VALID_CLEAR` (R146) -/
  | mismatchValidClear (w : RegWrite)
  /-- `TBL_LIMIT_WRITE` (R148) -/
  | tblLimitWrite (w : RegWrite) (n : Fin 8)
  /-- `TBL_MODE_WRITE` (R148) -/
  | tblModeWrite (w : RegWrite) (n : Fin 8)
  /-- `TCAM_NOP` (R175) -/
  | tcamNop (w : RegWrite)
  /-- `INSERT` (R162) -/
  | insert (w : RegWrite)
  /-- `UPDATE` (R165) -/
  | update (w : RegWrite)
  /-- `DELETE` (R175) -/
  | delete (w : RegWrite)
  /-- `READ` (R175) -/
  | read (w : RegWrite)
  /-- `TCAM_TABLE_CLEAR` (R175) -/
  | tcamTableClear (w : RegWrite)
  /-- `TCAM_TABLE_STATS` (R175) -/
  | tcamTableStats (w : RegWrite)
  /-- `GROUP_ABANDON` (R169) -/
  | groupAbandon (w : RegWrite)
  /-- `COMMIT_CLEANUP_END` (R168) -/
  | commitCleanupEnd (mask : BitVec 16)
  /-- `START` (R170) -/
  | start (w : RegWrite)
  /-- `NEXT` (R170) -/
  | next (w : RegWrite) (seen : TcSeen)
  /-- `STOP` (R170) -/
  | stop (w : RegWrite)
  /-- `TCAM_SCRUB_PASS` (R172) -/
  | tcamScrubPass (found : List (Nat × Nat × ScrubSeen))
  /-- `TCAM_ROW_SCRUB` (R159) -/
  | tcamRowScrub (seen : ScrubSeen)
  /-- `CELL_ARRIVAL` (R183) -/
  | cellArrival (stream : Fin 16416) (seen : Seen)
  /-- `SPILL_WRITE` (R189) -/
  | spillWrite (q : BitVec 20) (seens : List Seen)
  /-- `SPILL_WRITE_COMPLETE` (R189) -/
  | spillWriteComplete (q : BitVec 20)
  /-- `PREFETCH_REQUEST` (R190) -/
  | prefetchRequest (q : BitVec 20)
  /-- `PREFETCH_READ_COMPLETE` (R190) -/
  | prefetchReadComplete (q : BitVec 20) (seens : List Seen)
  /-- `PROF_READ` (R215) -/
  | profRead (w : RegWrite)
  /-- `PROF_WRITE` (R215) -/
  | profWrite (w : RegWrite)
  /-- `CLEAR_WM` (R204) -/
  | clearWm (w : RegWrite)
  /-- `CLEAR_WRAP` (R215) -/
  | clearWrap (w : RegWrite)
  /-- `QSPLIT_WRITE` (R177) -/
  | qsplitWrite (w : RegWrite)
  /-- `POOL_LIMIT_WRITE` (R186) -/
  | poolLimitWrite (w : RegWrite) (p : Fin 8)
  /-- `RAND_SEED_WRITE` (R202) -/
  | randSeedWrite (w : RegWrite)
  /-- `SCHEDULER_DECISION` (R222) -/
  | schedulerDecision (engine : Fin 16) (pick : Nat) (seens : List Seen)
  /-- `EGF_FIRST_WORD` (R209) -/
  | egfFirstWord (p : Fin 256)
  /-- `EGF_TRANSMIT_START` (R211) -/
  | egfTransmitStart (p : Fin 256)
  /-- `EGF_WORD_TRANSMIT` (R322) -/
  | egfWordTransmit (p : Fin 256) (flips : List (Nat × Byte))
  /-- `WORD_CREDIT_RETURN` (R209) -/
  | wordCreditReturn (p : Fin 256)
  /-- `EGF_SHARE_APPLY` (R208) -/
  | egfShareApply (p : Fin 256)
  /-- `SHP_CTL_COMMIT` (R230) -/
  | shpCtlCommit (w : RegWrite)
  /-- `SCH_READ` (R243) -/
  | schRead (w : RegWrite)
  /-- `SCH_WRITE` (R243) -/
  | schWrite (w : RegWrite)
  /-- `SCH_COPY` (R230) -/
  | schCopy (w : RegWrite)
  /-- `SCH_CAL_COMMIT` (R232) -/
  | schCalCommit (w : RegWrite) (k : Fin 8)
  /-- `SCH_CAL_CHECK` (R232) -/
  | schCalCheck (k : Fin 8)
  /-- `REQUEST_REFRESH` (R238) -/
  | requestRefresh (q : BitVec 20)
  /-- `BALANCE_AGE` (R237) -/
  | balanceAge (q : BitVec 20)
  /-- `CONTEXT_EXPIRY` (R239) -/
  | contextExpiry (src : BitVec 11) (voq : BitVec 20)
  /-- `GRANT_ISSUE` (R240) -/
  | grantIssue (p : Fin 256)
  /-- `REQUEST` (R239) -/
  | request (rx : Option CellRx) (src : BitVec 11) (voq : BitVec 20) (port : BitVec 8) (cls : BitVec 3) (state : BitVec 2)
  /-- `GRANT` (R237) -/
  | grant (rx : Option CellRx) (voq : BitVec 20) (units : BitVec 7)
  /-- `SYNC` (R270) -/
  | sync (rx : Option CellRx) (src : BitVec 11) (engine : BitVec 3) (next : BitVec 16)
  /-- `SYNC_REQ` (R271) -/
  | syncReq (rx : Option CellRx) (src : BitVec 11) (engine : BitVec 3)
  /-- `SYNC_REQ_RESEND` (R270) -/
  | syncReqResend (ctx : BitVec 14)
  /-- `NOSYNC_EXPIRY` (R270) -/
  | nosyncExpiry (ctx : BitVec 14)
  /-- `PAUSE_EXPIRY` (R288) -/
  | pauseExpiry (k : Fin 128) (cls : Fin 9)
  /-- `MAC_CONTROL_FRAME` (R287) -/
  | macControlFrame (k : Fin 128) (bytes : List Byte)
  /-- `PFC_RESEND` (R289) -/
  | pfcResend (k : Fin 128) (cls : Fin 9)
  /-- `FAB_LANE_ENABLE` (R253) -/
  | fabLaneEnable (w : RegWrite) (l : Fin 96)
  /-- `FAB_LANE_DISABLE` (R253) -/
  | fabLaneDisable (w : RegWrite) (l : Fin 96)
  /-- `LANE_TRAINING_RESULT` (R255) -/
  | laneTrainingResult (l : Fin 96) (r : Trained)
  /-- `CODEWORD` (R246) -/
  | codeword (l : Fin 96) (cw : Codeword)
  /-- `HELLO` (R257) -/
  | hello (rx : CellRx) (h : Hello)
  /-- `HELLO_SEND` (R256) -/
  | helloSend (l : Fin 96)
  /-- `HELLO_TIMEOUT` (R253) -/
  | helloTimeout (l : Fin 96)
  /-- `PROBATION_END` (R253) -/
  | probationEnd (l : Fin 96)
  /-- `LANE_RETRY` (R253) -/
  | laneRetry (l : Fin 96)
  /-- `LANE_JOIN_SPRAY` (R262) -/
  | laneJoinSpray (l : Fin 96)
  /-- `REACH` (R260) -/
  | reach (rx : CellRx) (map : BitVec 2048)
  /-- `IDLE` (R258) -/
  | idle (rx : CellRx) (type : BitVec 4)
  /-- `DATA_CELL` (R267) -/
  | dataCell (rx : CellRx) (cell : FCell)
  /-- `RESEQ_TIMEOUT` (R268) -/
  | reseqTimeout (ctx : BitVec 14)
  /-- `UNREACH_DROP` (R264) -/
  | unreachDrop (j : Fin 8)
  /-- `CONTROL_CELL_SEND` (R266) -/
  | controlCellSend (dev : BitVec 11)
  /-- `PLANE_DRAIN` (R262) -/
  | planeDrain (w : RegWrite)
  /-- `DRAIN` (R262) -/
  | drain (w : RegWrite) (n : Fin 12)
  /-- `DRAINED` (R262) -/
  | drained (n : Fin 12)
  /-- `LANE_ENABLE` (R277) -/
  | laneEnable (w : RegWrite) (n : Fin 8) (l : Fin 8)
  /-- `LANE_DISABLE` (R277) -/
  | laneDisable (w : RegWrite) (n : Fin 8) (l : Fin 8)
  /-- `CDR_LOCK` (R277) -/
  | cdrLock (n : Fin 8) (l : Fin 8)
  /-- `LOCK_LOSS_RETRAIN` (R278) -/
  | lockLossRetrain (n : Fin 8) (l : Fin 8)
  /-- `RETRAIN` (R278) -/
  | retrain (w : RegWrite) (n : Fin 8) (l : Fin 8)
  /-- `RETRAIN_ATTEMPT_END` (R278) -/
  | retrainAttemptEnd (n : Fin 8) (l : Fin 8) (locked : Bool) (lost : Bool)
  /-- `DEFECT_CHANGE` (R305) -/
  | defectChange (o : LineObj) (bit : Fin 16) (on : Bool)
  /-- `PORT_UP` (R286) -/
  | portUp (o : LineObj)
  /-- `PORT_ENABLE` (R283) -/
  | portEnable (w : RegWrite) (o : OwnerReg)
  /-- `PORT_DISABLE` (R283) -/
  | portDisable (w : RegWrite) (o : OwnerReg)
  /-- `LPORT_MAP_WRITE` (R280) -/
  | lportMapWrite (w : RegWrite) (p : Fin 256)
  /-- `FLEXE_OVERHEAD` (R292) -/
  | flexeOverhead (g : Fin 8) (phy : Fin 8) (o : FlexeOh)
  /-- `SKEW_RECOVERY` (R293) -/
  | skewRecovery (g : Fin 8)
  /-- `CAL_REQ` (R295) -/
  | calReq (w : RegWrite) (g : Fin 8)
  /-- `CALENDAR_SWITCH` (R295) -/
  | calendarSwitch (g : Fin 8)
  /-- `CAL_TIMEOUT` (R295) -/
  | calTimeout (g : Fin 8)
  /-- `OTN_FRAME` (R298) -/
  | otnFrame (c : Fin 64) (f : OtnFrame)
  /-- `OTN_LOF` (R298) -/
  | otnLof (c : Fin 64) (multiframe : Bool)
  /-- `GFP_FRAME` (R304) -/
  | gfpFrame (c : Fin 64) (hec : Fin 3) (f : GfpFrame)
  /-- `CAGE_POLL` (R307) -/
  | cagePoll (n : Fin 8) (c : Fin 8) (q : CagePoll)
  /-- `CHECK_START` (R328) -/
  | checkStart (w : RegWrite) (e : Fin 16) (words : Nat) (found : List ScrubWord)
  /-- `CHECK_PAUSE` (R328) -/
  | checkPause (w : RegWrite) (e : Fin 16) (words : Nat) (found : List ScrubWord)
  /-- `CHECK_RESUME` (R328) -/
  | checkResume (w : RegWrite) (e : Fin 16) (words : Nat) (found : List ScrubWord)
  /-- `CHECK_ABORT` (R328) -/
  | checkAbort (w : RegWrite) (e : Fin 16) (words : Nat) (found : List ScrubWord)
  /-- `CHECK_RUN_END` (R329) -/
  | checkRunEnd (e : Fin 16) (found : List ScrubWord) (expBad : Bool)
  /-- `CHECK_PERIOD_RESTART` (R329) -/
  | checkPeriodRestart (e : Fin 16)
  /-- `DDR5_READ` (R345) -/
  | ddr5Read (a : BitVec 40) (parity : List (Fin 17)) (first : EccSeen) (second : EccSeen)
  /-- `DDR5_WRITE` (R347) -/
  | ddr5Write (a : BitVec 40) (bytes : Vector Byte 64) (errs : List LinkErr)
  /-- `REFRESH_SLOT` (R350) -/
  | refreshSlot (k : Fin 17)
  /-- `OWED_REFRESH_ISSUE` (R350) -/
  | owedRefreshIssue (k : Fin 17)
  /-- `MR4_READ` (R351) -/
  | mr4Read (k : Fin 17) (field : BitVec 3) (twice : Bool) (beyond : Bool)
  /-- `HOT_CROSSING` (R351) -/
  | hotCrossing (k : Fin 17)
  /-- `COOL_CROSSING` (R352) -/
  | coolCrossing (k : Fin 17)
  /-- `PERIODIC_CALIBRATION` (R355) -/
  | periodicCalibration (k : Fin 17) (inRange : Bool)
  /-- `ZQ_CALIBRATION` (R355) -/
  | zqCalibration (k : Fin 17)
  /-- `HOLD` (R356) -/
  | hold (k : Fin 17)
  /-- `HOLD_END` (R356) -/
  | holdEnd (k : Fin 17) (pass : Bool)
  /-- `REMIRROR_END` (R362) -/
  | remirrorEnd (l : Fin 16)
  /-- `CHANNEL_RETRAIN` (R357) -/
  | channelRetrain (w : RegWrite) (k : Fin 17)
  /-- `CHANNEL_TRAINING_END` (R354) -/
  | channelTrainingEnd (k : Fin 17) (t : D5Train)
  /-- `EVAC_START` (R358) -/
  | evacStart (w : RegWrite)
  /-- `EVAC_ABORT` (R361) -/
  | evacAbort (w : RegWrite)
  /-- `RETIRE` (R366) -/
  | retire (w : RegWrite)
  /-- `RESTORE` (R366) -/
  | restore (w : RegWrite)
  /-- `TOD_ARM` (R372) -/
  | todArm (w : RegWrite)
  /-- `SLEW` (R370) -/
  | slew (w : RegWrite)
  /-- `STEP` (R370) -/
  | step (w : RegWrite)
  /-- `FREQ_ADJ_WRITE` (R373) -/
  | freqAdjWrite (w : RegWrite)
  /-- `SERVO_EN_WRITE` (R373) -/
  | servoEnWrite (w : RegWrite)
  /-- `SQUELCH_LIFT` (R376) -/
  | squelchLift (k : Fin 2)
  /-- `POST` (R378) -/
  | post (w : RegWrite)
  /-- `CANCEL` (R381) -/
  | cancel (w : RegWrite)
  /-- `JOIN` (R385) -/
  | join (w : RegWrite)
  /-- `CASCADE_HELLO_SEND` (R384) -/
  | cascadeHelloSend (j : Fin 4)
  /-- `CASCADE_HELLO` (R384) -/
  | cascadeHello (j : Fin 4) (h : CHdr) (m : HelloMsg)
  /-- `CASCADE_RESEND` (R384) -/
  | cascadeResend (j : Fin 4)
  /-- `TIME_SYNC` (R388) -/
  | timeSync (j : Fin 4) (h : CHdr) (t1 : Stamp)
  /-- `DELAY_REQ` (R388) -/
  | delayReq (j : Fin 4) (h : CHdr) (t3 : Stamp)
  /-- `DELAY_RESP` (R388) -/
  | delayResp (j : Fin 4) (h : CHdr) (t4 : Stamp) (lseq : BitVec 16)
  /-- `PREPARE` (R390) -/
  | prepare (j : Fin 4) (h : CHdr) (stamp : Stamp) (type : BitVec 4) (operand : Word) (tag : BitVec 16)
  /-- `ACCEPT` (R390) -/
  | accept (j : Fin 4) (h : CHdr) (tag : BitVec 16)
  /-- `REFUSE` (R390) -/
  | refuse (j : Fin 4) (h : CHdr) (tag : BitVec 16) (result : BitVec 8)
  /-- `CONFIRM` (R390) -/
  | confirm (j : Fin 4) (h : CHdr) (tag : BitVec 16)
  /-- `ABANDON` (R390) -/
  | abandon (j : Fin 4) (h : CHdr) (tag : BitVec 16)
  /-- `COORD_DEADLINE` (R390) -/
  | coordDeadline (tag : BitVec 16)
  /-- `UNCONFIRMED` (R390) -/
  | unconfirmed (tag : BitVec 16)
  /-- `LEARN` (R391) -/
  | learn (j : Fin 4) (h : CHdr) (seq : Word) (key : BitVec 64) (value : BitVec 20) (table : BitVec 3) (age : Bool)
  /-- `TD_ACCESS_TIMEOUT` (R402) -/
  | tdAccessTimeout (src : Source) (page : BitVec 10) (off : BitVec 16) (write : Bool)
  /-- `MSIX_SEND` (R406) -/
  | msixSend (v : Fin 512) (fnMasked : Bool)
  /-- `VEC_ACK` (R406) -/
  | vecAck (w : RegWrite)
  /-- `WINDOW_READ` (R409) -/
  | windowRead (a : BitVec 30) (n : Fin 4097) (uncorr : Bool)
  /-- `WINDOW_WRITE` (R409) -/
  | windowWrite (a : BitVec 30) (bytes : List (Option Byte))
  /-- `RING_POST` (R412) -/
  | ringPost (w : RegWrite) (r : Fin 69)
  /-- `RING_ENABLE` (R413) -/
  | ringEnable (w : RegWrite) (r : Fin 69)
  /-- `RING_DISABLE` (R413) -/
  | ringDisable (w : RegWrite) (r : Fin 69)
  /-- `RING_COALESCE` (R414) -/
  | ringCoalesce (r : Fin 69)
  /-- `PCIE_PERST_N` (R505) -/
  | pciePerstN (level : Bool)
  /-- `COUNTER_SWEEP` (R426) -/
  | counterSweep (n : BitVec 20)
  /-- `COUNTER_ENABLE_WRITE` (R429) -/
  | counterEnableWrite (w : RegWrite)
  /-- `COUNTER_READ` (R430) -/
  | counterRead (w : RegWrite)
  /-- `COUNTER_CLEAR` (R431) -/
  | counterClear (w : RegWrite)
  /-- `COUNTER_CLEAR_WRAP` (R431) -/
  | counterClearWrap (w : RegWrite)
  /-- `SNAPSHOT_NOW` (R432) -/
  | snapshotNow (w : RegWrite)
  /-- `PMC_REPROGRAM` (R439) -/
  | pmcReprogram (w : RegWrite) (n : Fin 64) (reg : PmcReg)
  /-- `PMC_FREEZE` (R440) -/
  | pmcFreeze (w : RegWrite)
  /-- `UPD_START` (R457) -/
  | updStart (w : RegWrite)
  /-- `UPD_FINISH` (R457) -/
  | updFinish (w : RegWrite)
  /-- `UPD_ABORT` (R457) -/
  | updAbort (w : RegWrite)
  /-- `UPD_ACTIVATE` (R462) -/
  | updActivate (w : RegWrite)
  /-- `UPD_CONFIRM` (R464) -/
  | updConfirm (w : RegWrite)
  /-- `DISCOVER` (R460) -/
  | discover (t : Trasum) (badOp : Option (BitVec 7))
  /-- `TRASUM_READ` (R460) -/
  | trasumRead (t : Trasum)
  /-- `TRASUM_WRITE` (R460) -/
  | trasumWrite (t : Trasum)
  /-- `FW_START` (R460) -/
  | fwStart (t : Trasum)
  /-- `FW_BLOCK` (R460) -/
  | fwBlock (t : Trasum)
  /-- `FW_FINISH` (R460) -/
  | fwFinish (t : Trasum)
  /-- `FW_ABORT` (R460) -/
  | fwAbort (t : Trasum)
  /-- `LOG_READ` (R460) -/
  | logRead (t : Trasum)
  /-- `MAILBOX` (R460) -/
  | mailbox (t : Trasum)
  /-- `I2C_READ` (R472) -/
  | i2cRead (answer : BusAnswer)
  /-- `I2C_WRITE` (R472) -/
  | i2cWrite (answer : BusAnswer)
  /-- `MDIO_READ` (R472) -/
  | mdioRead (answer : BusAnswer)
  /-- `MDIO_WRITE` (R472) -/
  | mdioWrite (answer : BusAnswer)
  /-- `LTR_WRITE` (R478) -/
  | ltrWrite (w : RegWrite) (g : Fin 46)
  /-- `POWER_STATE_ENTRY` (R478) -/
  | powerStateEntry (g : Fin 46) (ready : Fin 5)
  /-- `DEMAND` (R479) -/
  | demand (g : Fin 46)
  /-- `WAKE_COMPLETE` (R479) -/
  | wakeComplete (g : Fin 46)
  /-- `SLICE_DRAIN` (R488) -/
  | sliceDrain (w : RegWrite) (k : Fin 8)
  /-- `SLICE_DRAIN_EXPIRY` (R488) -/
  | sliceDrainExpiry (k : Fin 8)
  /-- `SLICE_RELEASE` (R488) -/
  | sliceRelease (w : RegWrite) (k : Fin 8)
  /-- `SENSOR_SAMPLE` (R487) -/
  | sensorSample (temps : Vector (BitVec 16) 25)
  /-- `PEAK_CLR` (R486) -/
  | peakClr (w : RegWrite)
  /-- `REFCLK_LOSS` (R502) -/
  | refclkLoss (c : RefClk)
  /-- `FORWARDED_CLOCK_LOCK_LOSS` (R29) -/
  | forwardedClockLockLoss (g : Fin 32)
  /-- `CASCADE_LANE_STATE_CHANGE` (R383) -/
  | cascadeLaneStateChange (j : Fin 4) (lanes : BitVec 2)
  /-- `CASCADE_LINK_HELLO_LOSS` (R383) -/
  | cascadeLinkHelloLoss (j : Fin 4)
  /-- `SERVICE_PORT_LINK_CHANGE` (R459) -/
  | servicePortLinkChange (up : Bool)
  /-- `SETTINGS_SAVE` (R463) -/
  | settingsSave (records : List Byte)
  /-- `QUIESCENT_PORT_HOLD` (R42) -/
  | quiescentPortHold
  /-- `VAUX_IN_VALID` (R496) -/
  | vauxInValid
  /-- `MAIN_RST_N_ASSERT` (R503) -/
  | mainRstNAssert
  /-- `MAIN_RAILS_GOOD` (R498) -/
  | mainRailsGood
  /-- `MAIN_RAIL_TIMEOUT` (R41) -/
  | mainRailTimeout
  /-- `MAIN_RAIL_LOSS` (R44) -/
  | mainRailLoss
  /-- `TEMPERATURE_GATE_RELEASE` (R4) -/
  | temperatureGateRelease
  /-- `BOUNDARY_SCAN_ENTRY` (R508) -/
  | boundaryScanEntry
  /-- `DEGRADATION_CHANGE` (R40) -/
  | degradationChange
  /-- `FIRMWARE_READY` (R470) -/
  | firmwareReady
  /-- `HANDOVER_LATE` (R43) -/
  | handoverLate
  /-- `HANDOVER_CORE_RESET` (R470) -/
  | handoverCoreReset
  /-- `WATCHDOG_EXPIRY` (R446) -/
  | watchdogExpiry
  /-- `HALF_WIDTH_SWITCH` (R30) -/
  | halfWidthSwitch
  /-- `DRAIN_WINDOW_CLOSE` (R82) -/
  | drainWindowClose
  /-- `PROG_ACTIVATE_APPLY` (R37) -/
  | progActivateApply
  /-- `PROGRAM_BLOCK` (R419) -/
  | programBlock
  /-- `IMAGE_VERIFY` (R77) -/
  | imageVerify
  /-- `PROGRAM_SWAP` (R80) -/
  | programSwap
  /-- `RANGE_COMMIT_APPLY` (R110) -/
  | rangeCommitApply
  /-- `PAY_COMMIT_APPLY` (R116) -/
  | payCommitApply
  /-- `PART_COMMIT_APPLY` (R120) -/
  | partCommitApply
  /-- `TABLE_OP` (R135) -/
  | tableOp
  /-- `EM_MOVE_ZERO` (R132) -/
  | emMoveZero
  /-- `FREED_WORDS_RETURN` (R132) -/
  | freedWordsReturn
  /-- `LEARN_APPLY` (R138) -/
  | learnApply
  /-- `TCAM_OP` (R175) -/
  | tcamOp
  /-- `TCAM_COMMIT` (R168) -/
  | tcamCommit
  /-- `PROFILE_EXCHANGE` (R230) -/
  | profileExchange
  /-- `SHAPER_COMMIT` (R230) -/
  | shaperCommit
  /-- `SPRAY` (R265) -/
  | spray
  /-- `LINE_EVENT` (R306) -/
  | lineEvent
  /-- `SCRUB_WRITEBACK` (R330) -/
  | scrubWriteback
  /-- `EVAC_COPY_END` (R359) -/
  | evacCopyEnd
  /-- `EVAC_MAP_CHANGE` (R360) -/
  | evacMapChange
  /-- `PPS_EDGE` (R371) -/
  | ppsEdge
  /-- `TOD_TIMEOUT` (R372) -/
  | todTimeout
  /-- `HOLDOVER_ENTRY` (R373) -/
  | holdoverEntry
  /-- `COUNTER_SNAPSHOT` (R432) -/
  | counterSnapshot
  /-- `MARKER` (R377) -/
  | marker
  /-- `MASTER_ELECTION` (R385) -/
  | masterElection
  /-- `MASTER_LOSS` (R386) -/
  | masterLoss
  /-- `TIME_SYNC_SEND` (R388) -/
  | timeSyncSend
  /-- `INJECT_FETCH` (R418) -/
  | injectFetch
  /-- `FUNCTION_LEVEL_RESET` (R413) -/
  | functionLevelReset
  /-- `COUNTER_WRITE_BACK` (R427) -/
  | counterWriteBack
  /-- `SNAPSHOT_BUILD_END` (R433) -/
  | snapshotBuildEnd
  /-- `COUNTER_EXPORT` (R436) -/
  | counterExport
  /-- `FIRMWARE_BLOCK` (R458) -/
  | firmwareBlock
  /-- `MAILBOX_TIMEOUT` (R472) -/
  | mailboxTimeout
  /-- `SLICE_RELEASE_APPLY` (R488) -/
  | sliceReleaseApply
  /-- `SLEW_END` (R370) -/
  | slewEnd
deriving DecidableEq, Repr

end Sys2Proof
end

