-- ==== Sys2Proof/Decode.lean ====
section
/-! DEFINITION. The commands that a word spells by the table's bits: no row of the opcode table gives bits, so no word spells one. -/

namespace Sys2Proof

/-- The command of a word of so many bits, numbered as the table numbers them. -/
def decodeTableWord (_nbits _w : Nat) : Option Instr := none

end Sys2Proof
end

