-- ==== Sys2Proof/Machine/RegMap.lean ====
section
/-! DEFINITION. The register map: for every page of R398 its registers, their fields, access codes, reset values and
allowed codes, as the register tables of the chapters give them (R8 to R11). -/

namespace Sys2Proof.Machine

/-- The access codes of R8, and the two locked ones of R9. -/
inductive Acc where
  | ro
  | rw
  | rw1c
  | w1s
  | wo
  | ros
  | rwl
  | w1sl
deriving DecidableEq, Repr

/-- One field of a register: its bits, its access code, its reset value and the codes it allows, `lo` to `hi` (R11). -/
structure FieldDesc where
  msb : Nat
  lsb : Nat
  acc : Acc
  reset : Nat
  lo : Nat
  hi : Nat
deriving DecidableEq, Repr

/-- A register, or an array of registers: its offset, the strides and counts of its indices, whether it is a counter or capture
that a page's FREEZE holds (R403), and its fields. -/
structure RegDesc where
  off : Nat
  dims : List (Nat × Nat)
  ctr : Bool
  fields : List FieldDesc
deriving DecidableEq, Repr

/-- A field that allows every code and resets to 0. -/
def fd (msb lsb : Nat) (acc : Acc) : FieldDesc := ⟨msb, lsb, acc, 0, 0, 2 ^ (msb - lsb + 1) - 1⟩

/-- A field that allows every code, with its reset value. -/
def fr (msb lsb : Nat) (acc : Acc) (reset : Nat) : FieldDesc := ⟨msb, lsb, acc, reset, 0, 2 ^ (msb - lsb + 1) - 1⟩

/-- A field that allows the codes `lo` to `hi` only. -/
def fx (msb lsb : Nat) (acc : Acc) (reset lo hi : Nat) : FieldDesc := ⟨msb, lsb, acc, reset, lo, hi⟩

/-- The registers of a GLB page at offset 0x100 and above. -/
def regsGLB : List RegDesc := [
  -- CHIP_UID_LO (R448)
  ⟨0x100, [], false, [fd 31 0 .ro]⟩,
  -- CHIP_UID_HI (R448)
  ⟨0x104, [], false, [fd 31 0 .ro]⟩,
  -- PEND_SUMMARY (R407)
  ⟨0x400, [(4, 32)], false, [fd 31 0 .ro]⟩,
  -- EVT_CLASS_EN (R415)
  ⟨0x500, [], false, [fr 16 1 .rw 65535]⟩,
  -- PROG_LOAD_CTL (R76)
  ⟨0x800, [], false, [fd 2 2 .w1sl, fd 1 1 .w1s, fd 0 0 .w1sl]⟩,
  -- PROG_LOAD_LEN (R76)
  ⟨0x804, [], false, [fd 25 0 .rw]⟩,
  -- PROG_LOAD_STS (R77)
  ⟨0x808, [], false, [fd 31 16 .ro, fd 15 8 .ro, fd 4 4 .ro, fd 2 0 .ro]⟩,
  -- PROG_BANK_STS (R80)
  ⟨0x80c, [], false, [fd 8 8 .ro, fd 6 4 .ro, fd 2 0 .ro]⟩,
  -- PROG_IMAGE_ID0 (R80)
  ⟨0x810, [], false, [fd 31 0 .ro]⟩,
  -- PROG_IMAGE_ID1 (R80)
  ⟨0x814, [], false, [fd 31 0 .ro]⟩,
  -- PROG_DRAIN (R81)
  ⟨0x818, [], false, [fd 31 31 .rw1c, fd 23 0 .ro]⟩,
  -- PROG_DRAIN_LEFT (R82)
  ⟨0x81c, [], false, [fd 31 0 .ro]⟩,
  -- PROG_SWAP_STS (R80)
  ⟨0x820, [], false, [fd 31 16 .ro, fd 2 0 .ro]⟩,
  -- PROG_BREAK_EPOCH (R84)
  ⟨0x824, [], false, [fd 16 16 .ro, fd 15 0 .ro]⟩]

/-- The registers of a PCI page at offset 0x100 and above. -/
def regsPCI : List RegDesc := [
  -- LINK_STS (R394)
  ⟨0x100, [], false, [fd 9 4 .ro, fd 3 0 .ro]⟩,
  -- TD_TIMEOUT_CNT (R402)
  ⟨0x104, [], true, [fd 31 0 .ro]⟩,
  -- UNMAPPED_CNT (R400)
  ⟨0x108, [], true, [fd 31 0 .ro]⟩,
  -- VEC_ACK (R406)
  ⟨0x200, [], false, [fd 8 0 .wo]⟩,
  -- RING_BASE_LO (R410)
  ⟨0x400, [(32, 69)], false, [fd 31 6 .rw]⟩,
  -- RING_BASE_HI (R410)
  ⟨0x404, [(32, 69)], false, [fd 31 0 .rw]⟩,
  -- RING_CFG (R410)
  ⟨0x408, [(32, 69)], false, [fd 31 31 .rw, fd 30 30 .rw, fd 24 16 .rw, fx 4 0 .rw 4 4 16]⟩,
  -- RING_COAL (R414)
  ⟨0x40c, [(32, 69)], false, [fd 31 16 .rw, fd 15 0 .rw]⟩,
  -- RING_POST (R412)
  ⟨0x410, [(32, 69)], false, [fd 16 0 .wo]⟩,
  -- RING_CREDIT (R412)
  ⟨0x414, [(32, 69)], false, [fd 16 0 .ro]⟩,
  -- RING_HEAD (R412)
  ⟨0x418, [(32, 69)], false, [fd 15 0 .ro]⟩,
  -- RING_STS (R413)
  ⟨0x41c, [(32, 69)], false, [fd 31 16 .ro, fd 7 4 .ro, fd 1 1 .ro, fr 0 0 .ro 1]⟩,
  -- VEC_MAP (R406)
  ⟨0x1000, [(4, 1024)], false, [fd 31 31 .rw, fd 8 0 .rw]⟩,
  -- MSIX_ADDR_LO (R395)
  ⟨0x8000, [(16, 512)], false, [fd 31 2 .rw]⟩,
  -- MSIX_ADDR_HI (R395)
  ⟨0x8004, [(16, 512)], false, [fd 31 0 .rw]⟩,
  -- MSIX_DATA (R395)
  ⟨0x8008, [(16, 512)], false, [fd 31 0 .rw]⟩,
  -- MSIX_CTL (R395)
  ⟨0x800c, [(16, 512)], false, [fr 0 0 .rw 1]⟩,
  -- MSIX_PBA (R406)
  ⟨0xa000, [(4, 16)], false, [fd 31 0 .ro]⟩]

/-- The registers of a WIN page at offset 0x100 and above. -/
def regsWIN : List RegDesc := [
  -- APERTURE_BASE (R408)
  ⟨0x100, [], false, [fd 31 12 .rw, fd 2 0 .rw]⟩,
  -- STS (R409)
  ⟨0x104, [], false, [fd 1 1 .rw1c, fd 0 0 .rw1c]⟩,
  -- DISCARD_CNT (R409)
  ⟨0x108, [], true, [fd 31 0 .ro]⟩]

/-- The registers of a BRG page at offset 0x100 and above. -/
def regsBRG : List RegDesc := [
  -- CTL (R30)
  ⟨0x100, [], false, [fd 1 1 .w1s, fr 0 0 .rwl 1]⟩,
  -- STS (R29)
  ⟨0x104, [], false, [fd 15 11 .ro, fd 10 8 .ro, fd 4 4 .rw1c, fd 3 3 .ros, fd 2 2 .rw1c, fd 1 1 .ro, fd 0 0 .ro]⟩,
  -- ERR_LIMIT (R29)
  ⟨0x108, [], false, [fr 15 0 .rw 16]⟩]

/-- The registers of a TMB page at offset 0x100 and above. -/
def regsTMB : List RegDesc := [
  -- CTL (R370)
  ⟨0x100, [], false, [fd 4 4 .rw, fd 3 3 .w1s, fd 2 2 .w1sl, fd 0 0 .rw]⟩,
  -- STS (R373)
  ⟨0x104, [], false, [fd 6 6 .ro, fd 5 5 .ro, fd 4 4 .rw1c, fd 3 3 .ro, fr 2 0 .ro 4]⟩,
  -- NOW_NS (R369)
  ⟨0x108, [], false, [fd 31 0 .ro]⟩,
  -- NOW_SEC_LO (R369)
  ⟨0x10c, [], false, [fd 31 0 .ro]⟩,
  -- NOW_SEC_HI (R369)
  ⟨0x110, [], false, [fd 15 0 .ro]⟩,
  -- FREQ_ADJ (R368)
  ⟨0x114, [], false, [fd 31 0 .rw]⟩,
  -- STEP_NS (R370)
  ⟨0x118, [], false, [fd 29 0 .rw]⟩,
  -- STEP_SEC_LO (R370)
  ⟨0x11c, [], false, [fd 31 0 .rw]⟩,
  -- STEP_SEC_HI (R370)
  ⟨0x120, [], false, [fd 31 31 .rw, fd 15 0 .rw]⟩,
  -- SLEW_NS (R370)
  ⟨0x124, [], false, [fd 31 0 .rw]⟩,
  -- TOD_SEC_LO (R372)
  ⟨0x128, [], false, [fd 31 0 .rw]⟩,
  -- TOD_SEC_HI (R372)
  ⟨0x12c, [], false, [fd 15 0 .rw]⟩,
  -- PPS_DELAY (R371)
  ⟨0x130, [], false, [fd 23 0 .rw]⟩,
  -- PPS_CAP_NS (R371)
  ⟨0x134, [], true, [fd 31 0 .ro]⟩,
  -- PPS_CAP_SEC_LO (R371)
  ⟨0x138, [], true, [fd 31 0 .ro]⟩,
  -- PPS_CAP_SEC_HI (R371)
  ⟨0x13c, [], true, [fd 15 0 .ro]⟩,
  -- PPS_ERR (R371)
  ⟨0x140, [], false, [fd 31 0 .ro]⟩,
  -- SERVO (R374)
  ⟨0x144, [], false, [fr 31 16 .rw 10, fr 15 8 .rw 20, fr 4 0 .rw 3]⟩,
  -- PPS_OUT (R375)
  ⟨0x148, [], false, [fr 23 8 .rw 10, fd 0 0 .rw]⟩,
  -- SYNCE_CFG (R376)
  ⟨0x150, [(4, 2)], false, [fd 31 31 .rw, fd 22 20 .rw, fd 18 16 .rw, fd 15 0 .rw]⟩,
  -- SYNCE_STS (R376)
  ⟨0x158, [], false, [fd 1 1 .ro, fd 0 0 .ro]⟩,
  -- PPS_ACCEPTED_LO (R368)
  ⟨0x400, [], true, [fd 31 0 .ro]⟩,
  -- PPS_ACCEPTED_HI (R368)
  ⟨0x404, [], true, [fd 31 31 .rw1c, fd 15 0 .ro]⟩,
  -- PPS_REJECTED_LO (R368)
  ⟨0x408, [], true, [fd 31 0 .ro]⟩,
  -- PPS_REJECTED_HI (R368)
  ⟨0x40c, [], true, [fd 31 31 .rw1c, fd 15 0 .ro]⟩,
  -- STEPS_LO (R368)
  ⟨0x410, [], true, [fd 31 0 .ro]⟩,
  -- STEPS_HI (R368)
  ⟨0x414, [], true, [fd 31 31 .rw1c, fd 15 0 .ro]⟩,
  -- TICKS_LO (R368)
  ⟨0x418, [], true, [fd 31 0 .ro]⟩,
  -- TICKS_HI (R368)
  ⟨0x41c, [], true, [fd 31 31 .rw1c, fd 15 0 .ro]⟩]

/-- The registers of a ANC page at offset 0x100 and above. -/
def regsANC : List RegDesc := [
  -- POST_W (R378)
  ⟨0x100, [(4, 5)], false, [fd 31 0 .rw]⟩,
  -- CMD (R378)
  ⟨0x114, [], false, [fd 1 1 .w1s, fd 0 0 .w1sl]⟩,
  -- STS (R378)
  ⟨0x118, [], false, [fd 24 16 .ro, fd 7 0 .ro]⟩,
  -- NEXT_TAG (R377)
  ⟨0x11c, [], false, [fd 31 31 .ro, fd 15 0 .ro]⟩,
  -- EXECUTED_LO (R379)
  ⟨0x400, [], true, [fd 31 0 .ro]⟩,
  -- EXECUTED_HI (R379)
  ⟨0x404, [], true, [fd 31 31 .rw1c, fd 15 0 .ro]⟩,
  -- LATE_LO (R379)
  ⟨0x408, [], true, [fd 31 0 .ro]⟩,
  -- LATE_HI (R379)
  ⟨0x40c, [], true, [fd 31 31 .rw1c, fd 15 0 .ro]⟩,
  -- CANCELLED_LO (R379)
  ⟨0x410, [], true, [fd 31 0 .ro]⟩,
  -- CANCELLED_HI (R379)
  ⟨0x414, [], true, [fd 31 31 .rw1c, fd 15 0 .ro]⟩,
  -- ABANDONED_LO (R379)
  ⟨0x418, [], true, [fd 31 0 .ro]⟩,
  -- ABANDONED_HI (R379)
  ⟨0x41c, [], true, [fd 31 31 .rw1c, fd 15 0 .ro]⟩]

/-- The registers of a CSC page at offset 0x100 and above. -/
def regsCSC : List RegDesc := [
  -- CTL (R385)
  ⟨0x100, [], false, [fr 11 8 .rw 10, fd 3 3 .rwl, fd 2 2 .rwl, fd 1 0 .rwl]⟩,
  -- STS (R386)
  ⟨0x104, [], false, [fd 8 8 .rw1c, fd 7 7 .ro, fd 6 6 .ro, fd 5 2 .ro, fd 1 1 .ro]⟩,
  -- LINK_STS (R383)
  ⟨0x108, [(4, 4)], false, [fd 3 3 .ro, fd 2 1 .ro, fd 0 0 .ro]⟩,
  -- ASYM (R388)
  ⟨0x120, [(4, 4)], false, [fd 31 0 .rw]⟩,
  -- OFFSET (R388)
  ⟨0x130, [], false, [fd 31 0 .ro]⟩,
  -- LRN_SYNC (R391)
  ⟨0x134, [], false, [fd 7 0 .rw]⟩,
  -- SYNC_SEQ (R391)
  ⟨0x138, [], false, [fd 31 0 .ro]⟩,
  -- RETRANSMIT_LO (R384)
  ⟨0x400, [], true, [fd 31 0 .ro]⟩,
  -- RETRANSMIT_HI (R384)
  ⟨0x404, [], true, [fd 31 31 .rw1c, fd 15 0 .ro]⟩,
  -- LINK_DOWN_LO (R384)
  ⟨0x408, [], true, [fd 31 0 .ro]⟩,
  -- LINK_DOWN_HI (R384)
  ⟨0x40c, [], true, [fd 31 31 .rw1c, fd 15 0 .ro]⟩,
  -- BAD_MSG_LO (R384)
  ⟨0x410, [], true, [fd 31 0 .ro]⟩,
  -- BAD_MSG_HI (R384)
  ⟨0x414, [], true, [fd 31 31 .rw1c, fd 15 0 .ro]⟩,
  -- SYNC_GAP_LO (R384)
  ⟨0x418, [], true, [fd 31 0 .ro]⟩,
  -- SYNC_GAP_HI (R384)
  ⟨0x41c, [], true, [fd 31 31 .rw1c, fd 15 0 .ro]⟩,
  -- SYNC_FAIL_LO (R384)
  ⟨0x420, [], true, [fd 31 0 .ro]⟩,
  -- SYNC_FAIL_HI (R384)
  ⟨0x424, [], true, [fd 31 31 .rw1c, fd 15 0 .ro]⟩,
  -- REFRESH_LO (R384)
  ⟨0x428, [], true, [fd 31 0 .ro]⟩,
  -- REFRESH_HI (R384)
  ⟨0x42c, [], true, [fd 31 31 .rw1c, fd 15 0 .ro]⟩,
  -- ABANDONED_LO (R384)
  ⟨0x430, [], true, [fd 31 0 .ro]⟩,
  -- ABANDONED_HI (R384)
  ⟨0x434, [], true, [fd 31 31 .rw1c, fd 15 0 .ro]⟩]

/-- The registers of a CHK page at offset 0x100 and above. -/
def regsCHK : List RegDesc := [
  -- CTX_CTL (R328)
  ⟨0x200, [(64, 16)], false, [fd 31 16 .rw, fx 13 11 .rw 0 0 4, fd 10 10 .rw, fx 9 8 .rw 0 0 2, fx 6 4 .rw 1 0 2, fd 3 3 .w1s, fd 2 2 .w1s, fd 1 1 .w1s, fd 0 0 .w1s]⟩,
  -- CTX_STS (R329)
  ⟨0x204, [(64, 16)], false, [fd 31 16 .ro, fd 7 7 .ro, fd 6 6 .ro, fd 5 4 .ro, fd 2 0 .ro]⟩,
  -- START_ADDR_LO (R328)
  ⟨0x208, [(64, 16)], false, [fd 31 0 .rw]⟩,
  -- START_ADDR_HI (R328)
  ⟨0x20c, [(64, 16)], false, [fd 7 0 .rw]⟩,
  -- LENGTH_LO (R328)
  ⟨0x210, [(64, 16)], false, [fd 31 0 .rw]⟩,
  -- LENGTH_HI (R328)
  ⟨0x214, [(64, 16)], false, [fd 7 0 .rw]⟩,
  -- EXPECT_LO (R328)
  ⟨0x218, [(64, 16)], false, [fd 31 0 .rw]⟩,
  -- EXPECT_HI (R328)
  ⟨0x21c, [(64, 16)], false, [fd 31 0 .rw]⟩,
  -- LAST_LO (R329)
  ⟨0x220, [(64, 16)], false, [fd 31 0 .ro]⟩,
  -- LAST_HI (R329)
  ⟨0x224, [(64, 16)], false, [fd 31 0 .ro]⟩,
  -- RUNNING_LO (R328)
  ⟨0x228, [(64, 16)], false, [fd 31 0 .rw]⟩,
  -- RUNNING_HI (R328)
  ⟨0x22c, [(64, 16)], false, [fd 31 0 .rw]⟩,
  -- DONE_LO (R328)
  ⟨0x230, [(64, 16)], false, [fd 31 0 .rw]⟩,
  -- DONE_HI (R328)
  ⟨0x234, [(64, 16)], false, [fd 7 0 .rw]⟩,
  -- FAIL_ADDR_LO (R330)
  ⟨0x238, [(64, 16)], false, [fd 31 0 .ro]⟩,
  -- FAIL_ADDR_HI (R330)
  ⟨0x23c, [(64, 16)], false, [fd 7 0 .ro]⟩,
  -- CHECK_ONLY_LO (R318)
  ⟨0x800, [(64, 8)], true, [fd 31 0 .ro]⟩,
  -- CHECK_ONLY_HI (R318)
  ⟨0x804, [(64, 8)], true, [fd 31 31 .rw1c, fd 15 0 .ro]⟩,
  -- ECC_CORR_LO (R318)
  ⟨0x808, [(64, 8)], true, [fd 31 0 .ro]⟩,
  -- ECC_CORR_HI (R318)
  ⟨0x80c, [(64, 8)], true, [fd 31 31 .rw1c, fd 15 0 .ro]⟩,
  -- POISONED_LO (R318)
  ⟨0x810, [(64, 8)], true, [fd 31 0 .ro]⟩,
  -- POISONED_HI (R318)
  ⟨0x814, [(64, 8)], true, [fd 31 31 .rw1c, fd 15 0 .ro]⟩,
  -- MISPLACED_LO (R318)
  ⟨0x818, [(64, 8)], true, [fd 31 0 .ro]⟩,
  -- MISPLACED_HI (R318)
  ⟨0x81c, [(64, 8)], true, [fd 31 31 .rw1c, fd 15 0 .ro]⟩,
  -- ECC_UNCORR_LO (R318)
  ⟨0x820, [(64, 8)], true, [fd 31 0 .ro]⟩,
  -- ECC_UNCORR_HI (R318)
  ⟨0x824, [(64, 8)], true, [fd 31 31 .rw1c, fd 15 0 .ro]⟩,
  -- SRAM_UNCORR_LO (R325)
  ⟨0xa00, [], true, [fd 31 0 .ro]⟩,
  -- SRAM_UNCORR_HI (R325)
  ⟨0xa04, [], true, [fd 31 31 .rw1c, fd 15 0 .ro]⟩,
  -- FCS_BAD_LO (R316)
  ⟨0x1000, [(8, 256)], true, [fd 31 0 .ro]⟩,
  -- FCS_BAD_HI (R316)
  ⟨0x1004, [(8, 256)], true, [fd 31 31 .rw1c, fd 15 0 .ro]⟩]

/-- The registers of a PMC page at offset 0x100 and above. -/
def regsPMC : List RegDesc := [
  -- CTL (R440)
  ⟨0x100, [], false, [fd 0 0 .rw]⟩,
  -- CFG (R437)
  ⟨0x200, [(32, 64)], false, [fd 31 31 .rw, fd 30 30 .rw, fd 29 28 .rw, fd 8 8 .rw, fx 7 0 .rw 0 0 15]⟩,
  -- INST (R437)
  ⟨0x204, [(32, 64)], false, [fd 19 0 .rw]⟩,
  -- THRESH (R437)
  ⟨0x208, [(32, 64)], false, [fd 31 0 .rw]⟩,
  -- CNT_LO (R437)
  ⟨0x20c, [(32, 64)], true, [fd 31 0 .ro]⟩,
  -- CNT_HI (R437)
  ⟨0x210, [(32, 64)], true, [fd 31 31 .rw1c, fd 15 0 .ro]⟩,
  -- SNAP_LO (R435)
  ⟨0x214, [(32, 64)], true, [fd 31 0 .ro]⟩,
  -- SNAP_HI (R435)
  ⟨0x218, [(32, 64)], false, [fd 31 31 .ro, fd 15 0 .ro]⟩]

/-- The registers of a FRD page at offset 0x100 and above. -/
def regsFRD : List RegDesc := [
  -- DRAIN_COUNT (R81)
  ⟨0x100, [], true, [fd 15 0 .ro]⟩,
  -- SWAP_GAP (R83)
  ⟨0x104, [], false, [fd 25 16 .ro, fd 9 0 .ro]⟩,
  -- LATENCY (R69)
  ⟨0x108, [], false, [fd 25 16 .ro, fd 9 0 .ro]⟩,
  -- CAL_CTL (R57)
  ⟨0x10c, [], false, [fd 1 1 .rw1c, fd 0 0 .w1s]⟩,
  -- ENTERED_LO (R81)
  ⟨0x140, [], true, [fd 31 0 .ro]⟩,
  -- ENTERED_HI (R81)
  ⟨0x144, [], true, [fd 15 0 .ro]⟩,
  -- BUBBLES_LO (R81)
  ⟨0x148, [], true, [fd 31 0 .ro]⟩,
  -- BUBBLES_HI (R81)
  ⟨0x14c, [], true, [fd 15 0 .ro]⟩,
  -- PROG_DROP_LO (R81)
  ⟨0x150, [], true, [fd 31 0 .ro]⟩,
  -- PROG_DROP_HI (R81)
  ⟨0x154, [], true, [fd 15 0 .ro]⟩,
  -- DISP_RESERVED_LO (R81)
  ⟨0x158, [], true, [fd 31 0 .ro]⟩,
  -- DISP_RESERVED_HI (R81)
  ⟨0x15c, [], true, [fd 15 0 .ro]⟩,
  -- EXPIRED_LO (R81)
  ⟨0x160, [], true, [fd 31 0 .ro]⟩,
  -- EXPIRED_HI (R81)
  ⟨0x164, [], true, [fd 15 0 .ro]⟩,
  -- RECIRC_LIMIT_LO (R81)
  ⟨0x168, [], true, [fd 31 0 .ro]⟩,
  -- RECIRC_LIMIT_HI (R81)
  ⟨0x16c, [], true, [fd 15 0 .ro]⟩,
  -- RECIRC_FULL_LO (R81)
  ⟨0x170, [], true, [fd 31 0 .ro]⟩,
  -- RECIRC_FULL_HI (R81)
  ⟨0x174, [], true, [fd 15 0 .ro]⟩,
  -- LAYOUT_DROP_LO (R81)
  ⟨0x178, [], true, [fd 31 0 .ro]⟩,
  -- LAYOUT_DROP_HI (R81)
  ⟨0x17c, [], true, [fd 15 0 .ro]⟩,
  -- CNT_WRAP (R443)
  ⟨0x180, [], false, [fd 7 0 .rw1c]⟩,
  -- CAL_SHADOW (R57)
  ⟨0x200, [(4, 64)], false, [fr 29 24 .rw 63, fr 21 16 .rw 63, fr 13 8 .rw 63, fr 5 0 .rw 63]⟩,
  -- CAL_ACTIVE (R57)
  ⟨0x300, [(4, 64)], false, [fr 29 24 .ro 63, fr 21 16 .ro 63, fr 13 8 .ro 63, fr 5 0 .ro 63]⟩]

/-- The registers of a PRS page at offset 0x100 and above. -/
def regsPRS : List RegDesc := [
  -- RANGE_CTL (R110)
  ⟨0x100, [], false, [fd 0 0 .w1s]⟩,
  -- MAL_ACTION (R107)
  ⟨0x200, [(4, 64)], false, [fd 28 24 .rw, fd 20 16 .rw, fx 9 8 .rw 0 0 2, fx 1 0 .rw 0 0 2]⟩,
  -- RANGE_SHADOW_LOHI (R109)
  ⟨0x400, [(8, 64)], false, [fd 31 16 .rw, fd 15 0 .rw]⟩,
  -- RANGE_SHADOW_SRC (R109)
  ⟨0x404, [(8, 64)], false, [fd 31 31 .rw, fd 1 0 .rw]⟩,
  -- RANGE_ACTIVE_LOHI (R109)
  ⟨0x600, [(8, 64)], false, [fd 31 16 .ro, fd 15 0 .ro]⟩,
  -- RANGE_ACTIVE_SRC (R109)
  ⟨0x604, [(8, 64)], false, [fd 31 31 .ro, fd 1 0 .ro]⟩,
  -- MAL_CNT_IN_LO (R108)
  ⟨0x800, [(8, 64)], true, [fd 31 0 .ro]⟩,
  -- MAL_CNT_IN_HI (R108)
  ⟨0x804, [(8, 64)], true, [fd 31 31 .rw1c, fd 15 0 .ro]⟩,
  -- MAL_CNT_EG_LO (R108)
  ⟨0xa00, [(8, 64)], true, [fd 31 0 .ro]⟩,
  -- MAL_CNT_EG_HI (R108)
  ⟨0xa04, [(8, 64)], true, [fd 31 31 .rw1c, fd 15 0 .ro]⟩,
  -- DEPTH_IN_HDR_LO (R105)
  ⟨0xc00, [], true, [fd 31 0 .ro]⟩,
  -- DEPTH_IN_HDR_HI (R105)
  ⟨0xc04, [], true, [fd 31 31 .rw1c, fd 15 0 .ro]⟩,
  -- DEPTH_IN_WIN_LO (R105)
  ⟨0xc08, [], true, [fd 31 0 .ro]⟩,
  -- DEPTH_IN_WIN_HI (R105)
  ⟨0xc0c, [], true, [fd 31 31 .rw1c, fd 15 0 .ro]⟩,
  -- DEPTH_EG_HDR_LO (R105)
  ⟨0xc10, [], true, [fd 31 0 .ro]⟩,
  -- DEPTH_EG_HDR_HI (R105)
  ⟨0xc14, [], true, [fd 31 31 .rw1c, fd 15 0 .ro]⟩,
  -- DEPTH_EG_WIN_LO (R105)
  ⟨0xc18, [], true, [fd 31 0 .ro]⟩,
  -- DEPTH_EG_WIN_HI (R105)
  ⟨0xc1c, [], true, [fd 31 31 .rw1c, fd 15 0 .ro]⟩,
  -- ADV_REFUSED_LO (R105)
  ⟨0xc20, [], true, [fd 31 0 .ro]⟩,
  -- ADV_REFUSED_HI (R105)
  ⟨0xc24, [], true, [fd 31 31 .rw1c, fd 15 0 .ro]⟩,
  -- STAGE (R93)
  ⟨0x1000, [(4, 256)], false, [fx 30 16 .rw 1536 64 16384, fx 8 0 .rw 12 0 384]⟩,
  -- STAGE_FULL_LO (R92)
  ⟨0x2000, [(24, 256)], true, [fd 31 0 .ro]⟩,
  -- STAGE_FULL_HI (R92)
  ⟨0x2004, [(24, 256)], true, [fd 31 31 .rw1c, fd 15 0 .ro]⟩,
  -- OVERSIZE_LO (R92)
  ⟨0x2008, [(24, 256)], true, [fd 31 0 .ro]⟩,
  -- OVERSIZE_HI (R92)
  ⟨0x200c, [(24, 256)], true, [fd 31 31 .rw1c, fd 15 0 .ro]⟩,
  -- BRIDGE_LIMIT_LO (R92)
  ⟨0x2010, [(24, 256)], true, [fd 31 0 .ro]⟩,
  -- BRIDGE_LIMIT_HI (R92)
  ⟨0x2014, [(24, 256)], true, [fd 31 31 .rw1c, fd 15 0 .ro]⟩]

/-- The registers of a PAY page at offset 0x100 and above. -/
def regsPAY : List RegDesc := [
  -- CTL (R116)
  ⟨0x100, [], false, [fr 3 3 .rw 1, fd 2 2 .ro, fd 1 1 .rw1c, fd 0 0 .w1s]⟩,
  -- SHADOW_BYTES (R116)
  ⟨0x104, [], false, [fd 17 0 .ro]⟩,
  -- PAT_INDEX (R117)
  ⟨0x108, [], false, [fd 12 0 .rw]⟩,
  -- PAT_CMD (R117)
  ⟨0x10c, [], false, [fd 2 2 .w1s, fd 1 1 .w1s, fd 0 0 .w1s]⟩,
  -- PAT_W0 (R117)
  ⟨0x110, [], false, [fd 31 24 .rw, fd 23 16 .rw, fd 15 15 .rw, fd 12 12 .rw, fd 10 8 .rw, fd 5 0 .rw]⟩,
  -- PAT_W (R117)
  ⟨0x114, [(4, 8)], false, [fd 31 0 .rw]⟩,
  -- SCANNED_LO (R114)
  ⟨0x140, [], true, [fd 31 0 .ro]⟩,
  -- SCANNED_HI (R114)
  ⟨0x144, [], true, [fd 31 31 .rw1c, fd 15 0 .ro]⟩,
  -- HITS_LO (R114)
  ⟨0x148, [], true, [fd 31 0 .ro]⟩,
  -- HITS_HI (R114)
  ⟨0x14c, [], true, [fd 31 31 .rw1c, fd 15 0 .ro]⟩,
  -- MULTIS_LO (R114)
  ⟨0x150, [], true, [fd 31 0 .ro]⟩,
  -- MULTIS_HI (R114)
  ⟨0x154, [], true, [fd 31 31 .rw1c, fd 15 0 .ro]⟩]

/-- The registers of a LKP page at offset 0x100 and above. -/
def regsLKP : List RegDesc := [
  -- PART_CTL (R120)
  ⟨0x100, [], false, [fd 1 1 .rw1c, fd 0 0 .w1sl]⟩,
  -- PART_SHADOW_0 (R120)
  ⟨0x140, [(4, 6)], false, [fr 31 0 .rw 1431655765]⟩,
  -- PART_SHADOW_6 (R120)
  ⟨0x158, [(4, 4)], false, [fr 31 0 .rw 2863311530]⟩,
  -- PART_SHADOW_10 (R120)
  ⟨0x168, [(4, 1)], false, [fd 31 0 .rw]⟩,
  -- PART_SHADOW_11 (R120)
  ⟨0x16c, [(4, 1)], false, [fr 31 0 .rw 4294967295]⟩,
  -- PART_ACTIVE_0 (R120)
  ⟨0x180, [(4, 6)], false, [fr 31 0 .ro 1431655765]⟩,
  -- PART_ACTIVE_6 (R120)
  ⟨0x198, [(4, 4)], false, [fr 31 0 .ro 2863311530]⟩,
  -- PART_ACTIVE_10 (R120)
  ⟨0x1a8, [(4, 1)], false, [fd 31 0 .ro]⟩,
  -- PART_ACTIVE_11 (R120)
  ⟨0x1ac, [(4, 1)], false, [fr 31 0 .ro 4294967295]⟩,
  -- OP_CTL (R135)
  ⟨0x200, [], false, [fd 31 31 .w1s, fd 23 16 .rw, fd 9 9 .rw, fd 8 8 .rw, fx 7 0 .rw 0 0 11]⟩,
  -- OP_TABLE (R136)
  ⟨0x204, [], false, [fd 15 0 .rw]⟩,
  -- OP_KEY (R136)
  ⟨0x208, [(4, 6)], false, [fd 31 0 .rw]⟩,
  -- OP_DATA (R136)
  ⟨0x220, [(4, 8)], false, [fd 31 0 .rw]⟩,
  -- OP_STS (R136)
  ⟨0x240, [], false, [fd 16 16 .ro, fd 15 8 .ro, fd 1 0 .ro]⟩]

/-- The registers of a LRN page at offset 0x100 and above. -/
def regsLRN : List RegDesc := [
  -- JOURNAL_BASE_LO (R141)
  ⟨0x100, [], false, [fd 31 12 .rw]⟩,
  -- JOURNAL_BASE_HI (R141)
  ⟨0x104, [], false, [fd 7 0 .rw]⟩,
  -- NOTICE_SEQ (R141)
  ⟨0x108, [], false, [fd 31 0 .ro]⟩,
  -- FIFO_LEVEL (R137)
  ⟨0x10c, [], false, [fd 14 0 .ro]⟩,
  -- TBL_CFG (R138)
  ⟨0x200, [(16, 8)], false, [fd 31 24 .rw, fx 17 16 .rw 0 0 2, fd 15 0 .rw]⟩,
  -- TBL_SRC (R137)
  ⟨0x204, [(16, 8)], false, [fd 13 9 .rw, fd 8 0 .rw]⟩,
  -- TBL_LIMIT (R148)
  ⟨0x208, [(16, 8)], false, [fx 21 0 .rw 2097152 0 2097152]⟩,
  -- TBL_AGE (R142)
  ⟨0x20c, [(16, 8)], false, [fd 31 31 .rw, fx 19 0 .rw 2400 8 1048575]⟩,
  -- TBL_FILL (R137)
  ⟨0x280, [(4, 8)], false, [fd 19 0 .rw]⟩,
  -- TBL_COUNT (R148)
  ⟨0x2c0, [(4, 8)], false, [fd 21 0 .ro]⟩,
  -- C_LEARNED_LO (R138)
  ⟨0x400, [(128, 8)], true, [fd 31 0 .ro]⟩,
  -- C_LEARNED_HI (R138)
  ⟨0x404, [(128, 8)], true, [fd 31 31 .rw1c, fd 15 0 .ro]⟩,
  -- C_MOVED_LO (R138)
  ⟨0x408, [(128, 8)], true, [fd 31 0 .ro]⟩,
  -- C_MOVED_HI (R138)
  ⟨0x40c, [(128, 8)], true, [fd 31 31 .rw1c, fd 15 0 .ro]⟩,
  -- C_MOVE_BLOCKED_LO (R138)
  ⟨0x410, [(128, 8)], true, [fd 31 0 .ro]⟩,
  -- C_MOVE_BLOCKED_HI (R138)
  ⟨0x414, [(128, 8)], true, [fd 31 31 .rw1c, fd 15 0 .ro]⟩,
  -- C_AGED_LO (R138)
  ⟨0x418, [(128, 8)], true, [fd 31 0 .ro]⟩,
  -- C_AGED_HI (R138)
  ⟨0x41c, [(128, 8)], true, [fd 31 31 .rw1c, fd 15 0 .ro]⟩,
  -- C_LIMIT_LO (R138)
  ⟨0x420, [(128, 8)], true, [fd 31 0 .ro]⟩,
  -- C_LIMIT_HI (R138)
  ⟨0x424, [(128, 8)], true, [fd 31 31 .rw1c, fd 15 0 .ro]⟩,
  -- C_NO_ROOM_LO (R138)
  ⟨0x428, [(128, 8)], true, [fd 31 0 .ro]⟩,
  -- C_NO_ROOM_HI (R138)
  ⟨0x42c, [(128, 8)], true, [fd 31 31 .rw1c, fd 15 0 .ro]⟩,
  -- C_DUP_LO (R138)
  ⟨0x430, [(128, 8)], true, [fd 31 0 .ro]⟩,
  -- C_DUP_HI (R138)
  ⟨0x434, [(128, 8)], true, [fd 31 31 .rw1c, fd 15 0 .ro]⟩,
  -- C_FIFO_FULL_LO (R138)
  ⟨0x438, [(128, 8)], true, [fd 31 0 .ro]⟩,
  -- C_FIFO_FULL_HI (R138)
  ⟨0x43c, [(128, 8)], true, [fd 31 31 .rw1c, fd 15 0 .ro]⟩,
  -- C_NOTICE_DROP_LO (R138)
  ⟨0x440, [(128, 8)], true, [fd 31 0 .ro]⟩,
  -- C_NOTICE_DROP_HI (R138)
  ⟨0x444, [(128, 8)], true, [fd 31 31 .rw1c, fd 15 0 .ro]⟩,
  -- C_FLAP_LO (R138)
  ⟨0x448, [(128, 8)], true, [fd 31 0 .ro]⟩,
  -- C_FLAP_HI (R138)
  ⟨0x44c, [(128, 8)], true, [fd 31 31 .rw1c, fd 15 0 .ro]⟩]

/-- The registers of a SHD page at offset 0x100 and above. -/
def regsSHD : List RegDesc := [
  -- CTL (R146)
  ⟨0x100, [], false, [fd 1 1 .rw, fd 0 0 .rw]⟩,
  -- WALK (R145)
  ⟨0x104, [], false, [fx 19 0 .rw 8000 8 1048575]⟩,
  -- AREA_BASE_LO (R144)
  ⟨0x108, [], false, [fd 31 12 .rw]⟩,
  -- AREA_BASE_HI (R144)
  ⟨0x10c, [], false, [fd 7 0 .rw]⟩,
  -- REBASE (R144)
  ⟨0x110, [], false, [fd 31 16 .wo, fd 15 0 .wo]⟩,
  -- REBASE_END (R144)
  ⟨0x114, [], false, [fd 15 0 .wo]⟩,
  -- TBL (R145)
  ⟨0x140, [(4, 16)], false, [fd 31 31 .rw, fd 16 16 .rw, fd 15 0 .rw]⟩,
  -- MISMATCH (R146)
  ⟨0x180, [], true, [fd 31 18 .ro, fd 17 16 .ro, fd 15 0 .ro]⟩,
  -- MISMATCH_VALID (R146)
  ⟨0x184, [], false, [fd 0 0 .rw1c]⟩,
  -- MISMATCH_CNT_LO (R145)
  ⟨0x200, [], true, [fd 31 0 .ro]⟩,
  -- MISMATCH_CNT_HI (R145)
  ⟨0x204, [], true, [fd 31 31 .rw1c, fd 15 0 .ro]⟩,
  -- DEFERRED_CNT_LO (R145)
  ⟨0x208, [], true, [fd 31 0 .ro]⟩,
  -- DEFERRED_CNT_HI (R145)
  ⟨0x20c, [], true, [fd 31 31 .rw1c, fd 15 0 .ro]⟩,
  -- REPAIRED_CNT_LO (R145)
  ⟨0x210, [], true, [fd 31 0 .ro]⟩,
  -- REPAIRED_CNT_HI (R145)
  ⟨0x214, [], true, [fd 31 31 .rw1c, fd 15 0 .ro]⟩]

/-- The registers of a TCM page at offset 0x100 and above. -/
def regsTCM : List RegDesc := [
  -- CTL (R172)
  ⟨0x100, [], false, [fr 1 1 .rw 1, fr 0 0 .rw 1]⟩,
  -- SCRUB (R172)
  ⟨0x104, [], false, [fx 15 0 .rw 80 8 65535]⟩,
  -- GROUP_STS (R168)
  ⟨0x108, [], false, [fd 31 16 .ro, fd 15 0 .ro]⟩,
  -- OP_CTL (R175)
  ⟨0x10c, [], false, [fd 31 31 .w1s, fd 17 14 .rw, fd 11 11 .rw, fd 10 10 .rw, fx 7 0 .rw 0 0 7]⟩,
  -- OP_TABLE (R175)
  ⟨0x110, [], false, [fd 15 0 .rw]⟩,
  -- OP_HANDLE (R175)
  ⟨0x114, [], false, [fd 19 0 .rw]⟩,
  -- OP_PRIO (R175)
  ⟨0x118, [], false, [fd 23 0 .rw]⟩,
  -- OP_ACTION (R175)
  ⟨0x11c, [], false, [fd 31 0 .rw]⟩,
  -- OP_STS (R175)
  ⟨0x120, [], false, [fd 15 8 .ro, fd 1 0 .ro]⟩,
  -- OP_LOC (R175)
  ⟨0x124, [], false, [fd 20 19 .ro, fd 18 6 .ro, fd 5 0 .ro]⟩,
  -- OP_KEY (R175)
  ⟨0x140, [(4, 20)], false, [fd 31 0 .rw]⟩,
  -- OP_MASK (R175)
  ⟨0x190, [(4, 20)], false, [fd 31 0 .rw]⟩,
  -- STEP_CTL (R170)
  ⟨0x200, [], false, [fd 2 2 .w1s, fd 1 1 .w1s, fd 0 0 .w1s]⟩,
  -- STEP_TABLE (R170)
  ⟨0x204, [], false, [fd 16 16 .rw, fd 15 0 .rw]⟩,
  -- STEP_STS (R170)
  ⟨0x208, [], false, [fd 3 3 .ro, fd 2 2 .ro, fd 1 1 .ro, fd 0 0 .ro]⟩,
  -- STEP_HANDLE (R170)
  ⟨0x20c, [], false, [fd 19 0 .ro]⟩,
  -- STEP_PRIO (R170)
  ⟨0x210, [], false, [fd 23 0 .ro]⟩,
  -- STEP_ACTION (R170)
  ⟨0x214, [], false, [fd 31 0 .ro]⟩,
  -- STEP_POS (R170)
  ⟨0x218, [], false, [fd 18 6 .ro, fd 5 0 .ro]⟩,
  -- STEP_KEY (R170)
  ⟨0x240, [(4, 20)], false, [fd 31 0 .rw]⟩,
  -- BANK_STS (R173)
  ⟨0x300, [(4, 40)], false, [fd 20 8 .ro, fd 7 7 .ro, fd 6 0 .ro]⟩,
  -- FALSE_HIT_CNT_LO (R159)
  ⟨0x400, [], true, [fd 31 0 .ro]⟩,
  -- FALSE_HIT_CNT_HI (R159)
  ⟨0x404, [], true, [fd 31 31 .rw1c, fd 15 0 .ro]⟩,
  -- COPY_ERR_CNT_LO (R159)
  ⟨0x408, [], true, [fd 31 0 .ro]⟩,
  -- COPY_ERR_CNT_HI (R159)
  ⟨0x40c, [], true, [fd 31 31 .rw1c, fd 15 0 .ro]⟩,
  -- SCRUB_FIX_CNT_LO (R159)
  ⟨0x410, [], true, [fd 31 0 .ro]⟩,
  -- SCRUB_FIX_CNT_HI (R159)
  ⟨0x414, [], true, [fd 31 31 .rw1c, fd 15 0 .ro]⟩,
  -- REPAIRED_CNT_LO (R159)
  ⟨0x418, [], true, [fd 31 0 .ro]⟩,
  -- REPAIRED_CNT_HI (R159)
  ⟨0x41c, [], true, [fd 31 31 .rw1c, fd 15 0 .ro]⟩,
  -- RETIRED_CNT_LO (R159)
  ⟨0x420, [], true, [fd 31 0 .ro]⟩,
  -- RETIRED_CNT_HI (R159)
  ⟨0x424, [], true, [fd 31 31 .rw1c, fd 15 0 .ro]⟩,
  -- STEP_RESTART_CNT_LO (R159)
  ⟨0x428, [], true, [fd 31 0 .ro]⟩,
  -- STEP_RESTART_CNT_HI (R159)
  ⟨0x42c, [], true, [fd 31 31 .rw1c, fd 15 0 .ro]⟩]

/-- The registers of a LIN page at offset 0x100 and above. -/
def regsLIN : List RegDesc := [
  -- LANE_CFG (R277)
  ⟨0x100, [(4, 8)], false, [fd 31 31 .rw, fd 8 8 .w1s, fd 6 6 .rw, fd 5 5 .rw, fd 4 4 .rw, fx 2 0 .rw 0 0 5]⟩,
  -- LANE_STS (R277)
  ⟨0x120, [(4, 8)], false, [fd 17 16 .ro, fd 15 8 .ro, fd 5 5 .ro, fd 4 4 .ro, fd 2 0 .ro]⟩,
  -- MAC_CFG (R283)
  ⟨0x200, [(32, 16)], false, [fd 31 31 .rw, fx 30 29 .rw 0 0 2, fx 28 24 .rw 0 0 16, fd 22 20 .rw, fd 19 18 .rw, fd 13 8 .rw, fd 2 0 .rw]⟩,
  -- MAC_PAUSE (R287)
  ⟨0x204, [(32, 16)], false, [fr 31 16 .rw 65535, fr 15 8 .rw 255, fd 7 5 .rw, fx 3 2 .rw 0 0 2, fx 1 0 .rw 0 0 2]⟩,
  -- MAC_PFC_THR (R289)
  ⟨0x208, [(32, 16)], false, [fr 31 16 .rw 64, fr 15 0 .rw 128]⟩,
  -- MAC_SA_LO (R287)
  ⟨0x20c, [(32, 16)], false, [fd 31 0 .rw]⟩,
  -- MAC_SA_HI (R287)
  ⟨0x210, [(32, 16)], false, [fd 15 0 .rw]⟩,
  -- MAC_DEF (R305)
  ⟨0x214, [(32, 16)], false, [fd 31 16 .ro, fd 15 0 .ro]⟩,
  -- MAC_STS (R286)
  ⟨0x218, [(32, 16)], false, [fd 23 16 .ro, fd 15 8 .ro, fd 2 2 .ro, fd 1 1 .ro, fd 0 0 .ro]⟩,
  -- LPORT_MAP (R280)
  ⟨0x400, [(4, 32)], false, [fd 23 18 .rw, fd 17 12 .rw, fd 10 8 .rw, fd 7 4 .rw, fd 1 0 .rw]⟩,
  -- LPORT_SPEED (R281)
  ⟨0x500, [(4, 32)], false, [fd 31 31 .ro, fd 8 0 .ro]⟩,
  -- CAGE_CFG (R307)
  ⟨0x600, [(4, 8)], false, [fd 31 31 .rw, fd 28 25 .rw, fd 24 22 .rw, fd 21 19 .rw, fd 18 12 .rw, fd 11 10 .rw, fd 9 3 .rw, fd 2 0 .rw]⟩,
  -- CAGE_STS (R307)
  ⟨0x620, [(4, 8)], false, [fd 31 24 .ro, fd 19 16 .ro, fd 11 8 .ro, fd 6 4 .ro, fd 1 1 .ro, fd 0 0 .ro]⟩,
  -- MAC_FEC_CORR_CW (R284)
  ⟨0x1000, [(32, 16)], true, [fd 31 0 .ro]⟩,
  -- MAC_FEC_UNCORR_CW (R284)
  ⟨0x1004, [(32, 16)], true, [fd 31 0 .ro]⟩,
  -- MAC_FEC_CORR_SYM (R284)
  ⟨0x1008, [(32, 16)], true, [fd 31 0 .ro]⟩,
  -- MAC_BIP (R284)
  ⟨0x100c, [(32, 16)], true, [fd 31 0 .ro]⟩,
  -- MAC_SAT (R443)
  ⟨0x1010, [(32, 16)], false, [fd 3 0 .rw1c]⟩,
  -- RX_PAUSE_LO (R287)
  ⟨0x2000, [(48, 16)], true, [fd 31 0 .ro]⟩,
  -- RX_PAUSE_HI (R287)
  ⟨0x2004, [(48, 16)], true, [fd 31 31 .rw1c, fd 15 0 .ro]⟩,
  -- RX_PFC_LO (R287)
  ⟨0x2008, [(48, 16)], true, [fd 31 0 .ro]⟩,
  -- RX_PFC_HI (R287)
  ⟨0x200c, [(48, 16)], true, [fd 31 31 .rw1c, fd 15 0 .ro]⟩,
  -- TX_PAUSE_LO (R287)
  ⟨0x2010, [(48, 16)], true, [fd 31 0 .ro]⟩,
  -- TX_PAUSE_HI (R287)
  ⟨0x2014, [(48, 16)], true, [fd 31 31 .rw1c, fd 15 0 .ro]⟩,
  -- TX_PFC_LO (R287)
  ⟨0x2018, [(48, 16)], true, [fd 31 0 .ro]⟩,
  -- TX_PFC_HI (R287)
  ⟨0x201c, [(48, 16)], true, [fd 31 31 .rw1c, fd 15 0 .ro]⟩,
  -- PAUSE_OTHER_LO (R287)
  ⟨0x2020, [(48, 16)], true, [fd 31 0 .ro]⟩,
  -- PAUSE_OTHER_HI (R287)
  ⟨0x2024, [(48, 16)], true, [fd 31 31 .rw1c, fd 15 0 .ro]⟩,
  -- DOWN_DROP_LO (R286)
  ⟨0x2800, [(8, 32)], true, [fd 31 0 .ro]⟩,
  -- DOWN_DROP_HI (R286)
  ⟨0x2804, [(8, 32)], true, [fd 31 31 .rw1c, fd 15 0 .ro]⟩,
  -- EGF_CFG (R208)
  ⟨0x3000, [(4, 32)], false, [fx 28 20 .rw 8 1 511, fx 17 16 .rw 0 0 1, fx 10 0 .rw 32 0 1024]⟩,
  -- EGF_STS (R213)
  ⟨0x3080, [(4, 32)], false, [fd 31 31 .ros, fd 30 30 .ro, fd 29 16 .ro, fd 15 0 .ro]⟩,
  -- EGF_UNDERRUN_LO (R210)
  ⟨0x3400, [(24, 32)], true, [fd 31 0 .ro]⟩,
  -- EGF_UNDERRUN_HI (R210)
  ⟨0x3404, [(24, 32)], true, [fd 31 31 .rw1c, fd 15 0 .ro]⟩,
  -- EGF_GROWTH_LO (R210)
  ⟨0x3408, [(24, 32)], true, [fd 31 0 .ro]⟩,
  -- EGF_GROWTH_HI (R210)
  ⟨0x340c, [(24, 32)], true, [fd 31 31 .rw1c, fd 15 0 .ro]⟩,
  -- EGF_VIOL_LO (R210)
  ⟨0x3410, [(24, 32)], true, [fd 31 0 .ro]⟩,
  -- EGF_VIOL_HI (R210)
  ⟨0x3414, [(24, 32)], true, [fd 31 31 .rw1c, fd 15 0 .ro]⟩]

/-- The registers of a FLX page at offset 0x100 and above. -/
def regsFLX : List RegDesc := [
  -- GRP_CFG (R290)
  ⟨0x100, [(128, 8)], false, [fd 31 31 .rw, fd 30 30 .rw, fd 27 8 .rw, fd 2 0 .rw]⟩,
  -- GRP_CTL (R295)
  ⟨0x104, [(128, 8)], false, [fd 3 3 .ro, fd 2 2 .rw1c, fd 1 1 .ro, fd 0 0 .w1s]⟩,
  -- GRP_DEF (R305)
  ⟨0x108, [(128, 8)], false, [fd 31 16 .ro, fd 15 0 .ro]⟩,
  -- GRP_SKEW (R293)
  ⟨0x10c, [(128, 8)], false, [fd 12 0 .ro]⟩,
  -- PHY_CFG (R290)
  ⟨0x120, [(128, 8), (4, 8)], false, [fd 31 31 .rw, fx 25 21 .rw 0 0 16, fd 14 14 .rw, fd 13 11 .rw, fd 7 0 .rw]⟩,
  -- PHY_DEF (R305)
  ⟨0x140, [(128, 8), (4, 8)], false, [fd 31 16 .ro, fd 15 0 .ro]⟩,
  -- CLIENT (R291)
  ⟨0x800, [(256, 8), (4, 64)], false, [fd 31 31 .rw, fd 15 0 .rw]⟩,
  -- CLIENT_DEF (R305)
  ⟨0x1000, [(256, 8), (4, 64)], false, [fd 31 16 .ro, fd 15 0 .ro]⟩,
  -- CAL_A (R291)
  ⟨0x4000, [(4096, 8), (4, 320)], false, [fd 31 16 .rw, fd 15 0 .rw]⟩,
  -- CAL_B (R291)
  ⟨0x4800, [(4096, 8), (4, 320)], false, [fd 31 16 .rw, fd 15 0 .rw]⟩,
  -- PHY_FEC_CORR_CW (R310)
  ⟨0xc000, [(256, 8), (16, 8)], true, [fd 31 0 .ro]⟩,
  -- PHY_FEC_UNCORR_CW (R310)
  ⟨0xc004, [(256, 8), (16, 8)], true, [fd 31 0 .ro]⟩,
  -- PHY_OH_CRC (R310)
  ⟨0xc008, [(256, 8), (16, 8)], true, [fd 31 0 .ro]⟩,
  -- PHY_SAT (R310)
  ⟨0xc00c, [(256, 8), (16, 8)], false, [fd 2 0 .rw1c]⟩]

/-- The registers of a OTN page at offset 0x100 and above. -/
def regsOTN : List RegDesc := [
  -- CFG (R297)
  ⟨0x1000, [(256, 64)], false, [fd 31 31 .rw, fd 18 18 .rw, fd 17 16 .rw, fr 15 8 .rw 5, fd 5 2 .rw, fx 1 0 .rw 0 0 2]⟩,
  -- DEF (R305)
  ⟨0x1004, [(256, 64)], false, [fd 31 16 .ro, fd 15 0 .ro]⟩,
  -- STS (R298)
  ⟨0x1008, [(256, 64)], false, [fd 15 8 .ro, fd 4 4 .ro, fd 3 3 .ro, fd 2 2 .ro, fd 1 1 .ro, fd 0 0 .ro]⟩,
  -- TRIB_DEF (R305)
  ⟨0x1010, [(256, 64)], false, [fd 31 16 .ro, fd 15 0 .ro]⟩,
  -- SM_BIP (R300)
  ⟨0x1020, [(256, 64)], true, [fd 31 0 .ro]⟩,
  -- SM_BEI (R300)
  ⟨0x1024, [(256, 64)], true, [fd 31 0 .ro]⟩,
  -- PM_BIP (R300)
  ⟨0x1028, [(256, 64)], true, [fd 31 0 .ro]⟩,
  -- PM_BEI (R300)
  ⟨0x102c, [(256, 64)], true, [fd 31 0 .ro]⟩,
  -- FEC_CORR (R300)
  ⟨0x1030, [(256, 64)], true, [fd 31 0 .ro]⟩,
  -- FEC_UNCORR (R300)
  ⟨0x1034, [(256, 64)], true, [fd 31 0 .ro]⟩,
  -- TRIB_PM_BIP (R300)
  ⟨0x1038, [(256, 64)], true, [fd 31 0 .ro]⟩,
  -- TRIB_PM_BEI (R300)
  ⟨0x103c, [(256, 64)], true, [fd 31 0 .ro]⟩,
  -- SAT (R443)
  ⟨0x1040, [(256, 64)], false, [fd 8 0 .rw1c]⟩,
  -- GFP_OTHER (R304)
  ⟨0x1044, [(256, 64)], true, [fd 31 0 .ro]⟩,
  -- TX_TTI (R303)
  ⟨0x1080, [(256, 64), (4, 16)], false, [fd 31 0 .rw]⟩,
  -- EXP_TTI (R302)
  ⟨0x10c0, [(256, 64), (4, 16)], false, [fd 31 0 .rw]⟩,
  -- ACC_TTI (R302)
  ⟨0x5000, [(128, 64), (4, 32)], false, [fd 31 0 .ro]⟩]

/-- The registers of a AUX page at offset 0x100 and above. -/
def regsAUX : List RegDesc := [
  -- MODE_STS (R41)
  ⟨0x100, [], false, [fd 31 24 .ro, fd 20 16 .ro, fd 10 10 .ro, fd 9 8 .ro, fd 7 4 .ro, fr 3 0 .ro 1]⟩,
  -- MODE_REQ (R41)
  ⟨0x104, [], false, [fx 3 0 .rwl 0 0 9]⟩,
  -- MODE_REQ_STS (R41)
  ⟨0x108, [], false, [fd 15 8 .ro, fd 5 4 .ro, fd 2 0 .ro]⟩]

/-- The registers of a SVC page at offset 0x100 and above. -/
def regsSVC : List RegDesc := [
  -- CTL (R459)
  ⟨0x100, [], false, [fd 3 3 .rwl, fd 2 2 .rwl, fd 1 1 .rwl, fr 0 0 .rwl 1]⟩,
  -- MAC_LO (R459)
  ⟨0x104, [], false, [fd 31 0 .rwl]⟩,
  -- MAC_HI (R459)
  ⟨0x108, [], false, [fd 15 0 .rwl]⟩,
  -- PEER_LO (R459)
  ⟨0x10c, [], false, [fd 31 0 .rwl]⟩,
  -- PEER_HI (R459)
  ⟨0x110, [], false, [fd 15 0 .rwl]⟩,
  -- STS (R459)
  ⟨0x114, [], false, [fd 1 1 .ro, fd 0 0 .ro]⟩,
  -- RX_ACCEPTED (R459)
  ⟨0x140, [], true, [fd 31 0 .ro]⟩,
  -- RX_DISCARDED (R459)
  ⟨0x144, [], true, [fd 31 0 .ro]⟩,
  -- TX_RESPONSES (R459)
  ⟨0x148, [], true, [fd 31 0 .ro]⟩,
  -- DUPLICATES (R459)
  ⟨0x14c, [], true, [fd 31 0 .ro]⟩]

/-- The registers of a FWM page at offset 0x100 and above. -/
def regsFWM : List RegDesc := [
  -- UPD_CTL (R457)
  ⟨0x100, [], false, [fx 9 8 .rw 0 0 2, fd 4 4 .w1sl, fd 3 3 .w1sl, fd 2 2 .w1s, fd 1 1 .w1s, fd 0 0 .w1sl]⟩,
  -- UPD_LEN (R457)
  ⟨0x104, [], false, [fd 25 0 .rw]⟩,
  -- UPD_STS (R457)
  ⟨0x108, [], false, [fd 31 16 .ro, fd 7 4 .ro, fd 2 0 .ro]⟩,
  -- BOOT_REC (R454)
  ⟨0x10c, [], false, [fd 9 9 .ro, fd 8 8 .ro, fd 7 7 .ro, fd 6 6 .ro, fd 5 4 .ro, fd 2 2 .ro, fd 1 1 .ro, fd 0 0 .ro]⟩,
  -- BOOT_SEQ (R454)
  ⟨0x110, [], false, [fd 31 0 .ro]⟩,
  -- MIN_SVN (R454)
  ⟨0x114, [], false, [fd 15 0 .ro]⟩,
  -- SLOT_STS (R453)
  ⟨0x118, [(4, 2)], false, [fd 7 4 .ro, fd 2 2 .ro, fd 1 0 .ro]⟩,
  -- FW_VER (R453)
  ⟨0x120, [(4, 2)], false, [fd 31 0 .ro]⟩,
  -- FW_STS (R470)
  ⟨0x128, [], false, [fr 7 4 .ro 15, fd 3 3 .ro, fd 2 2 .ro, fd 1 1 .ro, fd 0 0 .ro]⟩,
  -- WDT (R446)
  ⟨0x12c, [], false, [fd 31 31 .w1s, fx 15 0 .rwl 2000 100 10000]⟩,
  -- SORUS_RINGS (R447)
  ⟨0x130, [], false, [fd 31 0 .rwl]⟩,
  -- LEARN_SEQ (R471)
  ⟨0x134, [], false, [fd 31 0 .ro]⟩,
  -- BOOT_STS (R452)
  ⟨0x138, [], false, [fd 7 4 .ro, fd 3 0 .ro]⟩,
  -- MB_CMD (R472)
  ⟨0x140, [], false, [fx 7 0 .rw 0 0 4]⟩,
  -- MB_ARG0 (R472)
  ⟨0x144, [], false, [fd 31 0 .rw]⟩,
  -- MB_ARG1 (R472)
  ⟨0x148, [], false, [fd 31 0 .rw]⟩,
  -- MB_STS (R472)
  ⟨0x14c, [], false, [fd 9 8 .ro, fd 7 4 .ro, fd 1 0 .ro]⟩,
  -- MB_DATA (R472)
  ⟨0x180, [(4, 32)], false, [fd 31 0 .rw]⟩,
  -- WDT_CNT (R446)
  ⟨0x200, [], true, [fd 31 0 .ro]⟩,
  -- FALLBACK_CNT (R446)
  ⟨0x204, [], true, [fd 31 0 .ro]⟩,
  -- JOURNAL_LOST (R446)
  ⟨0x208, [], true, [fd 31 0 .ro]⟩,
  -- HANDOVER_CNT (R446)
  ⟨0x20c, [], true, [fd 31 0 .ro]⟩]

/-- The registers of a PWR page at offset 0x100 and above. -/
def regsPWR : List RegDesc := [
  -- SLICE_DRAIN (R488)
  ⟨0x100, [], false, [fd 7 0 .rw]⟩,
  -- SLICE_STS (R488)
  ⟨0x104, [], false, [fd 15 8 .ro, fd 7 0 .ro]⟩,
  -- RET_CFG (R481)
  ⟨0x108, [], false, [fr 2 0 .rw 1]⟩,
  -- RET_USED (R481)
  ⟨0x10c, [], false, [fd 19 0 .ro]⟩,
  -- LTR (R478)
  ⟨0x200, [(4, 46)], false, [fd 31 0 .rw]⟩,
  -- GSTS (R478)
  ⟨0x300, [(4, 46)], false, [fd 10 8 .ro, fd 4 4 .ro, fd 3 3 .ro, fd 2 0 .ro]⟩,
  -- RES_SEL (R482)
  ⟨0x400, [], false, [fx 5 0 .rw 0 0 45]⟩,
  -- RES_LO (R482)
  ⟨0x408, [(8, 5)], true, [fd 31 0 .ro]⟩,
  -- RES_HI (R482)
  ⟨0x40c, [(8, 5)], true, [fd 31 31 .rw1c, fd 15 0 .ro]⟩,
  -- WAKES_LO (R482)
  ⟨0x430, [], true, [fd 31 0 .ro]⟩,
  -- WAKES_HI (R482)
  ⟨0x434, [], true, [fd 31 31 .rw1c, fd 15 0 .ro]⟩]

/-- The registers of a THM page at offset 0x100 and above. -/
def regsTHM : List RegDesc := [
  -- TEMP (R486)
  ⟨0x100, [(4, 25)], false, [fd 31 31 .ro, fd 15 0 .ro]⟩,
  -- LIMITS (R487)
  ⟨0x180, [], false, [fx 7 0 .rwl 95 60 104]⟩,
  -- STS (R487)
  ⟨0x184, [], false, [fd 28 24 .ro, fd 13 13 .w1s, fd 12 12 .ros, fd 11 8 .rw1c, fd 3 0 .ro]⟩,
  -- PEAK (R486)
  ⟨0x188, [], false, [fr 31 16 .ro 32768, fr 15 0 .ro 32768]⟩]

/-- The registers of a QMG page at offset 0x100 and above. -/
def regsQMG : List RegDesc := [
  -- QSPLIT (R177)
  ⟨0x100, [], false, [fx 20 0 .rwl 524288 0 1048576]⟩,
  -- COLOR_SRC (R201)
  ⟨0x104, [], false, [fd 31 31 .rw, fx 5 0 .rw 0 0 62]⟩,
  -- RAND_SEED (R202)
  ⟨0x108, [], false, [fx 31 0 .rw 1 1 4294967295]⟩,
  -- STS (R207)
  ⟨0x10c, [], false, [fd 0 0 .ros]⟩,
  -- SWARD_FREE (R186)
  ⟨0x110, [], false, [fr 19 0 .ro 638976]⟩,
  -- PROF_SEL (R215)
  ⟨0x120, [], false, [fd 23 4 .rw, fd 1 0 .rw]⟩,
  -- PROF_CMD (R215)
  ⟨0x124, [], false, [fd 3 3 .w1s, fd 2 2 .w1s, fd 1 1 .w1s, fd 0 0 .w1s]⟩,
  -- PROF_STS (R215)
  ⟨0x128, [], false, [fd 11 8 .ro, fd 1 0 .ro]⟩,
  -- PROF_W (R215)
  ⟨0x140, [(4, 8)], false, [fd 31 0 .rw]⟩,
  -- POOL_LIMIT_A (R186)
  ⟨0x200, [(16, 2)], false, [fr 19 0 .rw 319488]⟩,
  -- POOL_LIMIT_B (R186)
  ⟨0x220, [(16, 6)], false, [fd 19 0 .rw]⟩,
  -- POOL_PRESS (R187)
  ⟨0x204, [(16, 8)], false, [fd 19 0 .rw]⟩,
  -- POOL_WM (R205)
  ⟨0x208, [(16, 8)], false, [fd 31 31 .rw, fd 30 30 .rw, fd 19 0 .rw]⟩,
  -- POOL_STS (R205)
  ⟨0x20c, [(16, 8)], false, [fd 31 31 .rw1c, fd 30 30 .ro, fd 29 29 .ro, fd 19 0 .ro]⟩,
  -- C_DISABLED_LO (R183)
  ⟨0x400, [], true, [fd 31 0 .ro]⟩,
  -- C_DISABLED_HI (R183)
  ⟨0x404, [], true, [fd 31 31 .rw1c, fd 15 0 .ro]⟩,
  -- C_POOL_FULL_LO (R183)
  ⟨0x408, [], true, [fd 31 0 .ro]⟩,
  -- C_POOL_FULL_HI (R183)
  ⟨0x40c, [], true, [fd 31 31 .rw1c, fd 15 0 .ro]⟩,
  -- C_TAIL_FULL_LO (R183)
  ⟨0x410, [], true, [fd 31 0 .ro]⟩,
  -- C_TAIL_FULL_HI (R183)
  ⟨0x414, [], true, [fd 31 31 .rw1c, fd 15 0 .ro]⟩,
  -- C_TAIL_LIMIT_LO (R183)
  ⟨0x418, [], true, [fd 31 0 .ro]⟩,
  -- C_TAIL_LIMIT_HI (R183)
  ⟨0x41c, [], true, [fd 31 31 .rw1c, fd 15 0 .ro]⟩,
  -- C_CURVE_GREEN_LO (R183)
  ⟨0x420, [], true, [fd 31 0 .ro]⟩,
  -- C_CURVE_GREEN_HI (R183)
  ⟨0x424, [], true, [fd 31 31 .rw1c, fd 15 0 .ro]⟩,
  -- C_CURVE_YELLOW_LO (R183)
  ⟨0x428, [], true, [fd 31 0 .ro]⟩,
  -- C_CURVE_YELLOW_HI (R183)
  ⟨0x42c, [], true, [fd 31 31 .rw1c, fd 15 0 .ro]⟩,
  -- C_CURVE_RED_LO (R183)
  ⟨0x430, [], true, [fd 31 0 .ro]⟩,
  -- C_CURVE_RED_HI (R183)
  ⟨0x434, [], true, [fd 31 31 .rw1c, fd 15 0 .ro]⟩,
  -- C_LEN_MISMATCH_LO (R183)
  ⟨0x438, [], true, [fd 31 0 .ro]⟩,
  -- C_LEN_MISMATCH_HI (R183)
  ⟨0x43c, [], true, [fd 31 31 .rw1c, fd 15 0 .ro]⟩,
  -- C_OVERRUN_LO (R183)
  ⟨0x440, [], true, [fd 31 0 .ro]⟩,
  -- C_OVERRUN_HI (R183)
  ⟨0x444, [], true, [fd 31 31 .rw1c, fd 15 0 .ro]⟩,
  -- C_LOST_LO (R183)
  ⟨0x448, [], true, [fd 31 0 .ro]⟩,
  -- C_LOST_HI (R183)
  ⟨0x44c, [], true, [fd 31 31 .rw1c, fd 15 0 .ro]⟩,
  -- C_EGF_OVERSIZE_LO (R183)
  ⟨0x450, [], true, [fd 31 0 .ro]⟩,
  -- C_EGF_OVERSIZE_HI (R183)
  ⟨0x454, [], true, [fd 31 31 .rw1c, fd 15 0 .ro]⟩]

/-- The registers of a PEAT page at offset 0x100 and above. -/
def regsPEAT : List RegDesc := [
  -- BLOCKS (R195)
  ⟨0x100, [], false, [fd 31 0 .ro]⟩,
  -- FREE (R195)
  ⟨0x104, [], false, [fd 31 0 .ro]⟩,
  -- BUDGET (R198)
  ⟨0x108, [], false, [fx 31 16 .rw 2500 0 2500, fx 15 0 .rw 2500 0 2500]⟩,
  -- STS (R199)
  ⟨0x10c, [], false, [fd 3 3 .rw1c, fd 2 2 .ro, fd 1 1 .ro, fd 0 0 .ro]⟩,
  -- SPILLED_LO (R190)
  ⟨0x400, [], true, [fd 31 0 .ro]⟩,
  -- SPILLED_HI (R190)
  ⟨0x404, [], true, [fd 31 31 .rw1c, fd 15 0 .ro]⟩,
  -- FETCHED_LO (R190)
  ⟨0x408, [], true, [fd 31 0 .ro]⟩,
  -- FETCHED_HI (R190)
  ⟨0x40c, [], true, [fd 31 31 .rw1c, fd 15 0 .ro]⟩,
  -- SHORTCUT_LO (R190)
  ⟨0x410, [], true, [fd 31 0 .ro]⟩,
  -- SHORTCUT_HI (R190)
  ⟨0x414, [], true, [fd 31 31 .rw1c, fd 15 0 .ro]⟩,
  -- HEAD_STARVE_LO (R190)
  ⟨0x418, [], true, [fd 31 0 .ro]⟩,
  -- HEAD_STARVE_HI (R190)
  ⟨0x41c, [], true, [fd 31 31 .rw1c, fd 15 0 .ro]⟩,
  -- LOST_BLOCKS_LO (R190)
  ⟨0x420, [], true, [fd 31 0 .ro]⟩,
  -- LOST_BLOCKS_HI (R190)
  ⟨0x424, [], true, [fd 31 31 .rw1c, fd 15 0 .ro]⟩]

/-- The registers of a SCH page at offset 0x100 and above. -/
def regsSCH : List RegDesc := [
  -- CREDIT_CFG (R240)
  ⟨0x100, [], false, [fr 23 8 .rw 64, fx 7 0 .rw 4 1 64]⟩,
  -- REQ_CFG (R238)
  ⟨0x104, [], false, [fr 23 8 .rw 80, fx 7 0 .rw 8 1 255]⟩,
  -- SHP_CTL (R230)
  ⟨0x108, [], false, [fd 2 2 .ro, fd 1 1 .ro, fd 0 0 .w1sl]⟩,
  -- CTX_USED (R239)
  ⟨0x10c, [], false, [fd 19 0 .ro]⟩,
  -- PACE_STS (R233)
  ⟨0x110, [], false, [fd 7 0 .ro]⟩,
  -- SEL (R243)
  ⟨0x120, [], false, [fd 23 4 .rw, fx 3 0 .rw 0 0 13]⟩,
  -- CMD (R243)
  ⟨0x124, [], false, [fd 2 2 .w1s, fd 1 1 .w1s, fd 0 0 .w1s]⟩,
  -- STS (R243)
  ⟨0x128, [], false, [fd 7 4 .ro, fd 1 0 .ro]⟩,
  -- W (R243)
  ⟨0x140, [(4, 4)], false, [fd 31 0 .rw]⟩,
  -- CAL_SHADOW (R232)
  ⟨0x200, [(256, 8), (4, 64)], false, [fr 29 24 .rw 63, fr 21 16 .rw 63, fr 13 8 .rw 63, fr 5 0 .rw 63]⟩,
  -- CAL_ACTIVE (R232)
  ⟨0xa00, [(256, 8), (4, 64)], false, [fr 29 24 .ro 63, fr 21 16 .ro 63, fr 13 8 .ro 63, fr 5 0 .ro 63]⟩,
  -- CAL_CTL (R232)
  ⟨0x1200, [(4, 8)], false, [fd 1 1 .rw1c, fd 0 0 .w1s]⟩,
  -- GRANTS_SENT_LO (R239)
  ⟨0x1300, [], true, [fd 31 0 .ro]⟩,
  -- GRANTS_SENT_HI (R239)
  ⟨0x1304, [], true, [fd 31 31 .rw1c, fd 15 0 .ro]⟩,
  -- GRANTS_RECEIVED_LO (R239)
  ⟨0x1308, [], true, [fd 31 0 .ro]⟩,
  -- GRANTS_RECEIVED_HI (R239)
  ⟨0x130c, [], true, [fd 31 31 .rw1c, fd 15 0 .ro]⟩,
  -- CREDIT_EXCESS_LO (R239)
  ⟨0x1310, [], true, [fd 31 0 .ro]⟩,
  -- CREDIT_EXCESS_HI (R239)
  ⟨0x1314, [], true, [fd 31 31 .rw1c, fd 15 0 .ro]⟩,
  -- CTX_FULL_LO (R239)
  ⟨0x1318, [], true, [fd 31 0 .ro]⟩,
  -- CTX_FULL_HI (R239)
  ⟨0x131c, [], true, [fd 31 31 .rw1c, fd 15 0 .ro]⟩,
  -- CTX_EXPIRED_LO (R239)
  ⟨0x1320, [], true, [fd 31 0 .ro]⟩,
  -- CTX_EXPIRED_HI (R239)
  ⟨0x1324, [], true, [fd 31 31 .rw1c, fd 15 0 .ro]⟩,
  -- PAUSE_EVENTS_LO (R239)
  ⟨0x1328, [], true, [fd 31 0 .ro]⟩,
  -- PAUSE_EVENTS_HI (R239)
  ⟨0x132c, [], true, [fd 31 31 .rw1c, fd 15 0 .ro]⟩]

/-- The registers of a KCL page at offset 0x100 and above. -/
def regsKCL : List RegDesc := [
  -- CTL (R259)
  ⟨0x100, [], false, [fd 31 31 .rw, fx 19 16 .rw 1 1 8, fx 15 12 .rw 0 0 12, fd 10 0 .rwl]⟩,
  -- RESEQ_CFG (R268)
  ⟨0x104, [], false, [fx 9 0 .rw 50 1 1023]⟩,
  -- HELLO_CFG (R256)
  ⟨0x108, [], false, [fx 23 16 .rw 10 1 255, fx 11 8 .rw 3 2 15, fx 7 0 .rw 8 1 255]⟩,
  -- PLANE_STS (R259)
  ⟨0x10c, [], false, [fd 27 16 .ro, fd 11 0 .ro]⟩,
  -- PLANE_DRAIN (R262)
  ⟨0x110, [], false, [fd 11 0 .rw]⟩,
  -- RESEQ_STS (R267)
  ⟨0x114, [], false, [fd 29 16 .ro, fd 13 0 .ro]⟩,
  -- REACH (R260)
  ⟨0x400, [(4, 64)], false, [fd 31 0 .ro]⟩,
  -- RESEQ_LOSS_LO (R268)
  ⟨0x600, [], true, [fd 31 0 .ro]⟩,
  -- RESEQ_LOSS_HI (R268)
  ⟨0x604, [], true, [fd 31 31 .rw1c, fd 15 0 .ro]⟩,
  -- RESEQ_OOW_LO (R268)
  ⟨0x608, [], true, [fd 31 0 .ro]⟩,
  -- RESEQ_OOW_HI (R268)
  ⟨0x60c, [], true, [fd 31 31 .rw1c, fd 15 0 .ro]⟩,
  -- RESEQ_FULL_LO (R268)
  ⟨0x610, [], true, [fd 31 0 .ro]⟩,
  -- RESEQ_FULL_HI (R268)
  ⟨0x614, [], true, [fd 31 31 .rw1c, fd 15 0 .ro]⟩,
  -- RESEQ_NOSYNC_LO (R268)
  ⟨0x618, [], true, [fd 31 0 .ro]⟩,
  -- RESEQ_NOSYNC_HI (R268)
  ⟨0x61c, [], true, [fd 31 31 .rw1c, fd 15 0 .ro]⟩,
  -- MISROUTED_LO (R268)
  ⟨0x620, [], true, [fd 31 0 .ro]⟩,
  -- MISROUTED_HI (R268)
  ⟨0x624, [], true, [fd 31 31 .rw1c, fd 15 0 .ro]⟩,
  -- BAD_TYPE_LO (R268)
  ⟨0x628, [], true, [fd 31 0 .ro]⟩,
  -- BAD_TYPE_HI (R268)
  ⟨0x62c, [], true, [fd 31 31 .rw1c, fd 15 0 .ro]⟩,
  -- UNREACH_DROP_LO (R268)
  ⟨0x630, [], true, [fd 31 0 .ro]⟩,
  -- UNREACH_DROP_HI (R268)
  ⟨0x634, [], true, [fd 31 31 .rw1c, fd 15 0 .ro]⟩,
  -- CREDIT_EXCESS_LO (R268)
  ⟨0x638, [], true, [fd 31 0 .ro]⟩,
  -- CREDIT_EXCESS_HI (R268)
  ⟨0x63c, [], true, [fd 31 31 .rw1c, fd 15 0 .ro]⟩,
  -- CTRL_SENT_LO (R268)
  ⟨0x640, [], true, [fd 31 0 .ro]⟩,
  -- CTRL_SENT_HI (R268)
  ⟨0x644, [], true, [fd 31 31 .rw1c, fd 15 0 .ro]⟩,
  -- CTRL_RECEIVED_LO (R268)
  ⟨0x648, [], true, [fd 31 0 .ro]⟩,
  -- CTRL_RECEIVED_HI (R268)
  ⟨0x64c, [], true, [fd 31 31 .rw1c, fd 15 0 .ro]⟩,
  -- EQ_MAP (R269)
  ⟨0x2000, [(4, 2048)], false, [fd 31 31 .rw, fd 19 0 .rw]⟩]

/-- The registers of a D5M page at offset 0x100 and above. -/
def regsD5M : List RegDesc := [
  -- CFG (R337)
  ⟨0x100, [], false, [fx 25 16 .rwl 768 0 768, fx 11 8 .rwl 8 1 8, fr 6 6 .rwl 1, fx 5 4 .rwl 2 0 2, fx 2 0 .rwl 5 0 5]⟩,
  -- STS (R337)
  ⟨0x104, [], false, [fd 20 16 .ro, fd 4 4 .ros, fd 3 3 .ro, fd 2 2 .ro, fd 1 1 .ro, fd 0 0 .ro]⟩,
  -- EVAC_CTL (R358)
  ⟨0x108, [], false, [fd 17 17 .w1s, fd 16 16 .w1sl, fx 9 8 .rw 0 0 2, fx 4 0 .rw 0 0 16]⟩,
  -- EVAC_STS (R358)
  ⟨0x10c, [], false, [fd 23 16 .ro, fd 12 8 .ro, fd 2 0 .ro]⟩,
  -- RETIRE_CMD (R366)
  ⟨0x110, [], false, [fd 9 9 .w1sl, fd 8 8 .w1sl, fd 4 0 .rw]⟩,
  -- RETIRED (R366)
  ⟨0x114, [], false, [fd 16 0 .ro]⟩,
  -- MAP_SEQ (R339)
  ⟨0x118, [], false, [fd 31 0 .ro]⟩,
  -- MAP (R338)
  ⟨0x120, [(4, 16)], false, [fd 31 31 .ro, fd 30 30 .ro, fd 4 0 .ro]⟩,
  -- TABLE_SIZE_LO (R342)
  ⟨0x160, [], false, [fd 31 0 .ro]⟩,
  -- TABLE_SIZE_HI (R342)
  ⟨0x164, [], false, [fd 7 0 .ro]⟩,
  -- LINK_BASE_LO (R342)
  ⟨0x168, [], false, [fd 31 0 .ro]⟩,
  -- LINK_BASE_HI (R342)
  ⟨0x16c, [], false, [fd 7 0 .ro]⟩,
  -- PEAT_USABLE (R363)
  ⟨0x170, [], false, [fd 31 0 .ro]⟩,
  -- EFF_BUDGET (R344)
  ⟨0x174, [], false, [fd 31 16 .ro, fd 15 0 .ro]⟩]

/-- The registers of a CNT page at offset 0x100 and above. -/
def regsCNT : List RegDesc := [
  -- CTL (R429)
  ⟨0x100, [], false, [fd 0 0 .rw]⟩,
  -- STS (R429)
  ⟨0x104, [], false, [fd 3 3 .ro, fd 2 2 .ro, fd 1 1 .rw1c, fd 0 0 .ro]⟩,
  -- AREA_BASE_LO (R421)
  ⟨0x108, [], false, [fd 31 12 .rw]⟩,
  -- AREA_BASE_HI (R421)
  ⟨0x10c, [], false, [fd 7 0 .rw]⟩,
  -- COUNT (R421)
  ⟨0x110, [], false, [fx 24 0 .rw 0 0 25165824]⟩,
  -- WB_CFG (R427)
  ⟨0x114, [], false, [fx 31 16 .rw 200 1 1000, fx 15 0 .rw 80 1 65535]⟩,
  -- OP_INDEX (R430)
  ⟨0x120, [], false, [fd 24 0 .rw]⟩,
  -- OP_CMD (R430)
  ⟨0x124, [], false, [fd 2 2 .w1s, fd 1 1 .w1s, fd 0 0 .w1s]⟩,
  -- OP_STS (R430)
  ⟨0x128, [], false, [fd 1 0 .ro]⟩,
  -- RD_BYTES_LO (R430)
  ⟨0x12c, [], false, [fd 31 0 .ro]⟩,
  -- RD_BYTES_HI (R430)
  ⟨0x130, [], false, [fd 31 0 .ro]⟩,
  -- RD_PKTS_LO (R430)
  ⟨0x134, [], false, [fd 31 0 .ro]⟩,
  -- RD_PKTS_HI (R430)
  ⟨0x138, [], false, [fd 25 24 .ro, fd 15 0 .ro]⟩,
  -- SNAP_BASE_LO (R433)
  ⟨0x140, [], false, [fd 31 12 .rw]⟩,
  -- SNAP_BASE_HI (R433)
  ⟨0x144, [], false, [fd 7 0 .rw]⟩,
  -- SNAP_FIRST (R432)
  ⟨0x148, [], false, [fd 24 0 .rw]⟩,
  -- SNAP_COUNT (R432)
  ⟨0x14c, [], false, [fd 24 0 .rw]⟩,
  -- SNAP_CTL (R432)
  ⟨0x150, [], false, [fd 31 16 .rw, fd 1 1 .rw, fd 0 0 .w1s]⟩,
  -- SNAP_STS (R433)
  ⟨0x154, [], false, [fd 31 16 .ro, fd 15 8 .ro, fd 1 0 .ro]⟩,
  -- SNAP_T_NS (R432)
  ⟨0x158, [], false, [fd 31 0 .ro]⟩,
  -- SNAP_T_SEC (R432)
  ⟨0x15c, [], false, [fd 31 0 .ro]⟩,
  -- USER_BASE (R441)
  ⟨0x160, [], false, [fd 24 0 .rw]⟩,
  -- C_LOST_UPDATES_LO (R427)
  ⟨0x400, [], true, [fd 31 0 .ro]⟩,
  -- C_LOST_UPDATES_HI (R427)
  ⟨0x404, [], true, [fd 31 31 .rw1c, fd 15 0 .ro]⟩,
  -- C_BAD_INDEX_LO (R427)
  ⟨0x408, [], true, [fd 31 0 .ro]⟩,
  -- C_BAD_INDEX_HI (R427)
  ⟨0x40c, [], true, [fd 31 31 .rw1c, fd 15 0 .ro]⟩,
  -- C_FORCED_WB_LO (R427)
  ⟨0x410, [], true, [fd 31 0 .ro]⟩,
  -- C_FORCED_WB_HI (R427)
  ⟨0x414, [], true, [fd 31 31 .rw1c, fd 15 0 .ro]⟩,
  -- C_EVICTIONS_LO (R427)
  ⟨0x418, [], true, [fd 31 0 .ro]⟩,
  -- C_EVICTIONS_HI (R427)
  ⟨0x41c, [], true, [fd 31 31 .rw1c, fd 15 0 .ro]⟩,
  -- C_WRITEBACKS_LO (R427)
  ⟨0x420, [], true, [fd 31 0 .ro]⟩,
  -- C_WRITEBACKS_HI (R427)
  ⟨0x424, [], true, [fd 31 31 .rw1c, fd 15 0 .ro]⟩,
  -- C_SNAP_BUSY_LO (R427)
  ⟨0x428, [], true, [fd 31 0 .ro]⟩,
  -- C_SNAP_BUSY_HI (R427)
  ⟨0x42c, [], true, [fd 31 31 .rw1c, fd 15 0 .ro]⟩]

/-- The registers of a FAB page at offset 0x100 and above. -/
def regsFAB : List RegDesc := [
  -- CTL (R262)
  ⟨0x100, [], false, [fd 0 0 .rw]⟩,
  -- STS (R262)
  ⟨0x104, [], false, [fd 15 8 .ro, fd 0 0 .ro]⟩,
  -- LANE_CFG (R253)
  ⟨0x200, [(32, 8)], false, [fr 31 16 .rw 64, fx 2 1 .rw 2 0 2, fd 0 0 .rw]⟩,
  -- LANE_STS (R253)
  ⟨0x204, [(32, 8)], false, [fd 31 16 .ro, fd 14 12 .ro, fr 11 8 .ro 15, fd 5 4 .ro, fd 3 0 .ro]⟩,
  -- LANE_PARTNER (R257)
  ⟨0x208, [(32, 8)], false, [fd 27 24 .ro, fd 23 16 .ro, fd 15 0 .ro]⟩,
  -- CRC_ERR (R247)
  ⟨0x20c, [(32, 8)], true, [fd 31 0 .ro]⟩,
  -- FEC_CORR (R247)
  ⟨0x210, [(32, 8)], true, [fd 31 0 .ro]⟩,
  -- FEC_UNCORR (R247)
  ⟨0x214, [(32, 8)], true, [fd 31 0 .ro]⟩,
  -- RESYNC (R247)
  ⟨0x218, [(32, 8)], true, [fd 31 0 .ro]⟩,
  -- SAT (R443)
  ⟨0x21c, [(32, 8)], false, [fd 3 0 .rw1c]⟩]

/-- The registers of a D5C page at offset 0x100 and above. -/
def regsD5C : List RegDesc := [
  -- CTL (R357)
  ⟨0x100, [], false, [fd 0 0 .w1s]⟩,
  -- STS (R351)
  ⟨0x104, [], false, [fd 19 16 .ro, fd 14 12 .ro, fd 10 10 .ro, fd 9 9 .ro, fr 8 4 .ro 31, fd 3 0 .ro]⟩,
  -- WQ_CFG (R350)
  ⟨0x108, [], false, [fr 31 16 .rw 64, fx 7 0 .rw 96 1 127]⟩,
  -- TEMP (R351)
  ⟨0x10c, [], false, [fd 2 0 .ro]⟩,
  -- TRAIN_STS (R354)
  ⟨0x110, [], false, [fd 31 24 .ro, fd 23 16 .ro, fd 15 8 .ro, fd 7 4 .ro, fd 3 0 .ro]⟩,
  -- ECC_CORR_LO (R346)
  ⟨0x400, [], true, [fd 31 0 .ro]⟩,
  -- ECC_CORR_HI (R346)
  ⟨0x404, [], true, [fd 31 31 .rw1c, fd 15 0 .ro]⟩,
  -- ECC_UNCORR_LO (R346)
  ⟨0x408, [], true, [fd 31 0 .ro]⟩,
  -- ECC_UNCORR_HI (R346)
  ⟨0x40c, [], true, [fd 31 31 .rw1c, fd 15 0 .ro]⟩,
  -- FORWARDED_LO (R346)
  ⟨0x410, [], true, [fd 31 0 .ro]⟩,
  -- FORWARDED_HI (R346)
  ⟨0x414, [], true, [fd 31 31 .rw1c, fd 15 0 .ro]⟩,
  -- MERGED_LO (R346)
  ⟨0x418, [], true, [fd 31 0 .ro]⟩,
  -- MERGED_HI (R346)
  ⟨0x41c, [], true, [fd 31 31 .rw1c, fd 15 0 .ro]⟩,
  -- POSTPONED_LO (R346)
  ⟨0x420, [], true, [fd 31 0 .ro]⟩,
  -- POSTPONED_HI (R346)
  ⟨0x424, [], true, [fd 31 31 .rw1c, fd 15 0 .ro]⟩,
  -- HOT_CROSSINGS_LO (R346)
  ⟨0x428, [], true, [fd 31 0 .ro]⟩,
  -- HOT_CROSSINGS_HI (R346)
  ⟨0x42c, [], true, [fd 31 31 .rw1c, fd 15 0 .ro]⟩,
  -- WCRC_RETRY_LO (R346)
  ⟨0x430, [], true, [fd 31 0 .ro]⟩,
  -- WCRC_RETRY_HI (R346)
  ⟨0x434, [], true, [fd 31 31 .rw1c, fd 15 0 .ro]⟩,
  -- CA_PAR_LO (R346)
  ⟨0x438, [], true, [fd 31 0 .ro]⟩,
  -- CA_PAR_HI (R346)
  ⟨0x43c, [], true, [fd 31 31 .rw1c, fd 15 0 .ro]⟩,
  -- HOLDS_LO (R346)
  ⟨0x440, [], true, [fd 31 0 .ro]⟩,
  -- HOLDS_HI (R346)
  ⟨0x444, [], true, [fd 31 31 .rw1c, fd 15 0 .ro]⟩]

/-- The registers of the page header that every page opens with (the page header of chapter 13). -/
def regsHDR : List RegDesc := [
  ⟨0xc, [], false, [fd 3 3 .w1s, fd 2 2 .rw, fd 1 1 .w1sl, fr 0 0 .rw 1]⟩,
  ⟨0x10, [], false, [fd 3 3 .ro, fd 2 2 .ro, fd 1 1 .ro, fd 0 0 .ro]⟩,
  ⟨0x14, [], false, [fd 31 0 .rw1c]⟩,
  ⟨0x18, [], false, [fd 31 0 .rw]⟩,
  ⟨0x1c, [], false, [fd 31 0 .ro]⟩,
  ⟨0x20, [], false, [fd 31 0 .wo]⟩,
  ⟨0x24, [], false, [fd 25 16 .ro, fd 15 2 .ro]⟩,
  ⟨0x28, [], false, [fd 31 31 .ro, fd 30 28 .ro, fd 27 27 .ro, fd 15 8 .ro, fd 7 0 .ro]⟩,
  ⟨0x2c, [], false, [fd 31 0 .ro]⟩,
  ⟨0x30, [], false, [fd 31 31 .ro, fd 15 0 .ro]⟩,
  ⟨0x34, [], false, [fd 0 0 .ro]⟩,
  ⟨0x38, [], false, [fd 31 0 .rw]⟩,
  ⟨0x0, [], false, [fd 23 16 .ro, fd 7 0 .ro]⟩,
  ⟨0x4, [], false, [fd 31 0 .ro]⟩,
  ⟨0x8, [], false, [fd 31 31 .ro, fd 30 30 .ro, fd 23 16 .ro]⟩]

/-- The low words of `_LO`/`_HI` pairs (R12): the TYPE of the page, their offsets, and the strides and counts of their
indices. The high word stands 4 bytes above. -/
def pairTable : List (Nat × List Nat × List (Nat × Nat)) := [
  (0x1, [0x100], []),
  (0x2, [0x400], [(32, 69)]),
  (0x2, [0x8000], [(16, 512)]),
  (0x5, [0x10c, 0x11c, 0x128, 0x138, 0x400, 0x408, 0x410, 0x418], []),
  (0x6, [0x400, 0x408, 0x410, 0x418], []),
  (0x7, [0x400, 0x408, 0x410, 0x418, 0x420, 0x428, 0x430], []),
  (0x8, [0x208, 0x210, 0x218, 0x220, 0x228, 0x230, 0x238], [(64, 16)]),
  (0x8, [0x800, 0x808, 0x810, 0x818, 0x820], [(64, 8)]),
  (0x8, [0xa00], []),
  (0x8, [0x1000], [(8, 256)]),
  (0x9, [0x20c, 0x214], [(32, 64)]),
  (0x10, [0x140, 0x148, 0x150, 0x158, 0x160, 0x168, 0x170, 0x178], []),
  (0x11, [0x800, 0xa00], [(8, 64)]),
  (0x11, [0xc00, 0xc08, 0xc10, 0xc18, 0xc20], []),
  (0x11, [0x2000, 0x2008, 0x2010], [(24, 256)]),
  (0x12, [0x140, 0x148, 0x150], []),
  (0x14, [0x100], []),
  (0x14, [0x400, 0x408, 0x410, 0x418, 0x420, 0x428, 0x430, 0x438, 0x440, 0x448], [(128, 8)]),
  (0x15, [0x108, 0x200, 0x208, 0x210], []),
  (0x16, [0x400, 0x408, 0x410, 0x418, 0x420, 0x428], []),
  (0x20, [0x20c], [(32, 16)]),
  (0x20, [0x2000, 0x2008, 0x2010, 0x2018, 0x2020], [(48, 16)]),
  (0x20, [0x2800], [(8, 32)]),
  (0x20, [0x3400, 0x3408, 0x3410], [(24, 32)]),
  (0x31, [0x104, 0x10c], []),
  (0x33, [0x408], [(8, 5)]),
  (0x33, [0x430], []),
  (0x40, [0x400, 0x408, 0x410, 0x418, 0x420, 0x428, 0x430, 0x438, 0x440, 0x448, 0x450], []),
  (0x41, [0x400, 0x408, 0x410, 0x418, 0x420], []),
  (0x42, [0x1300, 0x1308, 0x1310, 0x1318, 0x1320, 0x1328], []),
  (0x43, [0x600, 0x608, 0x610, 0x618, 0x620, 0x628, 0x630, 0x638, 0x640, 0x648], []),
  (0x44, [0x160, 0x168], []),
  (0x45, [0x108, 0x12c, 0x134, 0x140, 0x400, 0x408, 0x410, 0x418, 0x420, 0x428], []),
  (0x47, [0x400, 0x408, 0x410, 0x418, 0x420, 0x428, 0x430, 0x438, 0x440], [])]

/-- One row of the page table of R398: first and last page, TYPE code, and the registers of such a page. -/
structure PageRow where
  first : Nat
  last : Nat
  type : Nat
  /-- the causes that `INT_RAW` defines (R406) -/
  ints : Nat
  regs : List RegDesc

/-- The page table of R398. A page that no row covers is unassigned.
DEDUCED, safe: log entry 161. -/
def pageTable : List PageRow := [
  ⟨0x0, 0x0, 0x1, 0x3, regsGLB⟩,
  ⟨0x1, 0x1, 0x2, 0xf, regsPCI⟩,
  ⟨0x2, 0x2, 0x3, 0x3, regsWIN⟩,
  ⟨0x3, 0x3, 0x4, 0x0, regsBRG⟩,
  ⟨0x4, 0x4, 0x5, 0xf, regsTMB⟩,
  ⟨0x5, 0x5, 0x6, 0xf, regsANC⟩,
  ⟨0x6, 0x6, 0x7, 0x3f, regsCSC⟩,
  ⟨0x7, 0x7, 0x8, 0x3f, regsCHK⟩,
  ⟨0x8, 0x8, 0x9, 0x1, regsPMC⟩,
  ⟨0x10, 0x1f, 0x10, 0x3f, regsFRD⟩,
  ⟨0x20, 0x20, 0x11, 0xf, regsPRS⟩,
  ⟨0x21, 0x21, 0x12, 0x7, regsPAY⟩,
  ⟨0x22, 0x22, 0x13, 0x7, regsLKP⟩,
  ⟨0x23, 0x23, 0x14, 0x7, regsLRN⟩,
  ⟨0x24, 0x24, 0x15, 0x1, regsSHD⟩,
  ⟨0x25, 0x25, 0x16, 0xff, regsTCM⟩,
  ⟨0x30, 0x37, 0x20, 0xf001f, regsLIN⟩,
  ⟨0x38, 0x38, 0x21, 0x3f, regsFLX⟩,
  ⟨0x39, 0x39, 0x22, 0x7, regsOTN⟩,
  ⟨0x40, 0x54, 0x23, 0x0, []⟩,
  ⟨0x60, 0x60, 0x30, 0x0, regsAUX⟩,
  ⟨0x61, 0x61, 0x31, 0x3, regsSVC⟩,
  ⟨0x62, 0x62, 0x32, 0x1f, regsFWM⟩,
  ⟨0x63, 0x63, 0x33, 0xf, regsPWR⟩,
  ⟨0x64, 0x64, 0x34, 0x7, regsTHM⟩,
  ⟨0x80, 0x80, 0x40, 0xf, regsQMG⟩,
  ⟨0x81, 0x81, 0x41, 0xf, regsPEAT⟩,
  ⟨0x82, 0x82, 0x42, 0xf, regsSCH⟩,
  ⟨0x83, 0x83, 0x43, 0xf, regsKCL⟩,
  ⟨0x84, 0x84, 0x44, 0xf, regsD5M⟩,
  ⟨0x85, 0x85, 0x45, 0x1f, regsCNT⟩,
  ⟨0x90, 0x9b, 0x46, 0x3ff, regsFAB⟩,
  ⟨0xa0, 0xb0, 0x47, 0xf, regsD5C⟩]

/-- The row of a page. -/
def pageRow (p : Nat) : Option PageRow := pageTable.find? (fun r => r.first ≤ p && p ≤ r.last)

/-- The page lies on the TD core (R15). -/
def pageTd (p : Nat) : Bool := (0x80 ≤ p && p ≤ 0xB0) || (0x48 ≤ p && p ≤ 0x53)

/-- The page lies on the management island (R15). -/
def pageIsland (p : Nat) : Bool := 0x60 ≤ p && p ≤ 0x64

/-- The offset `d` is one that indices with these strides and counts reach. -/
def dimsHit : List (Nat × Nat) → Nat → Bool
  | [], d => d = 0
  | (s, c) :: r, d =>
    match r with
    | [] => d % s = 0 && d / s < c
    | _ => (List.range c).any (fun i => s * i ≤ d && dimsHit r (d - s * i))

/-- The register at an offset of a page, if the page has one there. -/
def regAt (p o : Nat) : Option RegDesc :=
  match pageRow p with
  | none => none
  | some row =>
    if o < 0x100 then regsHDR.find? (fun r => r.off = o)
    else row.regs.find? (fun r => r.off ≤ o && dimsHit r.dims (o - r.off))

/-- The register at a BAR0 address. -/
def regOf (a : Nat) : Option RegDesc := regAt (a / 0x10000) (a % 0x10000)

/-- The reset word of a register. -/
def RegDesc.resetWord (r : RegDesc) : Word := BitVec.ofNat 32 (r.fields.foldl (fun n f => n + f.reset <<< f.lsb) 0)

/-- The bits that some field of the register covers: the others are reserved and read 0 (R10). -/
def RegDesc.mask (r : RegDesc) : Word :=
  r.fields.foldl (fun m f => m ||| fldMask ⟨f.lsb, f.msb - f.lsb + 1⟩) 0#32

/-- The header words that differ from page to page: PAGE_ID, PAGE_REV and PAGE_CAP (R2, R398). -/
def headerWord (p o : Nat) : Word :=
  match pageRow p with
  | none => 0#32
  | some row =>
    if o = 0 then BitVec.ofNat 32 (row.type <<< 16 + (if row.first = row.last then 0 else p - row.first))
    else if o = 4 then (if p = 0 then 0x128000B0#32 else 0x00000100#32)
    else BitVec.ofNat 32 (b2n (pageTd p) <<< 31 + b2n (pageIsland p) <<< 30 + (row.last - row.first + 1) <<< 16)

/-- What a register reads after reset when nothing has written it. -/
def resetOf (a : Nat) : Word :=
  if a % 0x10000 < 0xC then headerWord (a / 0x10000) (a % 0x10000)
  else
    match regOf a with
    | none => 0#32
    | some r => r.resetWord

/-- The bits of the register at an address that exist (R10): of the interrupt registers those whose causes the page defines. -/
def maskOf (a : Nat) : Word :=
  match regOf a with
  | none => 0#32
  | some r =>
    if 0x14 ≤ a % 0x10000 && a % 0x10000 ≤ 0x20 then
      (match pageRow (a / 0x10000) with
       | some row => BitVec.ofNat 32 row.ints
       | none => 0#32)
    else r.mask

/-- The register at an address is the low word of a pair (R12). -/
def isPairLo (a : Nat) : Bool :=
  match pageRow (a / 0x10000) with
  | none => false
  | some row => pairTable.any (fun e => e.1 = row.type && e.2.1.any (fun o => o ≤ a % 0x10000 && dimsHit e.2.2 (a % 0x10000 - o)))

end Sys2Proof.Machine
end

