-- ==== Sys2Proof/Machine/RegNames.lean ====
section
/-! DEFINITION. The BAR0 addresses of the registers, by page and name, and the places of their fields, by page, register
and field name, as the chapters' register tables give them. A page with several instances takes the instance first. -/

namespace Sys2Proof.Machine

/-- `GLB.CHIP_UID_LO` (R448). -/
def GLB.CHIP_UID_LO : Nat := 0x100
def GLB.CHIP_UID_LO_UID : Fld := ⟨0, 32⟩
/-- `GLB.CHIP_UID_HI` (R448). -/
def GLB.CHIP_UID_HI : Nat := 0x104
def GLB.CHIP_UID_HI_UID : Fld := ⟨0, 32⟩
/-- `GLB.PEND_SUMMARY` (R407). -/
def GLB.PEND_SUMMARY (i : Nat) : Nat := 0x400 + 0x4 * i
def GLB.PEND_SUMMARY_PEND : Fld := ⟨0, 32⟩
/-- `GLB.EVT_CLASS_EN` (R415). -/
def GLB.EVT_CLASS_EN : Nat := 0x500
def GLB.EVT_CLASS_EN_EN : Fld := ⟨1, 16⟩
/-- `GLB.PROG_LOAD_CTL` (R76). -/
def GLB.PROG_LOAD_CTL : Nat := 0x800
def GLB.PROG_LOAD_CTL_ACTIVATE : Fld := ⟨2, 1⟩
def GLB.PROG_LOAD_CTL_ABORT : Fld := ⟨1, 1⟩
def GLB.PROG_LOAD_CTL_START : Fld := ⟨0, 1⟩
/-- `GLB.PROG_LOAD_LEN` (R76). -/
def GLB.PROG_LOAD_LEN : Nat := 0x804
def GLB.PROG_LOAD_LEN_LEN : Fld := ⟨0, 26⟩
/-- `GLB.PROG_LOAD_STS` (R77). -/
def GLB.PROG_LOAD_STS : Nat := 0x808
def GLB.PROG_LOAD_STS_DETAIL : Fld := ⟨16, 16⟩
def GLB.PROG_LOAD_STS_REFUSE_CODE : Fld := ⟨8, 8⟩
def GLB.PROG_LOAD_STS_BANK : Fld := ⟨4, 1⟩
def GLB.PROG_LOAD_STS_STATE : Fld := ⟨0, 3⟩
/-- `GLB.PROG_BANK_STS` (R80). -/
def GLB.PROG_BANK_STS : Nat := 0x80C
def GLB.PROG_BANK_STS_ACTIVE_BANK : Fld := ⟨8, 1⟩
def GLB.PROG_BANK_STS_BANK1 : Fld := ⟨4, 3⟩
def GLB.PROG_BANK_STS_BANK0 : Fld := ⟨0, 3⟩
/-- `GLB.PROG_IMAGE_ID0` (R80). -/
def GLB.PROG_IMAGE_ID0 : Nat := 0x810
def GLB.PROG_IMAGE_ID0_ID : Fld := ⟨0, 32⟩
/-- `GLB.PROG_IMAGE_ID1` (R80). -/
def GLB.PROG_IMAGE_ID1 : Nat := 0x814
def GLB.PROG_IMAGE_ID1_ID : Fld := ⟨0, 32⟩
/-- `GLB.PROG_DRAIN` (R81). -/
def GLB.PROG_DRAIN : Nat := 0x818
def GLB.PROG_DRAIN_EXPIRY_FIRED : Fld := ⟨31, 1⟩
def GLB.PROG_DRAIN_DRAIN_COUNT : Fld := ⟨0, 24⟩
/-- `GLB.PROG_DRAIN_LEFT` (R82). -/
def GLB.PROG_DRAIN_LEFT : Nat := 0x81C
def GLB.PROG_DRAIN_LEFT_CYCLES : Fld := ⟨0, 32⟩
/-- `GLB.PROG_SWAP_STS` (R80). -/
def GLB.PROG_SWAP_STS : Nat := 0x820
def GLB.PROG_SWAP_STS_EPOCH_AFTER : Fld := ⟨16, 16⟩
def GLB.PROG_SWAP_STS_RESULT : Fld := ⟨0, 3⟩
/-- `GLB.PROG_BREAK_EPOCH` (R84). -/
def GLB.PROG_BREAK_EPOCH : Nat := 0x824
def GLB.PROG_BREAK_EPOCH_VALID : Fld := ⟨16, 1⟩
def GLB.PROG_BREAK_EPOCH_EPOCH : Fld := ⟨0, 16⟩
/-- `PCI.LINK_STS` (R394). -/
def PCI.LINK_STS : Nat := 0x10100
def PCI.LINK_STS_WIDTH : Fld := ⟨4, 6⟩
def PCI.LINK_STS_SPEED : Fld := ⟨0, 4⟩
/-- `PCI.TD_TIMEOUT_CNT` (R402). -/
def PCI.TD_TIMEOUT_CNT : Nat := 0x10104
def PCI.TD_TIMEOUT_CNT_CNT : Fld := ⟨0, 32⟩
/-- `PCI.UNMAPPED_CNT` (R400). -/
def PCI.UNMAPPED_CNT : Nat := 0x10108
def PCI.UNMAPPED_CNT_CNT : Fld := ⟨0, 32⟩
/-- `PCI.VEC_ACK` (R406). -/
def PCI.VEC_ACK : Nat := 0x10200
def PCI.VEC_ACK_VECTOR : Fld := ⟨0, 9⟩
/-- `PCI.RING_BASE_LO` (R410). -/
def PCI.RING_BASE_LO (i : Nat) : Nat := 0x10400 + 0x20 * i
def PCI.RING_BASE_LO_ADDR : Fld := ⟨6, 26⟩
/-- `PCI.RING_BASE_HI` (R410). -/
def PCI.RING_BASE_HI (i : Nat) : Nat := 0x10404 + 0x20 * i
def PCI.RING_BASE_HI_ADDR : Fld := ⟨0, 32⟩
/-- `PCI.RING_CFG` (R410). -/
def PCI.RING_CFG (i : Nat) : Nat := 0x10408 + 0x20 * i
def PCI.RING_CFG_ENABLE : Fld := ⟨31, 1⟩
def PCI.RING_CFG_INT_EN : Fld := ⟨30, 1⟩
def PCI.RING_CFG_VECTOR : Fld := ⟨16, 9⟩
def PCI.RING_CFG_LOG2_SIZE : Fld := ⟨0, 5⟩
/-- `PCI.RING_COAL` (R414). -/
def PCI.RING_COAL (i : Nat) : Nat := 0x1040C + 0x20 * i
def PCI.RING_COAL_TIME : Fld := ⟨16, 16⟩
def PCI.RING_COAL_COUNT : Fld := ⟨0, 16⟩
/-- `PCI.RING_POST` (R412). -/
def PCI.RING_POST (i : Nat) : Nat := 0x10410 + 0x20 * i
def PCI.RING_POST_POST : Fld := ⟨0, 17⟩
/-- `PCI.RING_CREDIT` (R412). -/
def PCI.RING_CREDIT (i : Nat) : Nat := 0x10414 + 0x20 * i
def PCI.RING_CREDIT_CREDIT : Fld := ⟨0, 17⟩
/-- `PCI.RING_HEAD` (R412). -/
def PCI.RING_HEAD (i : Nat) : Nat := 0x10418 + 0x20 * i
def PCI.RING_HEAD_HEAD : Fld := ⟨0, 16⟩
/-- `PCI.RING_STS` (R413). -/
def PCI.RING_STS (i : Nat) : Nat := 0x1041C + 0x20 * i
def PCI.RING_STS_DROPS : Fld := ⟨16, 16⟩
def PCI.RING_STS_ERR : Fld := ⟨4, 4⟩
def PCI.RING_STS_STOPPED : Fld := ⟨1, 1⟩
def PCI.RING_STS_IDLE : Fld := ⟨0, 1⟩
/-- `PCI.VEC_MAP` (R406). -/
def PCI.VEC_MAP (i : Nat) : Nat := 0x11000 + 0x4 * i
def PCI.VEC_MAP_EN : Fld := ⟨31, 1⟩
def PCI.VEC_MAP_VECTOR : Fld := ⟨0, 9⟩
/-- `PCI.MSIX_ADDR_LO` (R395). -/
def PCI.MSIX_ADDR_LO (i : Nat) : Nat := 0x18000 + 0x10 * i
def PCI.MSIX_ADDR_LO_ADDR : Fld := ⟨2, 30⟩
/-- `PCI.MSIX_ADDR_HI` (R395). -/
def PCI.MSIX_ADDR_HI (i : Nat) : Nat := 0x18004 + 0x10 * i
def PCI.MSIX_ADDR_HI_ADDR : Fld := ⟨0, 32⟩
/-- `PCI.MSIX_DATA` (R395). -/
def PCI.MSIX_DATA (i : Nat) : Nat := 0x18008 + 0x10 * i
def PCI.MSIX_DATA_DATA : Fld := ⟨0, 32⟩
/-- `PCI.MSIX_CTL` (R395). -/
def PCI.MSIX_CTL (i : Nat) : Nat := 0x1800C + 0x10 * i
def PCI.MSIX_CTL_MASK : Fld := ⟨0, 1⟩
/-- `PCI.MSIX_PBA` (R406). -/
def PCI.MSIX_PBA (i : Nat) : Nat := 0x1A000 + 0x4 * i
def PCI.MSIX_PBA_PENDING : Fld := ⟨0, 32⟩
/-- `WIN.APERTURE_BASE` (R408). -/
def WIN.APERTURE_BASE : Nat := 0x20100
def WIN.APERTURE_BASE_BASE_MIB : Fld := ⟨12, 20⟩
def WIN.APERTURE_BASE_SPACE : Fld := ⟨0, 3⟩
/-- `WIN.STS` (R409). -/
def WIN.STS : Nat := 0x20104
def WIN.STS_UNCORR : Fld := ⟨1, 1⟩
def WIN.STS_DISCARD : Fld := ⟨0, 1⟩
/-- `WIN.DISCARD_CNT` (R409). -/
def WIN.DISCARD_CNT : Nat := 0x20108
def WIN.DISCARD_CNT_CNT : Fld := ⟨0, 32⟩
/-- `BRG.CTL` (R30). -/
def BRG.CTL : Nat := 0x30100
def BRG.CTL_WIDTH_REQ : Fld := ⟨1, 1⟩
def BRG.CTL_AUTO_HALF : Fld := ⟨0, 1⟩
/-- `BRG.STS` (R29). -/
def BRG.STS : Nat := 0x30104
def BRG.STS_FIRST_GROUP : Fld := ⟨11, 5⟩
def BRG.STS_FIRST_CAUSE : Fld := ⟨8, 3⟩
def BRG.STS_WIDTH_FAIL : Fld := ⟨4, 1⟩
def BRG.STS_CREDIT_VIOL : Fld := ⟨3, 1⟩
def BRG.STS_DRIFT : Fld := ⟨2, 1⟩
def BRG.STS_HALF : Fld := ⟨1, 1⟩
def BRG.STS_TRAINED : Fld := ⟨0, 1⟩
/-- `BRG.ERR_LIMIT` (R29). -/
def BRG.ERR_LIMIT : Nat := 0x30108
def BRG.ERR_LIMIT_COUNT : Fld := ⟨0, 16⟩
/-- `TMB.CTL` (R370). -/
def TMB.CTL : Nat := 0x40100
def TMB.CTL_STEP_REL : Fld := ⟨4, 1⟩
def TMB.CTL_TOD_ARM : Fld := ⟨3, 1⟩
def TMB.CTL_STEP : Fld := ⟨2, 1⟩
def TMB.CTL_SERVO_EN : Fld := ⟨0, 1⟩
/-- `TMB.STS` (R373). -/
def TMB.STS : Nat := 0x40104
def TMB.STS_PPS_SEEN : Fld := ⟨6, 1⟩
def TMB.STS_SLEWING : Fld := ⟨5, 1⟩
def TMB.STS_TOD_TIMEOUT : Fld := ⟨4, 1⟩
def TMB.STS_TIME_SET : Fld := ⟨3, 1⟩
def TMB.STS_STATE : Fld := ⟨0, 3⟩
/-- `TMB.NOW_NS` (R369). -/
def TMB.NOW_NS : Nat := 0x40108
def TMB.NOW_NS_NS : Fld := ⟨0, 32⟩
/-- `TMB.NOW_SEC_LO` (R369). -/
def TMB.NOW_SEC_LO : Nat := 0x4010C
def TMB.NOW_SEC_LO_SEC : Fld := ⟨0, 32⟩
/-- `TMB.NOW_SEC_HI` (R369). -/
def TMB.NOW_SEC_HI : Nat := 0x40110
def TMB.NOW_SEC_HI_SEC : Fld := ⟨0, 16⟩
/-- `TMB.FREQ_ADJ` (R368). -/
def TMB.FREQ_ADJ : Nat := 0x40114
def TMB.FREQ_ADJ_ADJ : Fld := ⟨0, 32⟩
/-- `TMB.STEP_NS` (R370). -/
def TMB.STEP_NS : Nat := 0x40118
def TMB.STEP_NS_NS : Fld := ⟨0, 30⟩
/-- `TMB.STEP_SEC_LO` (R370). -/
def TMB.STEP_SEC_LO : Nat := 0x4011C
def TMB.STEP_SEC_LO_SEC : Fld := ⟨0, 32⟩
/-- `TMB.STEP_SEC_HI` (R370). -/
def TMB.STEP_SEC_HI : Nat := 0x40120
def TMB.STEP_SEC_HI_SIGN : Fld := ⟨31, 1⟩
def TMB.STEP_SEC_HI_SEC : Fld := ⟨0, 16⟩
/-- `TMB.SLEW_NS` (R370). -/
def TMB.SLEW_NS : Nat := 0x40124
def TMB.SLEW_NS_NS : Fld := ⟨0, 32⟩
/-- `TMB.TOD_SEC_LO` (R372). -/
def TMB.TOD_SEC_LO : Nat := 0x40128
def TMB.TOD_SEC_LO_SEC : Fld := ⟨0, 32⟩
/-- `TMB.TOD_SEC_HI` (R372). -/
def TMB.TOD_SEC_HI : Nat := 0x4012C
def TMB.TOD_SEC_HI_SEC : Fld := ⟨0, 16⟩
/-- `TMB.PPS_DELAY` (R371). -/
def TMB.PPS_DELAY : Nat := 0x40130
def TMB.PPS_DELAY_NS : Fld := ⟨0, 24⟩
/-- `TMB.PPS_CAP_NS` (R371). -/
def TMB.PPS_CAP_NS : Nat := 0x40134
def TMB.PPS_CAP_NS_NS : Fld := ⟨0, 32⟩
/-- `TMB.PPS_CAP_SEC_LO` (R371). -/
def TMB.PPS_CAP_SEC_LO : Nat := 0x40138
def TMB.PPS_CAP_SEC_LO_SEC : Fld := ⟨0, 32⟩
/-- `TMB.PPS_CAP_SEC_HI` (R371). -/
def TMB.PPS_CAP_SEC_HI : Nat := 0x4013C
def TMB.PPS_CAP_SEC_HI_SEC : Fld := ⟨0, 16⟩
/-- `TMB.PPS_ERR` (R371). -/
def TMB.PPS_ERR : Nat := 0x40140
def TMB.PPS_ERR_ERR : Fld := ⟨0, 32⟩
/-- `TMB.SERVO` (R374). -/
def TMB.SERVO : Nat := 0x40144
def TMB.SERVO_STEP_THRESH : Fld := ⟨16, 16⟩
def TMB.SERVO_LOCK_NS : Fld := ⟨8, 8⟩
def TMB.SERVO_KI_SHIFT : Fld := ⟨0, 5⟩
/-- `TMB.PPS_OUT` (R375). -/
def TMB.PPS_OUT : Nat := 0x40148
def TMB.PPS_OUT_WIDTH : Fld := ⟨8, 16⟩
def TMB.PPS_OUT_ENABLE : Fld := ⟨0, 1⟩
/-- `TMB.SYNCE_CFG` (R376). -/
def TMB.SYNCE_CFG (i : Nat) : Nat := 0x40150 + 0x4 * i
def TMB.SYNCE_CFG_ENABLE : Fld := ⟨31, 1⟩
def TMB.SYNCE_CFG_LANE : Fld := ⟨20, 3⟩
def TMB.SYNCE_CFG_SLICE : Fld := ⟨16, 3⟩
def TMB.SYNCE_CFG_DIV : Fld := ⟨0, 16⟩
/-- `TMB.SYNCE_STS` (R376). -/
def TMB.SYNCE_STS : Nat := 0x40158
def TMB.SYNCE_STS_SQ1 : Fld := ⟨1, 1⟩
def TMB.SYNCE_STS_SQ0 : Fld := ⟨0, 1⟩
/-- `TMB.PPS_ACCEPTED_LO` (R368). -/
def TMB.PPS_ACCEPTED_LO : Nat := 0x40400
def TMB.PPS_ACCEPTED_LO_LO : Fld := ⟨0, 32⟩
/-- `TMB.PPS_ACCEPTED_HI` (R368). -/
def TMB.PPS_ACCEPTED_HI : Nat := 0x40404
def TMB.PPS_ACCEPTED_HI_WRAP : Fld := ⟨31, 1⟩
def TMB.PPS_ACCEPTED_HI_HI : Fld := ⟨0, 16⟩
/-- `TMB.PPS_REJECTED_LO` (R368). -/
def TMB.PPS_REJECTED_LO : Nat := 0x40408
def TMB.PPS_REJECTED_LO_LO : Fld := ⟨0, 32⟩
/-- `TMB.PPS_REJECTED_HI` (R368). -/
def TMB.PPS_REJECTED_HI : Nat := 0x4040C
def TMB.PPS_REJECTED_HI_WRAP : Fld := ⟨31, 1⟩
def TMB.PPS_REJECTED_HI_HI : Fld := ⟨0, 16⟩
/-- `TMB.STEPS_LO` (R368). -/
def TMB.STEPS_LO : Nat := 0x40410
def TMB.STEPS_LO_LO : Fld := ⟨0, 32⟩
/-- `TMB.STEPS_HI` (R368). -/
def TMB.STEPS_HI : Nat := 0x40414
def TMB.STEPS_HI_WRAP : Fld := ⟨31, 1⟩
def TMB.STEPS_HI_HI : Fld := ⟨0, 16⟩
/-- `TMB.TICKS_LO` (R368). -/
def TMB.TICKS_LO : Nat := 0x40418
def TMB.TICKS_LO_LO : Fld := ⟨0, 32⟩
/-- `TMB.TICKS_HI` (R368). -/
def TMB.TICKS_HI : Nat := 0x4041C
def TMB.TICKS_HI_WRAP : Fld := ⟨31, 1⟩
def TMB.TICKS_HI_HI : Fld := ⟨0, 16⟩
/-- `ANC.POST_W` (R378). -/
def ANC.POST_W (i : Nat) : Nat := 0x50100 + 0x4 * i
def ANC.POST_W_W : Fld := ⟨0, 32⟩
/-- `ANC.CMD` (R378). -/
def ANC.CMD : Nat := 0x50114
def ANC.CMD_CANCEL : Fld := ⟨1, 1⟩
def ANC.CMD_POST : Fld := ⟨0, 1⟩
/-- `ANC.STS` (R378). -/
def ANC.STS : Nat := 0x50118
def ANC.STS_HELD : Fld := ⟨16, 9⟩
def ANC.STS_RESULT : Fld := ⟨0, 8⟩
/-- `ANC.NEXT_TAG` (R377). -/
def ANC.NEXT_TAG : Nat := 0x5011C
def ANC.NEXT_TAG_VALID : Fld := ⟨31, 1⟩
def ANC.NEXT_TAG_TAG : Fld := ⟨0, 16⟩
/-- `ANC.EXECUTED_LO` (R379). -/
def ANC.EXECUTED_LO : Nat := 0x50400
def ANC.EXECUTED_LO_LO : Fld := ⟨0, 32⟩
/-- `ANC.EXECUTED_HI` (R379). -/
def ANC.EXECUTED_HI : Nat := 0x50404
def ANC.EXECUTED_HI_WRAP : Fld := ⟨31, 1⟩
def ANC.EXECUTED_HI_HI : Fld := ⟨0, 16⟩
/-- `ANC.LATE_LO` (R379). -/
def ANC.LATE_LO : Nat := 0x50408
def ANC.LATE_LO_LO : Fld := ⟨0, 32⟩
/-- `ANC.LATE_HI` (R379). -/
def ANC.LATE_HI : Nat := 0x5040C
def ANC.LATE_HI_WRAP : Fld := ⟨31, 1⟩
def ANC.LATE_HI_HI : Fld := ⟨0, 16⟩
/-- `ANC.CANCELLED_LO` (R379). -/
def ANC.CANCELLED_LO : Nat := 0x50410
def ANC.CANCELLED_LO_LO : Fld := ⟨0, 32⟩
/-- `ANC.CANCELLED_HI` (R379). -/
def ANC.CANCELLED_HI : Nat := 0x50414
def ANC.CANCELLED_HI_WRAP : Fld := ⟨31, 1⟩
def ANC.CANCELLED_HI_HI : Fld := ⟨0, 16⟩
/-- `ANC.ABANDONED_LO` (R379). -/
def ANC.ABANDONED_LO : Nat := 0x50418
def ANC.ABANDONED_LO_LO : Fld := ⟨0, 32⟩
/-- `ANC.ABANDONED_HI` (R379). -/
def ANC.ABANDONED_HI : Nat := 0x5041C
def ANC.ABANDONED_HI_WRAP : Fld := ⟨31, 1⟩
def ANC.ABANDONED_HI_HI : Fld := ⟨0, 16⟩
/-- `CSC.CTL` (R385). -/
def CSC.CTL : Nat := 0x60100
def CSC.CTL_FOLLOW_SHIFT : Fld := ⟨8, 4⟩
def CSC.CTL_JOIN : Fld := ⟨3, 1⟩
def CSC.CTL_ELIGIBLE : Fld := ⟨2, 1⟩
def CSC.CTL_POS : Fld := ⟨0, 2⟩
/-- `CSC.STS` (R386). -/
def CSC.STS : Nat := 0x60104
def CSC.STS_SPLIT : Fld := ⟨8, 1⟩
def CSC.STS_TIME_OK : Fld := ⟨7, 1⟩
def CSC.STS_PAUSED : Fld := ⟨6, 1⟩
def CSC.STS_SEEN : Fld := ⟨2, 4⟩
def CSC.STS_MASTER_VALID : Fld := ⟨1, 1⟩
/-- `CSC.LINK_STS` (R383). -/
def CSC.LINK_STS (i : Nat) : Nat := 0x60108 + 0x4 * i
def CSC.LINK_STS_HELLO_SEEN : Fld := ⟨3, 1⟩
def CSC.LINK_STS_LANES_UP : Fld := ⟨1, 2⟩
def CSC.LINK_STS_UP : Fld := ⟨0, 1⟩
/-- `CSC.ASYM` (R388). -/
def CSC.ASYM (i : Nat) : Nat := 0x60120 + 0x4 * i
def CSC.ASYM_NS : Fld := ⟨0, 32⟩
/-- `CSC.OFFSET` (R388). -/
def CSC.OFFSET : Nat := 0x60130
def CSC.OFFSET_THETA : Fld := ⟨0, 32⟩
/-- `CSC.LRN_SYNC` (R391). -/
def CSC.LRN_SYNC : Nat := 0x60134
def CSC.LRN_SYNC_TABLES : Fld := ⟨0, 8⟩
/-- `CSC.SYNC_SEQ` (R391). -/
def CSC.SYNC_SEQ : Nat := 0x60138
def CSC.SYNC_SEQ_SEQ : Fld := ⟨0, 32⟩
/-- `CSC.RETRANSMIT_LO` (R384). -/
def CSC.RETRANSMIT_LO : Nat := 0x60400
def CSC.RETRANSMIT_LO_LO : Fld := ⟨0, 32⟩
/-- `CSC.RETRANSMIT_HI` (R384). -/
def CSC.RETRANSMIT_HI : Nat := 0x60404
def CSC.RETRANSMIT_HI_WRAP : Fld := ⟨31, 1⟩
def CSC.RETRANSMIT_HI_HI : Fld := ⟨0, 16⟩
/-- `CSC.LINK_DOWN_LO` (R384). -/
def CSC.LINK_DOWN_LO : Nat := 0x60408
def CSC.LINK_DOWN_LO_LO : Fld := ⟨0, 32⟩
/-- `CSC.LINK_DOWN_HI` (R384). -/
def CSC.LINK_DOWN_HI : Nat := 0x6040C
def CSC.LINK_DOWN_HI_WRAP : Fld := ⟨31, 1⟩
def CSC.LINK_DOWN_HI_HI : Fld := ⟨0, 16⟩
/-- `CSC.BAD_MSG_LO` (R384). -/
def CSC.BAD_MSG_LO : Nat := 0x60410
def CSC.BAD_MSG_LO_LO : Fld := ⟨0, 32⟩
/-- `CSC.BAD_MSG_HI` (R384). -/
def CSC.BAD_MSG_HI : Nat := 0x60414
def CSC.BAD_MSG_HI_WRAP : Fld := ⟨31, 1⟩
def CSC.BAD_MSG_HI_HI : Fld := ⟨0, 16⟩
/-- `CSC.SYNC_GAP_LO` (R384). -/
def CSC.SYNC_GAP_LO : Nat := 0x60418
def CSC.SYNC_GAP_LO_LO : Fld := ⟨0, 32⟩
/-- `CSC.SYNC_GAP_HI` (R384). -/
def CSC.SYNC_GAP_HI : Nat := 0x6041C
def CSC.SYNC_GAP_HI_WRAP : Fld := ⟨31, 1⟩
def CSC.SYNC_GAP_HI_HI : Fld := ⟨0, 16⟩
/-- `CSC.SYNC_FAIL_LO` (R384). -/
def CSC.SYNC_FAIL_LO : Nat := 0x60420
def CSC.SYNC_FAIL_LO_LO : Fld := ⟨0, 32⟩
/-- `CSC.SYNC_FAIL_HI` (R384). -/
def CSC.SYNC_FAIL_HI : Nat := 0x60424
def CSC.SYNC_FAIL_HI_WRAP : Fld := ⟨31, 1⟩
def CSC.SYNC_FAIL_HI_HI : Fld := ⟨0, 16⟩
/-- `CSC.REFRESH_LO` (R384). -/
def CSC.REFRESH_LO : Nat := 0x60428
def CSC.REFRESH_LO_LO : Fld := ⟨0, 32⟩
/-- `CSC.REFRESH_HI` (R384). -/
def CSC.REFRESH_HI : Nat := 0x6042C
def CSC.REFRESH_HI_WRAP : Fld := ⟨31, 1⟩
def CSC.REFRESH_HI_HI : Fld := ⟨0, 16⟩
/-- `CSC.ABANDONED_LO` (R384). -/
def CSC.ABANDONED_LO : Nat := 0x60430
def CSC.ABANDONED_LO_LO : Fld := ⟨0, 32⟩
/-- `CSC.ABANDONED_HI` (R384). -/
def CSC.ABANDONED_HI : Nat := 0x60434
def CSC.ABANDONED_HI_WRAP : Fld := ⟨31, 1⟩
def CSC.ABANDONED_HI_HI : Fld := ⟨0, 16⟩
/-- `CHK.CTX_CTL` (R328). -/
def CHK.CTX_CTL (i : Nat) : Nat := 0x70200 + 0x40 * i
def CHK.CTX_CTL_PERIOD_TICKS : Fld := ⟨16, 16⟩
def CHK.CTX_CTL_SPACE : Fld := ⟨11, 3⟩
def CHK.CTX_CTL_REBASE : Fld := ⟨10, 1⟩
def CHK.CTX_CTL_MODE : Fld := ⟨8, 2⟩
def CHK.CTX_CTL_POLY : Fld := ⟨4, 3⟩
def CHK.CTX_CTL_ABORT : Fld := ⟨3, 1⟩
def CHK.CTX_CTL_PAUSE : Fld := ⟨2, 1⟩
def CHK.CTX_CTL_RESUME : Fld := ⟨1, 1⟩
def CHK.CTX_CTL_START : Fld := ⟨0, 1⟩
/-- `CHK.CTX_STS` (R329). -/
def CHK.CTX_STS (i : Nat) : Nat := 0x70204 + 0x40 * i
def CHK.CTX_STS_CORRECTED : Fld := ⟨16, 16⟩
def CHK.CTX_STS_UNCORR : Fld := ⟨7, 1⟩
def CHK.CTX_STS_EXPECT_PAR : Fld := ⟨6, 1⟩
def CHK.CTX_STS_OUTCOME : Fld := ⟨4, 2⟩
def CHK.CTX_STS_STATE : Fld := ⟨0, 3⟩
/-- `CHK.START_ADDR_LO` (R328). -/
def CHK.START_ADDR_LO (i : Nat) : Nat := 0x70208 + 0x40 * i
def CHK.START_ADDR_LO_V : Fld := ⟨0, 32⟩
/-- `CHK.START_ADDR_HI` (R328). -/
def CHK.START_ADDR_HI (i : Nat) : Nat := 0x7020C + 0x40 * i
def CHK.START_ADDR_HI_V : Fld := ⟨0, 8⟩
/-- `CHK.LENGTH_LO` (R328). -/
def CHK.LENGTH_LO (i : Nat) : Nat := 0x70210 + 0x40 * i
def CHK.LENGTH_LO_V : Fld := ⟨0, 32⟩
/-- `CHK.LENGTH_HI` (R328). -/
def CHK.LENGTH_HI (i : Nat) : Nat := 0x70214 + 0x40 * i
def CHK.LENGTH_HI_V : Fld := ⟨0, 8⟩
/-- `CHK.EXPECT_LO` (R328). -/
def CHK.EXPECT_LO (i : Nat) : Nat := 0x70218 + 0x40 * i
def CHK.EXPECT_LO_V : Fld := ⟨0, 32⟩
/-- `CHK.EXPECT_HI` (R328). -/
def CHK.EXPECT_HI (i : Nat) : Nat := 0x7021C + 0x40 * i
def CHK.EXPECT_HI_V : Fld := ⟨0, 32⟩
/-- `CHK.LAST_LO` (R329). -/
def CHK.LAST_LO (i : Nat) : Nat := 0x70220 + 0x40 * i
def CHK.LAST_LO_V : Fld := ⟨0, 32⟩
/-- `CHK.LAST_HI` (R329). -/
def CHK.LAST_HI (i : Nat) : Nat := 0x70224 + 0x40 * i
def CHK.LAST_HI_V : Fld := ⟨0, 32⟩
/-- `CHK.RUNNING_LO` (R328). -/
def CHK.RUNNING_LO (i : Nat) : Nat := 0x70228 + 0x40 * i
def CHK.RUNNING_LO_V : Fld := ⟨0, 32⟩
/-- `CHK.RUNNING_HI` (R328). -/
def CHK.RUNNING_HI (i : Nat) : Nat := 0x7022C + 0x40 * i
def CHK.RUNNING_HI_V : Fld := ⟨0, 32⟩
/-- `CHK.DONE_LO` (R328). -/
def CHK.DONE_LO (i : Nat) : Nat := 0x70230 + 0x40 * i
def CHK.DONE_LO_V : Fld := ⟨0, 32⟩
/-- `CHK.DONE_HI` (R328). -/
def CHK.DONE_HI (i : Nat) : Nat := 0x70234 + 0x40 * i
def CHK.DONE_HI_V : Fld := ⟨0, 8⟩
/-- `CHK.FAIL_ADDR_LO` (R330). -/
def CHK.FAIL_ADDR_LO (i : Nat) : Nat := 0x70238 + 0x40 * i
def CHK.FAIL_ADDR_LO_V : Fld := ⟨0, 32⟩
/-- `CHK.FAIL_ADDR_HI` (R330). -/
def CHK.FAIL_ADDR_HI (i : Nat) : Nat := 0x7023C + 0x40 * i
def CHK.FAIL_ADDR_HI_V : Fld := ⟨0, 8⟩
/-- `CHK.CHECK_ONLY_LO` (R318). -/
def CHK.CHECK_ONLY_LO (i : Nat) : Nat := 0x70800 + 0x40 * i
def CHK.CHECK_ONLY_LO_LO : Fld := ⟨0, 32⟩
/-- `CHK.CHECK_ONLY_HI` (R318). -/
def CHK.CHECK_ONLY_HI (i : Nat) : Nat := 0x70804 + 0x40 * i
def CHK.CHECK_ONLY_HI_WRAP : Fld := ⟨31, 1⟩
def CHK.CHECK_ONLY_HI_HI : Fld := ⟨0, 16⟩
/-- `CHK.ECC_CORR_LO` (R318). -/
def CHK.ECC_CORR_LO (i : Nat) : Nat := 0x70808 + 0x40 * i
def CHK.ECC_CORR_LO_LO : Fld := ⟨0, 32⟩
/-- `CHK.ECC_CORR_HI` (R318). -/
def CHK.ECC_CORR_HI (i : Nat) : Nat := 0x7080C + 0x40 * i
def CHK.ECC_CORR_HI_WRAP : Fld := ⟨31, 1⟩
def CHK.ECC_CORR_HI_HI : Fld := ⟨0, 16⟩
/-- `CHK.POISONED_LO` (R318). -/
def CHK.POISONED_LO (i : Nat) : Nat := 0x70810 + 0x40 * i
def CHK.POISONED_LO_LO : Fld := ⟨0, 32⟩
/-- `CHK.POISONED_HI` (R318). -/
def CHK.POISONED_HI (i : Nat) : Nat := 0x70814 + 0x40 * i
def CHK.POISONED_HI_WRAP : Fld := ⟨31, 1⟩
def CHK.POISONED_HI_HI : Fld := ⟨0, 16⟩
/-- `CHK.MISPLACED_LO` (R318). -/
def CHK.MISPLACED_LO (i : Nat) : Nat := 0x70818 + 0x40 * i
def CHK.MISPLACED_LO_LO : Fld := ⟨0, 32⟩
/-- `CHK.MISPLACED_HI` (R318). -/
def CHK.MISPLACED_HI (i : Nat) : Nat := 0x7081C + 0x40 * i
def CHK.MISPLACED_HI_WRAP : Fld := ⟨31, 1⟩
def CHK.MISPLACED_HI_HI : Fld := ⟨0, 16⟩
/-- `CHK.ECC_UNCORR_LO` (R318). -/
def CHK.ECC_UNCORR_LO (i : Nat) : Nat := 0x70820 + 0x40 * i
def CHK.ECC_UNCORR_LO_LO : Fld := ⟨0, 32⟩
/-- `CHK.ECC_UNCORR_HI` (R318). -/
def CHK.ECC_UNCORR_HI (i : Nat) : Nat := 0x70824 + 0x40 * i
def CHK.ECC_UNCORR_HI_WRAP : Fld := ⟨31, 1⟩
def CHK.ECC_UNCORR_HI_HI : Fld := ⟨0, 16⟩
/-- `CHK.SRAM_UNCORR_LO` (R325). -/
def CHK.SRAM_UNCORR_LO : Nat := 0x70A00
def CHK.SRAM_UNCORR_LO_LO : Fld := ⟨0, 32⟩
/-- `CHK.SRAM_UNCORR_HI` (R325). -/
def CHK.SRAM_UNCORR_HI : Nat := 0x70A04
def CHK.SRAM_UNCORR_HI_WRAP : Fld := ⟨31, 1⟩
def CHK.SRAM_UNCORR_HI_HI : Fld := ⟨0, 16⟩
/-- `CHK.FCS_BAD_LO` (R316). -/
def CHK.FCS_BAD_LO (i : Nat) : Nat := 0x71000 + 0x8 * i
def CHK.FCS_BAD_LO_LO : Fld := ⟨0, 32⟩
/-- `CHK.FCS_BAD_HI` (R316). -/
def CHK.FCS_BAD_HI (i : Nat) : Nat := 0x71004 + 0x8 * i
def CHK.FCS_BAD_HI_WRAP : Fld := ⟨31, 1⟩
def CHK.FCS_BAD_HI_HI : Fld := ⟨0, 16⟩
/-- `PMC.CTL` (R440). -/
def PMC.CTL : Nat := 0x80100
def PMC.CTL_FREEZE : Fld := ⟨0, 1⟩
/-- `PMC.CFG` (R437). -/
def PMC.CFG (i : Nat) : Nat := 0x80200 + 0x20 * i
def PMC.CFG_ENABLE : Fld := ⟨31, 1⟩
def PMC.CFG_OVF_EVT : Fld := ⟨30, 1⟩
def PMC.CFG_MODE : Fld := ⟨28, 2⟩
def PMC.CFG_ALL : Fld := ⟨8, 1⟩
def PMC.CFG_EVENT : Fld := ⟨0, 8⟩
/-- `PMC.INST` (R437). -/
def PMC.INST (i : Nat) : Nat := 0x80204 + 0x20 * i
def PMC.INST_INSTANCE : Fld := ⟨0, 20⟩
/-- `PMC.THRESH` (R437). -/
def PMC.THRESH (i : Nat) : Nat := 0x80208 + 0x20 * i
def PMC.THRESH_THRESH : Fld := ⟨0, 32⟩
/-- `PMC.CNT_LO` (R437). -/
def PMC.CNT_LO (i : Nat) : Nat := 0x8020C + 0x20 * i
def PMC.CNT_LO_CNT : Fld := ⟨0, 32⟩
/-- `PMC.CNT_HI` (R437). -/
def PMC.CNT_HI (i : Nat) : Nat := 0x80210 + 0x20 * i
def PMC.CNT_HI_OVF : Fld := ⟨31, 1⟩
def PMC.CNT_HI_CNT : Fld := ⟨0, 16⟩
/-- `PMC.SNAP_LO` (R435). -/
def PMC.SNAP_LO (i : Nat) : Nat := 0x80214 + 0x20 * i
def PMC.SNAP_LO_CNT : Fld := ⟨0, 32⟩
/-- `PMC.SNAP_HI` (R435). -/
def PMC.SNAP_HI (i : Nat) : Nat := 0x80218 + 0x20 * i
def PMC.SNAP_HI_OVF : Fld := ⟨31, 1⟩
def PMC.SNAP_HI_CNT : Fld := ⟨0, 16⟩
/-- `FRD.DRAIN_COUNT` (R81). -/
def FRD.DRAIN_COUNT (n : Nat) : Nat := (0x10 + n) * 0x10000 + 0x100
def FRD.DRAIN_COUNT_CNT : Fld := ⟨0, 16⟩
/-- `FRD.SWAP_GAP` (R83). -/
def FRD.SWAP_GAP (n : Nat) : Nat := (0x10 + n) * 0x10000 + 0x104
def FRD.SWAP_GAP_TO_ACTIVE : Fld := ⟨16, 10⟩
def FRD.SWAP_GAP_TO_VERIFIED : Fld := ⟨0, 10⟩
/-- `FRD.LATENCY` (R69). -/
def FRD.LATENCY (n : Nat) : Nat := (0x10 + n) * 0x10000 + 0x108
def FRD.LATENCY_PARSE_CYCLES : Fld := ⟨16, 10⟩
def FRD.LATENCY_FROND_CYCLES : Fld := ⟨0, 10⟩
/-- `FRD.CAL_CTL` (R57). -/
def FRD.CAL_CTL (n : Nat) : Nat := (0x10 + n) * 0x10000 + 0x10C
def FRD.CAL_CTL_COMMIT_FAIL : Fld := ⟨1, 1⟩
def FRD.CAL_CTL_COMMIT : Fld := ⟨0, 1⟩
/-- `FRD.ENTERED_LO` (R81). -/
def FRD.ENTERED_LO (n : Nat) : Nat := (0x10 + n) * 0x10000 + 0x140
def FRD.ENTERED_LO_LO : Fld := ⟨0, 32⟩
/-- `FRD.ENTERED_HI` (R81). -/
def FRD.ENTERED_HI (n : Nat) : Nat := (0x10 + n) * 0x10000 + 0x144
def FRD.ENTERED_HI_HI : Fld := ⟨0, 16⟩
/-- `FRD.BUBBLES_LO` (R81). -/
def FRD.BUBBLES_LO (n : Nat) : Nat := (0x10 + n) * 0x10000 + 0x148
def FRD.BUBBLES_LO_LO : Fld := ⟨0, 32⟩
/-- `FRD.BUBBLES_HI` (R81). -/
def FRD.BUBBLES_HI (n : Nat) : Nat := (0x10 + n) * 0x10000 + 0x14C
def FRD.BUBBLES_HI_HI : Fld := ⟨0, 16⟩
/-- `FRD.PROG_DROP_LO` (R81). -/
def FRD.PROG_DROP_LO (n : Nat) : Nat := (0x10 + n) * 0x10000 + 0x150
def FRD.PROG_DROP_LO_LO : Fld := ⟨0, 32⟩
/-- `FRD.PROG_DROP_HI` (R81). -/
def FRD.PROG_DROP_HI (n : Nat) : Nat := (0x10 + n) * 0x10000 + 0x154
def FRD.PROG_DROP_HI_HI : Fld := ⟨0, 16⟩
/-- `FRD.DISP_RESERVED_LO` (R81). -/
def FRD.DISP_RESERVED_LO (n : Nat) : Nat := (0x10 + n) * 0x10000 + 0x158
def FRD.DISP_RESERVED_LO_LO : Fld := ⟨0, 32⟩
/-- `FRD.DISP_RESERVED_HI` (R81). -/
def FRD.DISP_RESERVED_HI (n : Nat) : Nat := (0x10 + n) * 0x10000 + 0x15C
def FRD.DISP_RESERVED_HI_HI : Fld := ⟨0, 16⟩
/-- `FRD.EXPIRED_LO` (R81). -/
def FRD.EXPIRED_LO (n : Nat) : Nat := (0x10 + n) * 0x10000 + 0x160
def FRD.EXPIRED_LO_LO : Fld := ⟨0, 32⟩
/-- `FRD.EXPIRED_HI` (R81). -/
def FRD.EXPIRED_HI (n : Nat) : Nat := (0x10 + n) * 0x10000 + 0x164
def FRD.EXPIRED_HI_HI : Fld := ⟨0, 16⟩
/-- `FRD.RECIRC_LIMIT_LO` (R81). -/
def FRD.RECIRC_LIMIT_LO (n : Nat) : Nat := (0x10 + n) * 0x10000 + 0x168
def FRD.RECIRC_LIMIT_LO_LO : Fld := ⟨0, 32⟩
/-- `FRD.RECIRC_LIMIT_HI` (R81). -/
def FRD.RECIRC_LIMIT_HI (n : Nat) : Nat := (0x10 + n) * 0x10000 + 0x16C
def FRD.RECIRC_LIMIT_HI_HI : Fld := ⟨0, 16⟩
/-- `FRD.RECIRC_FULL_LO` (R81). -/
def FRD.RECIRC_FULL_LO (n : Nat) : Nat := (0x10 + n) * 0x10000 + 0x170
def FRD.RECIRC_FULL_LO_LO : Fld := ⟨0, 32⟩
/-- `FRD.RECIRC_FULL_HI` (R81). -/
def FRD.RECIRC_FULL_HI (n : Nat) : Nat := (0x10 + n) * 0x10000 + 0x174
def FRD.RECIRC_FULL_HI_HI : Fld := ⟨0, 16⟩
/-- `FRD.LAYOUT_DROP_LO` (R81). -/
def FRD.LAYOUT_DROP_LO (n : Nat) : Nat := (0x10 + n) * 0x10000 + 0x178
def FRD.LAYOUT_DROP_LO_LO : Fld := ⟨0, 32⟩
/-- `FRD.LAYOUT_DROP_HI` (R81). -/
def FRD.LAYOUT_DROP_HI (n : Nat) : Nat := (0x10 + n) * 0x10000 + 0x17C
def FRD.LAYOUT_DROP_HI_HI : Fld := ⟨0, 16⟩
/-- `FRD.CNT_WRAP` (R443). -/
def FRD.CNT_WRAP (n : Nat) : Nat := (0x10 + n) * 0x10000 + 0x180
def FRD.CNT_WRAP_WRAP : Fld := ⟨0, 8⟩
/-- `FRD.CAL_SHADOW` (R57). -/
def FRD.CAL_SHADOW (n i : Nat) : Nat := (0x10 + n) * 0x10000 + 0x200 + 0x4 * i
def FRD.CAL_SHADOW_SEC1 : Fld := ⟨24, 6⟩
def FRD.CAL_SHADOW_PRI1 : Fld := ⟨16, 6⟩
def FRD.CAL_SHADOW_SEC0 : Fld := ⟨8, 6⟩
def FRD.CAL_SHADOW_PRI0 : Fld := ⟨0, 6⟩
/-- `FRD.CAL_ACTIVE` (R57). -/
def FRD.CAL_ACTIVE (n i : Nat) : Nat := (0x10 + n) * 0x10000 + 0x300 + 0x4 * i
def FRD.CAL_ACTIVE_SEC1 : Fld := ⟨24, 6⟩
def FRD.CAL_ACTIVE_PRI1 : Fld := ⟨16, 6⟩
def FRD.CAL_ACTIVE_SEC0 : Fld := ⟨8, 6⟩
def FRD.CAL_ACTIVE_PRI0 : Fld := ⟨0, 6⟩
/-- `PRS.RANGE_CTL` (R110). -/
def PRS.RANGE_CTL : Nat := 0x200100
def PRS.RANGE_CTL_COMMIT : Fld := ⟨0, 1⟩
/-- `PRS.MAL_ACTION` (R107). -/
def PRS.MAL_ACTION (i : Nat) : Nat := 0x200200 + 0x4 * i
def PRS.MAL_ACTION_RING_EG : Fld := ⟨24, 5⟩
def PRS.MAL_ACTION_RING_IN : Fld := ⟨16, 5⟩
def PRS.MAL_ACTION_ACT_EG : Fld := ⟨8, 2⟩
def PRS.MAL_ACTION_ACT_IN : Fld := ⟨0, 2⟩
/-- `PRS.RANGE_SHADOW_LOHI` (R109). -/
def PRS.RANGE_SHADOW_LOHI (i : Nat) : Nat := 0x200400 + 0x8 * i
def PRS.RANGE_SHADOW_LOHI_HI : Fld := ⟨16, 16⟩
def PRS.RANGE_SHADOW_LOHI_LO : Fld := ⟨0, 16⟩
/-- `PRS.RANGE_SHADOW_SRC` (R109). -/
def PRS.RANGE_SHADOW_SRC (i : Nat) : Nat := 0x200404 + 0x8 * i
def PRS.RANGE_SHADOW_SRC_ENABLE : Fld := ⟨31, 1⟩
def PRS.RANGE_SHADOW_SRC_SOURCE : Fld := ⟨0, 2⟩
/-- `PRS.RANGE_ACTIVE_LOHI` (R109). -/
def PRS.RANGE_ACTIVE_LOHI (i : Nat) : Nat := 0x200600 + 0x8 * i
def PRS.RANGE_ACTIVE_LOHI_HI : Fld := ⟨16, 16⟩
def PRS.RANGE_ACTIVE_LOHI_LO : Fld := ⟨0, 16⟩
/-- `PRS.RANGE_ACTIVE_SRC` (R109). -/
def PRS.RANGE_ACTIVE_SRC (i : Nat) : Nat := 0x200604 + 0x8 * i
def PRS.RANGE_ACTIVE_SRC_ENABLE : Fld := ⟨31, 1⟩
def PRS.RANGE_ACTIVE_SRC_SOURCE : Fld := ⟨0, 2⟩
/-- `PRS.MAL_CNT_IN_LO` (R108). -/
def PRS.MAL_CNT_IN_LO (i : Nat) : Nat := 0x200800 + 0x8 * i
def PRS.MAL_CNT_IN_LO_LO : Fld := ⟨0, 32⟩
/-- `PRS.MAL_CNT_IN_HI` (R108). -/
def PRS.MAL_CNT_IN_HI (i : Nat) : Nat := 0x200804 + 0x8 * i
def PRS.MAL_CNT_IN_HI_WRAP : Fld := ⟨31, 1⟩
def PRS.MAL_CNT_IN_HI_HI : Fld := ⟨0, 16⟩
/-- `PRS.MAL_CNT_EG_LO` (R108). -/
def PRS.MAL_CNT_EG_LO (i : Nat) : Nat := 0x200A00 + 0x8 * i
def PRS.MAL_CNT_EG_LO_LO : Fld := ⟨0, 32⟩
/-- `PRS.MAL_CNT_EG_HI` (R108). -/
def PRS.MAL_CNT_EG_HI (i : Nat) : Nat := 0x200A04 + 0x8 * i
def PRS.MAL_CNT_EG_HI_WRAP : Fld := ⟨31, 1⟩
def PRS.MAL_CNT_EG_HI_HI : Fld := ⟨0, 16⟩
/-- `PRS.DEPTH_IN_HDR_LO` (R105). -/
def PRS.DEPTH_IN_HDR_LO : Nat := 0x200C00
def PRS.DEPTH_IN_HDR_LO_LO : Fld := ⟨0, 32⟩
/-- `PRS.DEPTH_IN_HDR_HI` (R105). -/
def PRS.DEPTH_IN_HDR_HI : Nat := 0x200C04
def PRS.DEPTH_IN_HDR_HI_WRAP : Fld := ⟨31, 1⟩
def PRS.DEPTH_IN_HDR_HI_HI : Fld := ⟨0, 16⟩
/-- `PRS.DEPTH_IN_WIN_LO` (R105). -/
def PRS.DEPTH_IN_WIN_LO : Nat := 0x200C08
def PRS.DEPTH_IN_WIN_LO_LO : Fld := ⟨0, 32⟩
/-- `PRS.DEPTH_IN_WIN_HI` (R105). -/
def PRS.DEPTH_IN_WIN_HI : Nat := 0x200C0C
def PRS.DEPTH_IN_WIN_HI_WRAP : Fld := ⟨31, 1⟩
def PRS.DEPTH_IN_WIN_HI_HI : Fld := ⟨0, 16⟩
/-- `PRS.DEPTH_EG_HDR_LO` (R105). -/
def PRS.DEPTH_EG_HDR_LO : Nat := 0x200C10
def PRS.DEPTH_EG_HDR_LO_LO : Fld := ⟨0, 32⟩
/-- `PRS.DEPTH_EG_HDR_HI` (R105). -/
def PRS.DEPTH_EG_HDR_HI : Nat := 0x200C14
def PRS.DEPTH_EG_HDR_HI_WRAP : Fld := ⟨31, 1⟩
def PRS.DEPTH_EG_HDR_HI_HI : Fld := ⟨0, 16⟩
/-- `PRS.DEPTH_EG_WIN_LO` (R105). -/
def PRS.DEPTH_EG_WIN_LO : Nat := 0x200C18
def PRS.DEPTH_EG_WIN_LO_LO : Fld := ⟨0, 32⟩
/-- `PRS.DEPTH_EG_WIN_HI` (R105). -/
def PRS.DEPTH_EG_WIN_HI : Nat := 0x200C1C
def PRS.DEPTH_EG_WIN_HI_WRAP : Fld := ⟨31, 1⟩
def PRS.DEPTH_EG_WIN_HI_HI : Fld := ⟨0, 16⟩
/-- `PRS.ADV_REFUSED_LO` (R105). -/
def PRS.ADV_REFUSED_LO : Nat := 0x200C20
def PRS.ADV_REFUSED_LO_LO : Fld := ⟨0, 32⟩
/-- `PRS.ADV_REFUSED_HI` (R105). -/
def PRS.ADV_REFUSED_HI : Nat := 0x200C24
def PRS.ADV_REFUSED_HI_WRAP : Fld := ⟨31, 1⟩
def PRS.ADV_REFUSED_HI_HI : Fld := ⟨0, 16⟩
/-- `PRS.STAGE` (R93). -/
def PRS.STAGE (i : Nat) : Nat := 0x201000 + 0x4 * i
def PRS.STAGE_MTU : Fld := ⟨16, 15⟩
def PRS.STAGE_SHARE : Fld := ⟨0, 9⟩
/-- `PRS.STAGE_FULL_LO` (R92). -/
def PRS.STAGE_FULL_LO (i : Nat) : Nat := 0x202000 + 0x18 * i
def PRS.STAGE_FULL_LO_LO : Fld := ⟨0, 32⟩
/-- `PRS.STAGE_FULL_HI` (R92). -/
def PRS.STAGE_FULL_HI (i : Nat) : Nat := 0x202004 + 0x18 * i
def PRS.STAGE_FULL_HI_WRAP : Fld := ⟨31, 1⟩
def PRS.STAGE_FULL_HI_HI : Fld := ⟨0, 16⟩
/-- `PRS.OVERSIZE_LO` (R92). -/
def PRS.OVERSIZE_LO (i : Nat) : Nat := 0x202008 + 0x18 * i
def PRS.OVERSIZE_LO_LO : Fld := ⟨0, 32⟩
/-- `PRS.OVERSIZE_HI` (R92). -/
def PRS.OVERSIZE_HI (i : Nat) : Nat := 0x20200C + 0x18 * i
def PRS.OVERSIZE_HI_WRAP : Fld := ⟨31, 1⟩
def PRS.OVERSIZE_HI_HI : Fld := ⟨0, 16⟩
/-- `PRS.BRIDGE_LIMIT_LO` (R92). -/
def PRS.BRIDGE_LIMIT_LO (i : Nat) : Nat := 0x202010 + 0x18 * i
def PRS.BRIDGE_LIMIT_LO_LO : Fld := ⟨0, 32⟩
/-- `PRS.BRIDGE_LIMIT_HI` (R92). -/
def PRS.BRIDGE_LIMIT_HI (i : Nat) : Nat := 0x202014 + 0x18 * i
def PRS.BRIDGE_LIMIT_HI_WRAP : Fld := ⟨31, 1⟩
def PRS.BRIDGE_LIMIT_HI_HI : Fld := ⟨0, 16⟩
/-- `PAY.CTL` (R116). -/
def PAY.CTL : Nat := 0x210100
def PAY.CTL_ENABLE : Fld := ⟨3, 1⟩
def PAY.CTL_ACTIVE_SET : Fld := ⟨2, 1⟩
def PAY.CTL_COMMIT_FAIL : Fld := ⟨1, 1⟩
def PAY.CTL_COMMIT : Fld := ⟨0, 1⟩
/-- `PAY.SHADOW_BYTES` (R116). -/
def PAY.SHADOW_BYTES : Nat := 0x210104
def PAY.SHADOW_BYTES_BYTES : Fld := ⟨0, 18⟩
/-- `PAY.PAT_INDEX` (R117). -/
def PAY.PAT_INDEX : Nat := 0x210108
def PAY.PAT_INDEX_INDEX : Fld := ⟨0, 13⟩
/-- `PAY.PAT_CMD` (R117). -/
def PAY.PAT_CMD : Nat := 0x21010C
def PAY.PAT_CMD_COPY : Fld := ⟨2, 1⟩
def PAY.PAT_CMD_READ : Fld := ⟨1, 1⟩
def PAY.PAT_CMD_WRITE : Fld := ⟨0, 1⟩
/-- `PAY.PAT_W0` (R117). -/
def PAY.PAT_W0 : Nat := 0x210110
def PAY.PAT_W0_OFFSET_MAX : Fld := ⟨24, 8⟩
def PAY.PAT_W0_OFFSET_MIN : Fld := ⟨16, 8⟩
def PAY.PAT_W0_VALID : Fld := ⟨15, 1⟩
def PAY.PAT_W0_NOCASE : Fld := ⟨12, 1⟩
def PAY.PAT_W0_GROUP : Fld := ⟨8, 3⟩
def PAY.PAT_W0_LEN : Fld := ⟨0, 6⟩
/-- `PAY.PAT_W` (R117). -/
def PAY.PAT_W (i : Nat) : Nat := 0x210114 + 0x4 * i
def PAY.PAT_W_BYTES : Fld := ⟨0, 32⟩
/-- `PAY.SCANNED_LO` (R114). -/
def PAY.SCANNED_LO : Nat := 0x210140
def PAY.SCANNED_LO_LO : Fld := ⟨0, 32⟩
/-- `PAY.SCANNED_HI` (R114). -/
def PAY.SCANNED_HI : Nat := 0x210144
def PAY.SCANNED_HI_WRAP : Fld := ⟨31, 1⟩
def PAY.SCANNED_HI_HI : Fld := ⟨0, 16⟩
/-- `PAY.HITS_LO` (R114). -/
def PAY.HITS_LO : Nat := 0x210148
def PAY.HITS_LO_LO : Fld := ⟨0, 32⟩
/-- `PAY.HITS_HI` (R114). -/
def PAY.HITS_HI : Nat := 0x21014C
def PAY.HITS_HI_WRAP : Fld := ⟨31, 1⟩
def PAY.HITS_HI_HI : Fld := ⟨0, 16⟩
/-- `PAY.MULTIS_LO` (R114). -/
def PAY.MULTIS_LO : Nat := 0x210150
def PAY.MULTIS_LO_LO : Fld := ⟨0, 32⟩
/-- `PAY.MULTIS_HI` (R114). -/
def PAY.MULTIS_HI : Nat := 0x210154
def PAY.MULTIS_HI_WRAP : Fld := ⟨31, 1⟩
def PAY.MULTIS_HI_HI : Fld := ⟨0, 16⟩
/-- `LKP.PART_CTL` (R120). -/
def LKP.PART_CTL : Nat := 0x220100
def LKP.PART_CTL_COMMIT_FAIL : Fld := ⟨1, 1⟩
def LKP.PART_CTL_COMMIT : Fld := ⟨0, 1⟩
/-- `LKP.PART_SHADOW_0` (R120). -/
def LKP.PART_SHADOW_0 (i : Nat) : Nat := 0x220140 + 0x4 * i
def LKP.PART_SHADOW_0_CLASSES : Fld := ⟨0, 32⟩
/-- `LKP.PART_SHADOW_6` (R120). -/
def LKP.PART_SHADOW_6 (i : Nat) : Nat := 0x220158 + 0x4 * i
def LKP.PART_SHADOW_6_CLASSES : Fld := ⟨0, 32⟩
/-- `LKP.PART_SHADOW_10` (R120). -/
def LKP.PART_SHADOW_10 (i : Nat) : Nat := 0x220168 + 0x4 * i
def LKP.PART_SHADOW_10_CLASSES : Fld := ⟨0, 32⟩
/-- `LKP.PART_SHADOW_11` (R120). -/
def LKP.PART_SHADOW_11 (i : Nat) : Nat := 0x22016C + 0x4 * i
def LKP.PART_SHADOW_11_CLASSES : Fld := ⟨0, 32⟩
/-- `LKP.PART_ACTIVE_0` (R120). -/
def LKP.PART_ACTIVE_0 (i : Nat) : Nat := 0x220180 + 0x4 * i
def LKP.PART_ACTIVE_0_CLASSES : Fld := ⟨0, 32⟩
/-- `LKP.PART_ACTIVE_6` (R120). -/
def LKP.PART_ACTIVE_6 (i : Nat) : Nat := 0x220198 + 0x4 * i
def LKP.PART_ACTIVE_6_CLASSES : Fld := ⟨0, 32⟩
/-- `LKP.PART_ACTIVE_10` (R120). -/
def LKP.PART_ACTIVE_10 (i : Nat) : Nat := 0x2201A8 + 0x4 * i
def LKP.PART_ACTIVE_10_CLASSES : Fld := ⟨0, 32⟩
/-- `LKP.PART_ACTIVE_11` (R120). -/
def LKP.PART_ACTIVE_11 (i : Nat) : Nat := 0x2201AC + 0x4 * i
def LKP.PART_ACTIVE_11_CLASSES : Fld := ⟨0, 32⟩
/-- `LKP.OP_CTL` (R135). -/
def LKP.OP_CTL : Nat := 0x220200
def LKP.OP_CTL_GO : Fld := ⟨31, 1⟩
def LKP.OP_CTL_PREFIX_LEN : Fld := ⟨16, 8⟩
def LKP.OP_CTL_IMAGE : Fld := ⟨9, 1⟩
def LKP.OP_CTL_STATIC : Fld := ⟨8, 1⟩
def LKP.OP_CTL_OP : Fld := ⟨0, 8⟩
/-- `LKP.OP_TABLE` (R136). -/
def LKP.OP_TABLE : Nat := 0x220204
def LKP.OP_TABLE_TABLE_ID : Fld := ⟨0, 16⟩
/-- `LKP.OP_KEY` (R136). -/
def LKP.OP_KEY (i : Nat) : Nat := 0x220208 + 0x4 * i
def LKP.OP_KEY_KEY : Fld := ⟨0, 32⟩
/-- `LKP.OP_DATA` (R136). -/
def LKP.OP_DATA (i : Nat) : Nat := 0x220220 + 0x4 * i
def LKP.OP_DATA_DATA : Fld := ⟨0, 32⟩
/-- `LKP.OP_STS` (R136). -/
def LKP.OP_STS : Nat := 0x220240
def LKP.OP_STS_STATIC : Fld := ⟨16, 1⟩
def LKP.OP_STS_RESULT : Fld := ⟨8, 8⟩
def LKP.OP_STS_STATE : Fld := ⟨0, 2⟩
/-- `LRN.JOURNAL_BASE_LO` (R141). -/
def LRN.JOURNAL_BASE_LO : Nat := 0x230100
def LRN.JOURNAL_BASE_LO_ADDR : Fld := ⟨12, 20⟩
/-- `LRN.JOURNAL_BASE_HI` (R141). -/
def LRN.JOURNAL_BASE_HI : Nat := 0x230104
def LRN.JOURNAL_BASE_HI_ADDR : Fld := ⟨0, 8⟩
/-- `LRN.NOTICE_SEQ` (R141). -/
def LRN.NOTICE_SEQ : Nat := 0x230108
def LRN.NOTICE_SEQ_SEQ : Fld := ⟨0, 32⟩
/-- `LRN.FIFO_LEVEL` (R137). -/
def LRN.FIFO_LEVEL : Nat := 0x23010C
def LRN.FIFO_LEVEL_LEVEL : Fld := ⟨0, 15⟩
/-- `LRN.TBL_CFG` (R138). -/
def LRN.TBL_CFG (i : Nat) : Nat := 0x230200 + 0x10 * i
def LRN.TBL_CFG_MOVE_LIMIT : Fld := ⟨24, 8⟩
def LRN.TBL_CFG_MODE : Fld := ⟨16, 2⟩
def LRN.TBL_CFG_TABLE_ID : Fld := ⟨0, 16⟩
/-- `LRN.TBL_SRC` (R137). -/
def LRN.TBL_SRC (i : Nat) : Nat := 0x230204 + 0x10 * i
def LRN.TBL_SRC_BIT : Fld := ⟨9, 5⟩
def LRN.TBL_SRC_CONTAINER : Fld := ⟨0, 9⟩
/-- `LRN.TBL_LIMIT` (R148). -/
def LRN.TBL_LIMIT (i : Nat) : Nat := 0x230208 + 0x10 * i
def LRN.TBL_LIMIT_LIMIT : Fld := ⟨0, 22⟩
/-- `LRN.TBL_AGE` (R142). -/
def LRN.TBL_AGE (i : Nat) : Nat := 0x23020C + 0x10 * i
def LRN.TBL_AGE_ENABLE : Fld := ⟨31, 1⟩
def LRN.TBL_AGE_AGE_TICKS : Fld := ⟨0, 20⟩
/-- `LRN.TBL_FILL` (R137). -/
def LRN.TBL_FILL (i : Nat) : Nat := 0x230280 + 0x4 * i
def LRN.TBL_FILL_FILL : Fld := ⟨0, 20⟩
/-- `LRN.TBL_COUNT` (R148). -/
def LRN.TBL_COUNT (i : Nat) : Nat := 0x2302C0 + 0x4 * i
def LRN.TBL_COUNT_COUNT : Fld := ⟨0, 22⟩
/-- `LRN.C_LEARNED_LO` (R138). -/
def LRN.C_LEARNED_LO (i : Nat) : Nat := 0x230400 + 0x80 * i
def LRN.C_LEARNED_LO_LO : Fld := ⟨0, 32⟩
/-- `LRN.C_LEARNED_HI` (R138). -/
def LRN.C_LEARNED_HI (i : Nat) : Nat := 0x230404 + 0x80 * i
def LRN.C_LEARNED_HI_WRAP : Fld := ⟨31, 1⟩
def LRN.C_LEARNED_HI_HI : Fld := ⟨0, 16⟩
/-- `LRN.C_MOVED_LO` (R138). -/
def LRN.C_MOVED_LO (i : Nat) : Nat := 0x230408 + 0x80 * i
def LRN.C_MOVED_LO_LO : Fld := ⟨0, 32⟩
/-- `LRN.C_MOVED_HI` (R138). -/
def LRN.C_MOVED_HI (i : Nat) : Nat := 0x23040C + 0x80 * i
def LRN.C_MOVED_HI_WRAP : Fld := ⟨31, 1⟩
def LRN.C_MOVED_HI_HI : Fld := ⟨0, 16⟩
/-- `LRN.C_MOVE_BLOCKED_LO` (R138). -/
def LRN.C_MOVE_BLOCKED_LO (i : Nat) : Nat := 0x230410 + 0x80 * i
def LRN.C_MOVE_BLOCKED_LO_LO : Fld := ⟨0, 32⟩
/-- `LRN.C_MOVE_BLOCKED_HI` (R138). -/
def LRN.C_MOVE_BLOCKED_HI (i : Nat) : Nat := 0x230414 + 0x80 * i
def LRN.C_MOVE_BLOCKED_HI_WRAP : Fld := ⟨31, 1⟩
def LRN.C_MOVE_BLOCKED_HI_HI : Fld := ⟨0, 16⟩
/-- `LRN.C_AGED_LO` (R138). -/
def LRN.C_AGED_LO (i : Nat) : Nat := 0x230418 + 0x80 * i
def LRN.C_AGED_LO_LO : Fld := ⟨0, 32⟩
/-- `LRN.C_AGED_HI` (R138). -/
def LRN.C_AGED_HI (i : Nat) : Nat := 0x23041C + 0x80 * i
def LRN.C_AGED_HI_WRAP : Fld := ⟨31, 1⟩
def LRN.C_AGED_HI_HI : Fld := ⟨0, 16⟩
/-- `LRN.C_LIMIT_LO` (R138). -/
def LRN.C_LIMIT_LO (i : Nat) : Nat := 0x230420 + 0x80 * i
def LRN.C_LIMIT_LO_LO : Fld := ⟨0, 32⟩
/-- `LRN.C_LIMIT_HI` (R138). -/
def LRN.C_LIMIT_HI (i : Nat) : Nat := 0x230424 + 0x80 * i
def LRN.C_LIMIT_HI_WRAP : Fld := ⟨31, 1⟩
def LRN.C_LIMIT_HI_HI : Fld := ⟨0, 16⟩
/-- `LRN.C_NO_ROOM_LO` (R138). -/
def LRN.C_NO_ROOM_LO (i : Nat) : Nat := 0x230428 + 0x80 * i
def LRN.C_NO_ROOM_LO_LO : Fld := ⟨0, 32⟩
/-- `LRN.C_NO_ROOM_HI` (R138). -/
def LRN.C_NO_ROOM_HI (i : Nat) : Nat := 0x23042C + 0x80 * i
def LRN.C_NO_ROOM_HI_WRAP : Fld := ⟨31, 1⟩
def LRN.C_NO_ROOM_HI_HI : Fld := ⟨0, 16⟩
/-- `LRN.C_DUP_LO` (R138). -/
def LRN.C_DUP_LO (i : Nat) : Nat := 0x230430 + 0x80 * i
def LRN.C_DUP_LO_LO : Fld := ⟨0, 32⟩
/-- `LRN.C_DUP_HI` (R138). -/
def LRN.C_DUP_HI (i : Nat) : Nat := 0x230434 + 0x80 * i
def LRN.C_DUP_HI_WRAP : Fld := ⟨31, 1⟩
def LRN.C_DUP_HI_HI : Fld := ⟨0, 16⟩
/-- `LRN.C_FIFO_FULL_LO` (R138). -/
def LRN.C_FIFO_FULL_LO (i : Nat) : Nat := 0x230438 + 0x80 * i
def LRN.C_FIFO_FULL_LO_LO : Fld := ⟨0, 32⟩
/-- `LRN.C_FIFO_FULL_HI` (R138). -/
def LRN.C_FIFO_FULL_HI (i : Nat) : Nat := 0x23043C + 0x80 * i
def LRN.C_FIFO_FULL_HI_WRAP : Fld := ⟨31, 1⟩
def LRN.C_FIFO_FULL_HI_HI : Fld := ⟨0, 16⟩
/-- `LRN.C_NOTICE_DROP_LO` (R138). -/
def LRN.C_NOTICE_DROP_LO (i : Nat) : Nat := 0x230440 + 0x80 * i
def LRN.C_NOTICE_DROP_LO_LO : Fld := ⟨0, 32⟩
/-- `LRN.C_NOTICE_DROP_HI` (R138). -/
def LRN.C_NOTICE_DROP_HI (i : Nat) : Nat := 0x230444 + 0x80 * i
def LRN.C_NOTICE_DROP_HI_WRAP : Fld := ⟨31, 1⟩
def LRN.C_NOTICE_DROP_HI_HI : Fld := ⟨0, 16⟩
/-- `LRN.C_FLAP_LO` (R138). -/
def LRN.C_FLAP_LO (i : Nat) : Nat := 0x230448 + 0x80 * i
def LRN.C_FLAP_LO_LO : Fld := ⟨0, 32⟩
/-- `LRN.C_FLAP_HI` (R138). -/
def LRN.C_FLAP_HI (i : Nat) : Nat := 0x23044C + 0x80 * i
def LRN.C_FLAP_HI_WRAP : Fld := ⟨31, 1⟩
def LRN.C_FLAP_HI_HI : Fld := ⟨0, 16⟩
/-- `SHD.CTL` (R146). -/
def SHD.CTL : Nat := 0x240100
def SHD.CTL_REPAIR : Fld := ⟨1, 1⟩
def SHD.CTL_ENABLE : Fld := ⟨0, 1⟩
/-- `SHD.WALK` (R145). -/
def SHD.WALK : Nat := 0x240104
def SHD.WALK_TICKS : Fld := ⟨0, 20⟩
/-- `SHD.AREA_BASE_LO` (R144). -/
def SHD.AREA_BASE_LO : Nat := 0x240108
def SHD.AREA_BASE_LO_ADDR : Fld := ⟨12, 20⟩
/-- `SHD.AREA_BASE_HI` (R144). -/
def SHD.AREA_BASE_HI : Nat := 0x24010C
def SHD.AREA_BASE_HI_ADDR : Fld := ⟨0, 8⟩
/-- `SHD.REBASE` (R144). -/
def SHD.REBASE : Nat := 0x240110
def SHD.REBASE_FIRST : Fld := ⟨16, 16⟩
def SHD.REBASE_TABLE_ID : Fld := ⟨0, 16⟩
/-- `SHD.REBASE_END` (R144). -/
def SHD.REBASE_END : Nat := 0x240114
def SHD.REBASE_END_LAST : Fld := ⟨0, 16⟩
/-- `SHD.TBL` (R145). -/
def SHD.TBL (i : Nat) : Nat := 0x240140 + 0x4 * i
def SHD.TBL_ENABLE : Fld := ⟨31, 1⟩
def SHD.TBL_EXCLUDE_DYNAMIC : Fld := ⟨16, 1⟩
def SHD.TBL_TABLE_ID : Fld := ⟨0, 16⟩
/-- `SHD.MISMATCH` (R146). -/
def SHD.MISMATCH : Nat := 0x240180
def SHD.MISMATCH_BLOCK : Fld := ⟨18, 14⟩
def SHD.MISMATCH_COPY : Fld := ⟨16, 2⟩
def SHD.MISMATCH_TABLE_ID : Fld := ⟨0, 16⟩
/-- `SHD.MISMATCH_VALID` (R146). -/
def SHD.MISMATCH_VALID : Nat := 0x240184
def SHD.MISMATCH_VALID_VALID : Fld := ⟨0, 1⟩
/-- `SHD.MISMATCH_CNT_LO` (R145). -/
def SHD.MISMATCH_CNT_LO : Nat := 0x240200
def SHD.MISMATCH_CNT_LO_LO : Fld := ⟨0, 32⟩
/-- `SHD.MISMATCH_CNT_HI` (R145). -/
def SHD.MISMATCH_CNT_HI : Nat := 0x240204
def SHD.MISMATCH_CNT_HI_WRAP : Fld := ⟨31, 1⟩
def SHD.MISMATCH_CNT_HI_HI : Fld := ⟨0, 16⟩
/-- `SHD.DEFERRED_CNT_LO` (R145). -/
def SHD.DEFERRED_CNT_LO : Nat := 0x240208
def SHD.DEFERRED_CNT_LO_LO : Fld := ⟨0, 32⟩
/-- `SHD.DEFERRED_CNT_HI` (R145). -/
def SHD.DEFERRED_CNT_HI : Nat := 0x24020C
def SHD.DEFERRED_CNT_HI_WRAP : Fld := ⟨31, 1⟩
def SHD.DEFERRED_CNT_HI_HI : Fld := ⟨0, 16⟩
/-- `SHD.REPAIRED_CNT_LO` (R145). -/
def SHD.REPAIRED_CNT_LO : Nat := 0x240210
def SHD.REPAIRED_CNT_LO_LO : Fld := ⟨0, 32⟩
/-- `SHD.REPAIRED_CNT_HI` (R145). -/
def SHD.REPAIRED_CNT_HI : Nat := 0x240214
def SHD.REPAIRED_CNT_HI_WRAP : Fld := ⟨31, 1⟩
def SHD.REPAIRED_CNT_HI_HI : Fld := ⟨0, 16⟩
/-- `TCM.CTL` (R172). -/
def TCM.CTL : Nat := 0x250100
def TCM.CTL_AUTO_REPAIR : Fld := ⟨1, 1⟩
def TCM.CTL_SCRUB_EN : Fld := ⟨0, 1⟩
/-- `TCM.SCRUB` (R172). -/
def TCM.SCRUB : Nat := 0x250104
def TCM.SCRUB_TICKS : Fld := ⟨0, 16⟩
/-- `TCM.GROUP_STS` (R168). -/
def TCM.GROUP_STS : Nat := 0x250108
def TCM.GROUP_STS_CLEANUP : Fld := ⟨16, 16⟩
def TCM.GROUP_STS_PENDING : Fld := ⟨0, 16⟩
/-- `TCM.OP_CTL` (R175). -/
def TCM.OP_CTL : Nat := 0x25010C
def TCM.OP_CTL_GO : Fld := ⟨31, 1⟩
def TCM.OP_CTL_GROUP : Fld := ⟨14, 4⟩
def TCM.OP_CTL_IMAGE : Fld := ⟨11, 1⟩
def TCM.OP_CTL_DEFER : Fld := ⟨10, 1⟩
def TCM.OP_CTL_OP : Fld := ⟨0, 8⟩
/-- `TCM.OP_TABLE` (R175). -/
def TCM.OP_TABLE : Nat := 0x250110
def TCM.OP_TABLE_TABLE_ID : Fld := ⟨0, 16⟩
/-- `TCM.OP_HANDLE` (R175). -/
def TCM.OP_HANDLE : Nat := 0x250114
def TCM.OP_HANDLE_HANDLE : Fld := ⟨0, 20⟩
/-- `TCM.OP_PRIO` (R175). -/
def TCM.OP_PRIO : Nat := 0x250118
def TCM.OP_PRIO_PRIORITY : Fld := ⟨0, 24⟩
/-- `TCM.OP_ACTION` (R175). -/
def TCM.OP_ACTION : Nat := 0x25011C
def TCM.OP_ACTION_ACTION : Fld := ⟨0, 32⟩
/-- `TCM.OP_STS` (R175). -/
def TCM.OP_STS : Nat := 0x250120
def TCM.OP_STS_RESULT : Fld := ⟨8, 8⟩
def TCM.OP_STS_STATE : Fld := ⟨0, 2⟩
/-- `TCM.OP_LOC` (R175). -/
def TCM.OP_LOC : Nat := 0x250124
def TCM.OP_LOC_STATE : Fld := ⟨19, 2⟩
def TCM.OP_LOC_ROW : Fld := ⟨6, 13⟩
def TCM.OP_LOC_GROUP : Fld := ⟨0, 6⟩
/-- `TCM.OP_KEY` (R175). -/
def TCM.OP_KEY (i : Nat) : Nat := 0x250140 + 0x4 * i
def TCM.OP_KEY_KEY : Fld := ⟨0, 32⟩
/-- `TCM.OP_MASK` (R175). -/
def TCM.OP_MASK (i : Nat) : Nat := 0x250190 + 0x4 * i
def TCM.OP_MASK_MASK : Fld := ⟨0, 32⟩
/-- `TCM.STEP_CTL` (R170). -/
def TCM.STEP_CTL : Nat := 0x250200
def TCM.STEP_CTL_STOP : Fld := ⟨2, 1⟩
def TCM.STEP_CTL_NEXT : Fld := ⟨1, 1⟩
def TCM.STEP_CTL_START : Fld := ⟨0, 1⟩
/-- `TCM.STEP_TABLE` (R170). -/
def TCM.STEP_TABLE : Nat := 0x250204
def TCM.STEP_TABLE_IMAGE : Fld := ⟨16, 1⟩
def TCM.STEP_TABLE_TABLE_ID : Fld := ⟨0, 16⟩
/-- `TCM.STEP_STS` (R170). -/
def TCM.STEP_STS : Nat := 0x250208
def TCM.STEP_STS_FOUND : Fld := ⟨3, 1⟩
def TCM.STEP_STS_RESTARTED : Fld := ⟨2, 1⟩
def TCM.STEP_STS_DONE : Fld := ⟨1, 1⟩
def TCM.STEP_STS_BUSY : Fld := ⟨0, 1⟩
/-- `TCM.STEP_HANDLE` (R170). -/
def TCM.STEP_HANDLE : Nat := 0x25020C
def TCM.STEP_HANDLE_HANDLE : Fld := ⟨0, 20⟩
/-- `TCM.STEP_PRIO` (R170). -/
def TCM.STEP_PRIO : Nat := 0x250210
def TCM.STEP_PRIO_PRIO : Fld := ⟨0, 24⟩
/-- `TCM.STEP_ACTION` (R170). -/
def TCM.STEP_ACTION : Nat := 0x250214
def TCM.STEP_ACTION_ACTION : Fld := ⟨0, 32⟩
/-- `TCM.STEP_POS` (R170). -/
def TCM.STEP_POS : Nat := 0x250218
def TCM.STEP_POS_ROW : Fld := ⟨6, 13⟩
def TCM.STEP_POS_GROUP : Fld := ⟨0, 6⟩
/-- `TCM.STEP_KEY` (R170). -/
def TCM.STEP_KEY (i : Nat) : Nat := 0x250240 + 0x4 * i
def TCM.STEP_KEY_KEY : Fld := ⟨0, 32⟩
/-- `TCM.BANK_STS` (R173). -/
def TCM.BANK_STS (i : Nat) : Nat := 0x250300 + 0x4 * i
def TCM.BANK_STS_RETIRED : Fld := ⟨8, 13⟩
def TCM.BANK_STS_NO_SPARE : Fld := ⟨7, 1⟩
def TCM.BANK_STS_SPARES : Fld := ⟨0, 7⟩
/-- `TCM.FALSE_HIT_CNT_LO` (R159). -/
def TCM.FALSE_HIT_CNT_LO : Nat := 0x250400
def TCM.FALSE_HIT_CNT_LO_LO : Fld := ⟨0, 32⟩
/-- `TCM.FALSE_HIT_CNT_HI` (R159). -/
def TCM.FALSE_HIT_CNT_HI : Nat := 0x250404
def TCM.FALSE_HIT_CNT_HI_WRAP : Fld := ⟨31, 1⟩
def TCM.FALSE_HIT_CNT_HI_HI : Fld := ⟨0, 16⟩
/-- `TCM.COPY_ERR_CNT_LO` (R159). -/
def TCM.COPY_ERR_CNT_LO : Nat := 0x250408
def TCM.COPY_ERR_CNT_LO_LO : Fld := ⟨0, 32⟩
/-- `TCM.COPY_ERR_CNT_HI` (R159). -/
def TCM.COPY_ERR_CNT_HI : Nat := 0x25040C
def TCM.COPY_ERR_CNT_HI_WRAP : Fld := ⟨31, 1⟩
def TCM.COPY_ERR_CNT_HI_HI : Fld := ⟨0, 16⟩
/-- `TCM.SCRUB_FIX_CNT_LO` (R159). -/
def TCM.SCRUB_FIX_CNT_LO : Nat := 0x250410
def TCM.SCRUB_FIX_CNT_LO_LO : Fld := ⟨0, 32⟩
/-- `TCM.SCRUB_FIX_CNT_HI` (R159). -/
def TCM.SCRUB_FIX_CNT_HI : Nat := 0x250414
def TCM.SCRUB_FIX_CNT_HI_WRAP : Fld := ⟨31, 1⟩
def TCM.SCRUB_FIX_CNT_HI_HI : Fld := ⟨0, 16⟩
/-- `TCM.REPAIRED_CNT_LO` (R159). -/
def TCM.REPAIRED_CNT_LO : Nat := 0x250418
def TCM.REPAIRED_CNT_LO_LO : Fld := ⟨0, 32⟩
/-- `TCM.REPAIRED_CNT_HI` (R159). -/
def TCM.REPAIRED_CNT_HI : Nat := 0x25041C
def TCM.REPAIRED_CNT_HI_WRAP : Fld := ⟨31, 1⟩
def TCM.REPAIRED_CNT_HI_HI : Fld := ⟨0, 16⟩
/-- `TCM.RETIRED_CNT_LO` (R159). -/
def TCM.RETIRED_CNT_LO : Nat := 0x250420
def TCM.RETIRED_CNT_LO_LO : Fld := ⟨0, 32⟩
/-- `TCM.RETIRED_CNT_HI` (R159). -/
def TCM.RETIRED_CNT_HI : Nat := 0x250424
def TCM.RETIRED_CNT_HI_WRAP : Fld := ⟨31, 1⟩
def TCM.RETIRED_CNT_HI_HI : Fld := ⟨0, 16⟩
/-- `TCM.STEP_RESTART_CNT_LO` (R159). -/
def TCM.STEP_RESTART_CNT_LO : Nat := 0x250428
def TCM.STEP_RESTART_CNT_LO_LO : Fld := ⟨0, 32⟩
/-- `TCM.STEP_RESTART_CNT_HI` (R159). -/
def TCM.STEP_RESTART_CNT_HI : Nat := 0x25042C
def TCM.STEP_RESTART_CNT_HI_WRAP : Fld := ⟨31, 1⟩
def TCM.STEP_RESTART_CNT_HI_HI : Fld := ⟨0, 16⟩
/-- `LIN.LANE_CFG` (R277). -/
def LIN.LANE_CFG (n i : Nat) : Nat := (0x30 + n) * 0x10000 + 0x100 + 0x4 * i
def LIN.LANE_CFG_ENABLE : Fld := ⟨31, 1⟩
def LIN.LANE_CFG_RETRAIN : Fld := ⟨8, 1⟩
def LIN.LANE_CFG_TRAIN : Fld := ⟨6, 1⟩
def LIN.LANE_CFG_TX_INV : Fld := ⟨5, 1⟩
def LIN.LANE_CFG_RX_INV : Fld := ⟨4, 1⟩
def LIN.LANE_CFG_RATE : Fld := ⟨0, 3⟩
/-- `LIN.LANE_STS` (R277). -/
def LIN.LANE_STS (n i : Nat) : Nat := (0x30 + n) * 0x10000 + 0x120 + 0x4 * i
def LIN.LANE_STS_OWNER : Fld := ⟨16, 2⟩
def LIN.LANE_STS_RETRAINS : Fld := ⟨8, 8⟩
def LIN.LANE_STS_LOL : Fld := ⟨5, 1⟩
def LIN.LANE_STS_LOS : Fld := ⟨4, 1⟩
def LIN.LANE_STS_STATE : Fld := ⟨0, 3⟩
/-- `LIN.MAC_CFG` (R283). -/
def LIN.MAC_CFG (n i : Nat) : Nat := (0x30 + n) * 0x10000 + 0x200 + 0x20 * i
def LIN.MAC_CFG_ENABLE : Fld := ⟨31, 1⟩
def LIN.MAC_CFG_BIND : Fld := ⟨29, 2⟩
def LIN.MAC_CFG_MODE : Fld := ⟨24, 5⟩
def LIN.MAC_CFG_FIRST_LANE : Fld := ⟨20, 3⟩
def LIN.MAC_CFG_FEC : Fld := ⟨18, 2⟩
def LIN.MAC_CFG_CLIENT : Fld := ⟨8, 6⟩
def LIN.MAC_CFG_GROUP : Fld := ⟨0, 3⟩
/-- `LIN.MAC_PAUSE` (R287). -/
def LIN.MAC_PAUSE (n i : Nat) : Nat := (0x30 + n) * 0x10000 + 0x204 + 0x20 * i
def LIN.MAC_PAUSE_TX_QUANTA : Fld := ⟨16, 16⟩
def LIN.MAC_PAUSE_TX_CLASS_EN : Fld := ⟨8, 8⟩
def LIN.MAC_PAUSE_UNTAG_CLASS : Fld := ⟨5, 3⟩
def LIN.MAC_PAUSE_TX_MODE : Fld := ⟨2, 2⟩
def LIN.MAC_PAUSE_RX_MODE : Fld := ⟨0, 2⟩
/-- `LIN.MAC_PFC_THR` (R289). -/
def LIN.MAC_PFC_THR (n i : Nat) : Nat := (0x30 + n) * 0x10000 + 0x208 + 0x20 * i
def LIN.MAC_PFC_THR_XON : Fld := ⟨16, 16⟩
def LIN.MAC_PFC_THR_XOFF : Fld := ⟨0, 16⟩
/-- `LIN.MAC_SA_LO` (R287). -/
def LIN.MAC_SA_LO (n i : Nat) : Nat := (0x30 + n) * 0x10000 + 0x20C + 0x20 * i
def LIN.MAC_SA_LO_SA : Fld := ⟨0, 32⟩
/-- `LIN.MAC_SA_HI` (R287). -/
def LIN.MAC_SA_HI (n i : Nat) : Nat := (0x30 + n) * 0x10000 + 0x210 + 0x20 * i
def LIN.MAC_SA_HI_SA : Fld := ⟨0, 16⟩
/-- `LIN.MAC_DEF` (R305). -/
def LIN.MAC_DEF (n i : Nat) : Nat := (0x30 + n) * 0x10000 + 0x214 + 0x20 * i
def LIN.MAC_DEF_REPORTED : Fld := ⟨16, 16⟩
def LIN.MAC_DEF_RAW : Fld := ⟨0, 16⟩
/-- `LIN.MAC_STS` (R286). -/
def LIN.MAC_STS (n i : Nat) : Nat := (0x30 + n) * 0x10000 + 0x218 + 0x20 * i
def LIN.MAC_STS_XOFF : Fld := ⟨16, 8⟩
def LIN.MAC_STS_PFC_HELD : Fld := ⟨8, 8⟩
def LIN.MAC_STS_PAUSED : Fld := ⟨2, 1⟩
def LIN.MAC_STS_CFG_FAIL : Fld := ⟨1, 1⟩
def LIN.MAC_STS_UP : Fld := ⟨0, 1⟩
/-- `LIN.LPORT_MAP` (R280). -/
def LIN.LPORT_MAP (n i : Nat) : Nat := (0x30 + n) * 0x10000 + 0x400 + 0x4 * i
def LIN.LPORT_MAP_CONTEXT : Fld := ⟨18, 6⟩
def LIN.LPORT_MAP_CLIENT : Fld := ⟨12, 6⟩
def LIN.LPORT_MAP_GROUP : Fld := ⟨8, 3⟩
def LIN.LPORT_MAP_MAC : Fld := ⟨4, 4⟩
def LIN.LPORT_MAP_KIND : Fld := ⟨0, 2⟩
/-- `LIN.LPORT_SPEED` (R281). -/
def LIN.LPORT_SPEED (n i : Nat) : Nat := (0x30 + n) * 0x10000 + 0x500 + 0x4 * i
def LIN.LPORT_SPEED_UP : Fld := ⟨31, 1⟩
def LIN.LPORT_SPEED_SPEED : Fld := ⟨0, 9⟩
/-- `LIN.CAGE_CFG` (R307). -/
def LIN.CAGE_CFG (n i : Nat) : Nat := (0x30 + n) * 0x10000 + 0x600 + 0x4 * i
def LIN.CAGE_CFG_ENABLE : Fld := ⟨31, 1⟩
def LIN.CAGE_CFG_LANES : Fld := ⟨25, 4⟩
def LIN.CAGE_CFG_FIRST_LANE : Fld := ⟨22, 3⟩
def LIN.CAGE_CFG_MUX_CHAN : Fld := ⟨19, 3⟩
def LIN.CAGE_CFG_MUX_ADDR : Fld := ⟨12, 7⟩
def LIN.CAGE_CFG_PIN_GROUP : Fld := ⟨10, 2⟩
def LIN.CAGE_CFG_EXP_ADDR : Fld := ⟨3, 7⟩
def LIN.CAGE_CFG_I2C : Fld := ⟨0, 3⟩
/-- `LIN.CAGE_STS` (R307). -/
def LIN.CAGE_STS (n i : Nat) : Nat := (0x30 + n) * 0x10000 + 0x620 + 0x4 * i
def LIN.CAGE_STS_CMIS_REV : Fld := ⟨24, 8⟩
def LIN.CAGE_STS_RESULT : Fld := ⟨16, 4⟩
def LIN.CAGE_STS_APSEL : Fld := ⟨8, 4⟩
def LIN.CAGE_STS_MODULE_STATE : Fld := ⟨4, 3⟩
def LIN.CAGE_STS_INT : Fld := ⟨1, 1⟩
def LIN.CAGE_STS_PRESENT : Fld := ⟨0, 1⟩
/-- `LIN.MAC_FEC_CORR_CW` (R284). -/
def LIN.MAC_FEC_CORR_CW (n i : Nat) : Nat := (0x30 + n) * 0x10000 + 0x1000 + 0x20 * i
def LIN.MAC_FEC_CORR_CW_CNT : Fld := ⟨0, 32⟩
/-- `LIN.MAC_FEC_UNCORR_CW` (R284). -/
def LIN.MAC_FEC_UNCORR_CW (n i : Nat) : Nat := (0x30 + n) * 0x10000 + 0x1004 + 0x20 * i
def LIN.MAC_FEC_UNCORR_CW_CNT : Fld := ⟨0, 32⟩
/-- `LIN.MAC_FEC_CORR_SYM` (R284). -/
def LIN.MAC_FEC_CORR_SYM (n i : Nat) : Nat := (0x30 + n) * 0x10000 + 0x1008 + 0x20 * i
def LIN.MAC_FEC_CORR_SYM_CNT : Fld := ⟨0, 32⟩
/-- `LIN.MAC_BIP` (R284). -/
def LIN.MAC_BIP (n i : Nat) : Nat := (0x30 + n) * 0x10000 + 0x100C + 0x20 * i
def LIN.MAC_BIP_CNT : Fld := ⟨0, 32⟩
/-- `LIN.MAC_SAT` (R443). -/
def LIN.MAC_SAT (n i : Nat) : Nat := (0x30 + n) * 0x10000 + 0x1010 + 0x20 * i
def LIN.MAC_SAT_SAT : Fld := ⟨0, 4⟩
/-- `LIN.RX_PAUSE_LO` (R287). -/
def LIN.RX_PAUSE_LO (n i : Nat) : Nat := (0x30 + n) * 0x10000 + 0x2000 + 0x30 * i
def LIN.RX_PAUSE_LO_LO : Fld := ⟨0, 32⟩
/-- `LIN.RX_PAUSE_HI` (R287). -/
def LIN.RX_PAUSE_HI (n i : Nat) : Nat := (0x30 + n) * 0x10000 + 0x2004 + 0x30 * i
def LIN.RX_PAUSE_HI_WRAP : Fld := ⟨31, 1⟩
def LIN.RX_PAUSE_HI_HI : Fld := ⟨0, 16⟩
/-- `LIN.RX_PFC_LO` (R287). -/
def LIN.RX_PFC_LO (n i : Nat) : Nat := (0x30 + n) * 0x10000 + 0x2008 + 0x30 * i
def LIN.RX_PFC_LO_LO : Fld := ⟨0, 32⟩
/-- `LIN.RX_PFC_HI` (R287). -/
def LIN.RX_PFC_HI (n i : Nat) : Nat := (0x30 + n) * 0x10000 + 0x200C + 0x30 * i
def LIN.RX_PFC_HI_WRAP : Fld := ⟨31, 1⟩
def LIN.RX_PFC_HI_HI : Fld := ⟨0, 16⟩
/-- `LIN.TX_PAUSE_LO` (R287). -/
def LIN.TX_PAUSE_LO (n i : Nat) : Nat := (0x30 + n) * 0x10000 + 0x2010 + 0x30 * i
def LIN.TX_PAUSE_LO_LO : Fld := ⟨0, 32⟩
/-- `LIN.TX_PAUSE_HI` (R287). -/
def LIN.TX_PAUSE_HI (n i : Nat) : Nat := (0x30 + n) * 0x10000 + 0x2014 + 0x30 * i
def LIN.TX_PAUSE_HI_WRAP : Fld := ⟨31, 1⟩
def LIN.TX_PAUSE_HI_HI : Fld := ⟨0, 16⟩
/-- `LIN.TX_PFC_LO` (R287). -/
def LIN.TX_PFC_LO (n i : Nat) : Nat := (0x30 + n) * 0x10000 + 0x2018 + 0x30 * i
def LIN.TX_PFC_LO_LO : Fld := ⟨0, 32⟩
/-- `LIN.TX_PFC_HI` (R287). -/
def LIN.TX_PFC_HI (n i : Nat) : Nat := (0x30 + n) * 0x10000 + 0x201C + 0x30 * i
def LIN.TX_PFC_HI_WRAP : Fld := ⟨31, 1⟩
def LIN.TX_PFC_HI_HI : Fld := ⟨0, 16⟩
/-- `LIN.PAUSE_OTHER_LO` (R287). -/
def LIN.PAUSE_OTHER_LO (n i : Nat) : Nat := (0x30 + n) * 0x10000 + 0x2020 + 0x30 * i
def LIN.PAUSE_OTHER_LO_LO : Fld := ⟨0, 32⟩
/-- `LIN.PAUSE_OTHER_HI` (R287). -/
def LIN.PAUSE_OTHER_HI (n i : Nat) : Nat := (0x30 + n) * 0x10000 + 0x2024 + 0x30 * i
def LIN.PAUSE_OTHER_HI_WRAP : Fld := ⟨31, 1⟩
def LIN.PAUSE_OTHER_HI_HI : Fld := ⟨0, 16⟩
/-- `LIN.DOWN_DROP_LO` (R286). -/
def LIN.DOWN_DROP_LO (n i : Nat) : Nat := (0x30 + n) * 0x10000 + 0x2800 + 0x8 * i
def LIN.DOWN_DROP_LO_LO : Fld := ⟨0, 32⟩
/-- `LIN.DOWN_DROP_HI` (R286). -/
def LIN.DOWN_DROP_HI (n i : Nat) : Nat := (0x30 + n) * 0x10000 + 0x2804 + 0x8 * i
def LIN.DOWN_DROP_HI_WRAP : Fld := ⟨31, 1⟩
def LIN.DOWN_DROP_HI_HI : Fld := ⟨0, 16⟩
/-- `LIN.EGF_CFG` (R208). -/
def LIN.EGF_CFG (n i : Nat) : Nat := (0x30 + n) * 0x10000 + 0x3000 + 0x4 * i
def LIN.EGF_CFG_CT_WORDS : Fld := ⟨20, 9⟩
def LIN.EGF_CFG_MODE : Fld := ⟨16, 2⟩
def LIN.EGF_CFG_SHARE : Fld := ⟨0, 11⟩
/-- `LIN.EGF_STS` (R213). -/
def LIN.EGF_STS (n i : Nat) : Nat := (0x30 + n) * 0x10000 + 0x3080 + 0x4 * i
def LIN.EGF_STS_VIOL : Fld := ⟨31, 1⟩
def LIN.EGF_STS_CT_ACTIVE : Fld := ⟨30, 1⟩
def LIN.EGF_STS_PACKETS : Fld := ⟨16, 14⟩
def LIN.EGF_STS_WORDS : Fld := ⟨0, 16⟩
/-- `LIN.EGF_UNDERRUN_LO` (R210). -/
def LIN.EGF_UNDERRUN_LO (n i : Nat) : Nat := (0x30 + n) * 0x10000 + 0x3400 + 0x18 * i
def LIN.EGF_UNDERRUN_LO_LO : Fld := ⟨0, 32⟩
/-- `LIN.EGF_UNDERRUN_HI` (R210). -/
def LIN.EGF_UNDERRUN_HI (n i : Nat) : Nat := (0x30 + n) * 0x10000 + 0x3404 + 0x18 * i
def LIN.EGF_UNDERRUN_HI_WRAP : Fld := ⟨31, 1⟩
def LIN.EGF_UNDERRUN_HI_HI : Fld := ⟨0, 16⟩
/-- `LIN.EGF_GROWTH_LO` (R210). -/
def LIN.EGF_GROWTH_LO (n i : Nat) : Nat := (0x30 + n) * 0x10000 + 0x3408 + 0x18 * i
def LIN.EGF_GROWTH_LO_LO : Fld := ⟨0, 32⟩
/-- `LIN.EGF_GROWTH_HI` (R210). -/
def LIN.EGF_GROWTH_HI (n i : Nat) : Nat := (0x30 + n) * 0x10000 + 0x340C + 0x18 * i
def LIN.EGF_GROWTH_HI_WRAP : Fld := ⟨31, 1⟩
def LIN.EGF_GROWTH_HI_HI : Fld := ⟨0, 16⟩
/-- `LIN.EGF_VIOL_LO` (R210). -/
def LIN.EGF_VIOL_LO (n i : Nat) : Nat := (0x30 + n) * 0x10000 + 0x3410 + 0x18 * i
def LIN.EGF_VIOL_LO_LO : Fld := ⟨0, 32⟩
/-- `LIN.EGF_VIOL_HI` (R210). -/
def LIN.EGF_VIOL_HI (n i : Nat) : Nat := (0x30 + n) * 0x10000 + 0x3414 + 0x18 * i
def LIN.EGF_VIOL_HI_WRAP : Fld := ⟨31, 1⟩
def LIN.EGF_VIOL_HI_HI : Fld := ⟨0, 16⟩
/-- `FLX.GRP_CFG` (R290). -/
def FLX.GRP_CFG (i : Nat) : Nat := 0x380100 + 0x80 * i
def FLX.GRP_CFG_ENABLE : Fld := ⟨31, 1⟩
def FLX.GRP_CFG_SPAN : Fld := ⟨30, 1⟩
def FLX.GRP_CFG_GROUP_NUM : Fld := ⟨8, 20⟩
def FLX.GRP_CFG_BASE_SLICE : Fld := ⟨0, 3⟩
/-- `FLX.GRP_CTL` (R295). -/
def FLX.GRP_CTL (i : Nat) : Nat := 0x380104 + 0x80 * i
def FLX.GRP_CTL_RX_CAL : Fld := ⟨3, 1⟩
def FLX.GRP_CTL_CAL_TIMEOUT : Fld := ⟨2, 1⟩
def FLX.GRP_CTL_ACTIVE_CAL : Fld := ⟨1, 1⟩
def FLX.GRP_CTL_CAL_REQ : Fld := ⟨0, 1⟩
/-- `FLX.GRP_DEF` (R305). -/
def FLX.GRP_DEF (i : Nat) : Nat := 0x380108 + 0x80 * i
def FLX.GRP_DEF_REPORTED : Fld := ⟨16, 16⟩
def FLX.GRP_DEF_RAW : Fld := ⟨0, 16⟩
/-- `FLX.GRP_SKEW` (R293). -/
def FLX.GRP_SKEW (i : Nat) : Nat := 0x38010C + 0x80 * i
def FLX.GRP_SKEW_SKEW : Fld := ⟨0, 13⟩
/-- `FLX.PHY_CFG` (R290). -/
def FLX.PHY_CFG (i j : Nat) : Nat := 0x380120 + 0x80 * i + 0x4 * j
def FLX.PHY_CFG_ENABLE : Fld := ⟨31, 1⟩
def FLX.PHY_CFG_MODE : Fld := ⟨21, 5⟩
def FLX.PHY_CFG_SLICE : Fld := ⟨14, 1⟩
def FLX.PHY_CFG_FIRST_LANE : Fld := ⟨11, 3⟩
def FLX.PHY_CFG_PHY_NUM : Fld := ⟨0, 8⟩
/-- `FLX.PHY_DEF` (R305). -/
def FLX.PHY_DEF (i j : Nat) : Nat := 0x380140 + 0x80 * i + 0x4 * j
def FLX.PHY_DEF_REPORTED : Fld := ⟨16, 16⟩
def FLX.PHY_DEF_RAW : Fld := ⟨0, 16⟩
/-- `FLX.CLIENT` (R291). -/
def FLX.CLIENT (i j : Nat) : Nat := 0x380800 + 0x100 * i + 0x4 * j
def FLX.CLIENT_VALID : Fld := ⟨31, 1⟩
def FLX.CLIENT_CLIENT_ID : Fld := ⟨0, 16⟩
/-- `FLX.CLIENT_DEF` (R305). -/
def FLX.CLIENT_DEF (i j : Nat) : Nat := 0x381000 + 0x100 * i + 0x4 * j
def FLX.CLIENT_DEF_REPORTED : Fld := ⟨16, 16⟩
def FLX.CLIENT_DEF_RAW : Fld := ⟨0, 16⟩
/-- `FLX.CAL_A` (R291). -/
def FLX.CAL_A (i j : Nat) : Nat := 0x384000 + 0x1000 * i + 0x4 * j
def FLX.CAL_A_SLOT1 : Fld := ⟨16, 16⟩
def FLX.CAL_A_SLOT0 : Fld := ⟨0, 16⟩
/-- `FLX.CAL_B` (R291). -/
def FLX.CAL_B (i j : Nat) : Nat := 0x384800 + 0x1000 * i + 0x4 * j
def FLX.CAL_B_SLOT1 : Fld := ⟨16, 16⟩
def FLX.CAL_B_SLOT0 : Fld := ⟨0, 16⟩
/-- `FLX.PHY_FEC_CORR_CW` (R310). -/
def FLX.PHY_FEC_CORR_CW (i j : Nat) : Nat := 0x38C000 + 0x100 * i + 0x10 * j
def FLX.PHY_FEC_CORR_CW_CNT : Fld := ⟨0, 32⟩
/-- `FLX.PHY_FEC_UNCORR_CW` (R310). -/
def FLX.PHY_FEC_UNCORR_CW (i j : Nat) : Nat := 0x38C004 + 0x100 * i + 0x10 * j
def FLX.PHY_FEC_UNCORR_CW_CNT : Fld := ⟨0, 32⟩
/-- `FLX.PHY_OH_CRC` (R310). -/
def FLX.PHY_OH_CRC (i j : Nat) : Nat := 0x38C008 + 0x100 * i + 0x10 * j
def FLX.PHY_OH_CRC_CNT : Fld := ⟨0, 32⟩
/-- `FLX.PHY_SAT` (R310). -/
def FLX.PHY_SAT (i j : Nat) : Nat := 0x38C00C + 0x100 * i + 0x10 * j
def FLX.PHY_SAT_SAT : Fld := ⟨0, 3⟩
/-- `OTN.CFG` (R297). -/
def OTN.CFG (i : Nat) : Nat := 0x391000 + 0x100 * i
def OTN.CFG_ENABLE : Fld := ⟨31, 1⟩
def OTN.CFG_TIM_ACT : Fld := ⟨18, 1⟩
def OTN.CFG_TIM_MODE : Fld := ⟨16, 2⟩
def OTN.CFG_EXP_PT : Fld := ⟨8, 8⟩
def OTN.CFG_N : Fld := ⟨2, 4⟩
def OTN.CFG_TYPE : Fld := ⟨0, 2⟩
/-- `OTN.DEF` (R305). -/
def OTN.DEF (i : Nat) : Nat := 0x391004 + 0x100 * i
def OTN.DEF_REPORTED : Fld := ⟨16, 16⟩
def OTN.DEF_RAW : Fld := ⟨0, 16⟩
/-- `OTN.STS` (R298). -/
def OTN.STS (i : Nat) : Nat := 0x391008 + 0x100 * i
def OTN.STS_ACC_PT : Fld := ⟨8, 8⟩
def OTN.STS_CFG_FAIL : Fld := ⟨4, 1⟩
def OTN.STS_PM_TTI : Fld := ⟨3, 1⟩
def OTN.STS_SM_TTI : Fld := ⟨2, 1⟩
def OTN.STS_IN_MF : Fld := ⟨1, 1⟩
def OTN.STS_IN_FRAME : Fld := ⟨0, 1⟩
/-- `OTN.TRIB_DEF` (R305). -/
def OTN.TRIB_DEF (i : Nat) : Nat := 0x391010 + 0x100 * i
def OTN.TRIB_DEF_REPORTED : Fld := ⟨16, 16⟩
def OTN.TRIB_DEF_RAW : Fld := ⟨0, 16⟩
/-- `OTN.SM_BIP` (R300). -/
def OTN.SM_BIP (i : Nat) : Nat := 0x391020 + 0x100 * i
def OTN.SM_BIP_CNT : Fld := ⟨0, 32⟩
/-- `OTN.SM_BEI` (R300). -/
def OTN.SM_BEI (i : Nat) : Nat := 0x391024 + 0x100 * i
def OTN.SM_BEI_CNT : Fld := ⟨0, 32⟩
/-- `OTN.PM_BIP` (R300). -/
def OTN.PM_BIP (i : Nat) : Nat := 0x391028 + 0x100 * i
def OTN.PM_BIP_CNT : Fld := ⟨0, 32⟩
/-- `OTN.PM_BEI` (R300). -/
def OTN.PM_BEI (i : Nat) : Nat := 0x39102C + 0x100 * i
def OTN.PM_BEI_CNT : Fld := ⟨0, 32⟩
/-- `OTN.FEC_CORR` (R300). -/
def OTN.FEC_CORR (i : Nat) : Nat := 0x391030 + 0x100 * i
def OTN.FEC_CORR_CNT : Fld := ⟨0, 32⟩
/-- `OTN.FEC_UNCORR` (R300). -/
def OTN.FEC_UNCORR (i : Nat) : Nat := 0x391034 + 0x100 * i
def OTN.FEC_UNCORR_CNT : Fld := ⟨0, 32⟩
/-- `OTN.TRIB_PM_BIP` (R300). -/
def OTN.TRIB_PM_BIP (i : Nat) : Nat := 0x391038 + 0x100 * i
def OTN.TRIB_PM_BIP_CNT : Fld := ⟨0, 32⟩
/-- `OTN.TRIB_PM_BEI` (R300). -/
def OTN.TRIB_PM_BEI (i : Nat) : Nat := 0x39103C + 0x100 * i
def OTN.TRIB_PM_BEI_CNT : Fld := ⟨0, 32⟩
/-- `OTN.SAT` (R443). -/
def OTN.SAT (i : Nat) : Nat := 0x391040 + 0x100 * i
def OTN.SAT_SAT : Fld := ⟨0, 9⟩
/-- `OTN.GFP_OTHER` (R304). -/
def OTN.GFP_OTHER (i : Nat) : Nat := 0x391044 + 0x100 * i
def OTN.GFP_OTHER_CNT : Fld := ⟨0, 32⟩
/-- `OTN.TX_TTI` (R303). -/
def OTN.TX_TTI (i j : Nat) : Nat := 0x391080 + 0x100 * i + 0x4 * j
def OTN.TX_TTI_TTI : Fld := ⟨0, 32⟩
/-- `OTN.EXP_TTI` (R302). -/
def OTN.EXP_TTI (i j : Nat) : Nat := 0x3910C0 + 0x100 * i + 0x4 * j
def OTN.EXP_TTI_TTI : Fld := ⟨0, 32⟩
/-- `OTN.ACC_TTI` (R302). -/
def OTN.ACC_TTI (i j : Nat) : Nat := 0x395000 + 0x80 * i + 0x4 * j
def OTN.ACC_TTI_TTI : Fld := ⟨0, 32⟩
/-- `AUX.MODE_STS` (R41). -/
def AUX.MODE_STS : Nat := 0x600100
def AUX.MODE_STS_LAST_CAUSE : Fld := ⟨24, 8⟩
def AUX.MODE_STS_DEGRADE_COND : Fld := ⟨16, 5⟩
def AUX.MODE_STS_TRANSITION : Fld := ⟨10, 1⟩
def AUX.MODE_STS_CASCADE_ROLE : Fld := ⟨8, 2⟩
def AUX.MODE_STS_PREV_MODE : Fld := ⟨4, 4⟩
def AUX.MODE_STS_MODE : Fld := ⟨0, 4⟩
/-- `AUX.MODE_REQ` (R41). -/
def AUX.MODE_REQ : Nat := 0x600104
def AUX.MODE_REQ_REQ : Fld := ⟨0, 4⟩
/-- `AUX.MODE_REQ_STS` (R41). -/
def AUX.MODE_REQ_STS : Nat := 0x600108
def AUX.MODE_REQ_STS_REQ_SEQ : Fld := ⟨8, 8⟩
def AUX.MODE_REQ_STS_SOURCE : Fld := ⟨4, 2⟩
def AUX.MODE_REQ_STS_RESULT : Fld := ⟨0, 3⟩
/-- `SVC.CTL` (R459). -/
def SVC.CTL : Nat := 0x610100
def SVC.CTL_NO_DISCOVER : Fld := ⟨3, 1⟩
def SVC.CTL_PEER_EN : Fld := ⟨2, 1⟩
def SVC.CTL_SGMII : Fld := ⟨1, 1⟩
def SVC.CTL_ENABLE : Fld := ⟨0, 1⟩
/-- `SVC.MAC_LO` (R459). -/
def SVC.MAC_LO : Nat := 0x610104
def SVC.MAC_LO_MAC : Fld := ⟨0, 32⟩
/-- `SVC.MAC_HI` (R459). -/
def SVC.MAC_HI : Nat := 0x610108
def SVC.MAC_HI_MAC : Fld := ⟨0, 16⟩
/-- `SVC.PEER_LO` (R459). -/
def SVC.PEER_LO : Nat := 0x61010C
def SVC.PEER_LO_MAC : Fld := ⟨0, 32⟩
/-- `SVC.PEER_HI` (R459). -/
def SVC.PEER_HI : Nat := 0x610110
def SVC.PEER_HI_MAC : Fld := ⟨0, 16⟩
/-- `SVC.STS` (R459). -/
def SVC.STS : Nat := 0x610114
def SVC.STS_PEER_SEEN : Fld := ⟨1, 1⟩
def SVC.STS_LINK_UP : Fld := ⟨0, 1⟩
/-- `SVC.RX_ACCEPTED` (R459). -/
def SVC.RX_ACCEPTED : Nat := 0x610140
def SVC.RX_ACCEPTED_CNT : Fld := ⟨0, 32⟩
/-- `SVC.RX_DISCARDED` (R459). -/
def SVC.RX_DISCARDED : Nat := 0x610144
def SVC.RX_DISCARDED_CNT : Fld := ⟨0, 32⟩
/-- `SVC.TX_RESPONSES` (R459). -/
def SVC.TX_RESPONSES : Nat := 0x610148
def SVC.TX_RESPONSES_CNT : Fld := ⟨0, 32⟩
/-- `SVC.DUPLICATES` (R459). -/
def SVC.DUPLICATES : Nat := 0x61014C
def SVC.DUPLICATES_CNT : Fld := ⟨0, 32⟩
/-- `FWM.UPD_CTL` (R457). -/
def FWM.UPD_CTL : Nat := 0x620100
def FWM.UPD_CTL_TARGET : Fld := ⟨8, 2⟩
def FWM.UPD_CTL_CONFIRM : Fld := ⟨4, 1⟩
def FWM.UPD_CTL_ACTIVATE : Fld := ⟨3, 1⟩
def FWM.UPD_CTL_ABORT : Fld := ⟨2, 1⟩
def FWM.UPD_CTL_FINISH : Fld := ⟨1, 1⟩
def FWM.UPD_CTL_START : Fld := ⟨0, 1⟩
/-- `FWM.UPD_LEN` (R457). -/
def FWM.UPD_LEN : Nat := 0x620104
def FWM.UPD_LEN_LEN : Fld := ⟨0, 26⟩
/-- `FWM.UPD_STS` (R457). -/
def FWM.UPD_STS : Nat := 0x620108
def FWM.UPD_STS_KIB : Fld := ⟨16, 16⟩
def FWM.UPD_STS_REFUSE : Fld := ⟨4, 4⟩
def FWM.UPD_STS_STATE : Fld := ⟨0, 3⟩
/-- `FWM.BOOT_REC` (R454). -/
def FWM.BOOT_REC : Nat := 0x62010C
def FWM.BOOT_REC_REJECTED : Fld := ⟨9, 1⟩
def FWM.BOOT_REC_QUARANTINE : Fld := ⟨8, 1⟩
def FWM.BOOT_REC_SETTINGS_ACTIVE : Fld := ⟨7, 1⟩
def FWM.BOOT_REC_FALLBACK_VALID : Fld := ⟨6, 1⟩
def FWM.BOOT_REC_TRIAL_COUNT : Fld := ⟨4, 2⟩
def FWM.BOOT_REC_TRIAL : Fld := ⟨2, 1⟩
def FWM.BOOT_REC_LAYOUT : Fld := ⟨1, 1⟩
def FWM.BOOT_REC_SELECTED : Fld := ⟨0, 1⟩
/-- `FWM.BOOT_SEQ` (R454). -/
def FWM.BOOT_SEQ : Nat := 0x620110
def FWM.BOOT_SEQ_SEQ : Fld := ⟨0, 32⟩
/-- `FWM.MIN_SVN` (R454). -/
def FWM.MIN_SVN : Nat := 0x620114
def FWM.MIN_SVN_SVN : Fld := ⟨0, 16⟩
/-- `FWM.SLOT_STS` (R453). -/
def FWM.SLOT_STS (i : Nat) : Nat := 0x620118 + 0x4 * i
def FWM.SLOT_STS_CHECK : Fld := ⟨4, 4⟩
def FWM.SLOT_STS_SPAN : Fld := ⟨2, 1⟩
def FWM.SLOT_STS_STATE : Fld := ⟨0, 2⟩
/-- `FWM.FW_VER` (R453). -/
def FWM.FW_VER (i : Nat) : Nat := 0x620120 + 0x4 * i
def FWM.FW_VER_VER : Fld := ⟨0, 32⟩
/-- `FWM.FW_STS` (R470). -/
def FWM.FW_STS : Nat := 0x620128
def FWM.FW_STS_RUNNING_SLOT : Fld := ⟨4, 4⟩
def FWM.FW_STS_TRIAL : Fld := ⟨3, 1⟩
def FWM.FW_STS_QUARANTINE : Fld := ⟨2, 1⟩
def FWM.FW_STS_SETTINGS_INCOMPATIBLE : Fld := ⟨1, 1⟩
def FWM.FW_STS_READY : Fld := ⟨0, 1⟩
/-- `FWM.WDT` (R446). -/
def FWM.WDT : Nat := 0x62012C
def FWM.WDT_KICK : Fld := ⟨31, 1⟩
def FWM.WDT_WDT_MS : Fld := ⟨0, 16⟩
/-- `FWM.SORUS_RINGS` (R447). -/
def FWM.SORUS_RINGS : Nat := 0x620130
def FWM.SORUS_RINGS_RINGS : Fld := ⟨0, 32⟩
/-- `FWM.LEARN_SEQ` (R471). -/
def FWM.LEARN_SEQ : Nat := 0x620134
def FWM.LEARN_SEQ_SEQ : Fld := ⟨0, 32⟩
/-- `FWM.BOOT_STS` (R452). -/
def FWM.BOOT_STS : Nat := 0x620138
def FWM.BOOT_STS_FALLBACK : Fld := ⟨4, 4⟩
def FWM.BOOT_STS_LOADER_CHECK : Fld := ⟨0, 4⟩
/-- `FWM.MB_CMD` (R472). -/
def FWM.MB_CMD : Nat := 0x620140
def FWM.MB_CMD_CMD : Fld := ⟨0, 8⟩
/-- `FWM.MB_ARG0` (R472). -/
def FWM.MB_ARG0 : Nat := 0x620144
def FWM.MB_ARG0_ARG : Fld := ⟨0, 32⟩
/-- `FWM.MB_ARG1` (R472). -/
def FWM.MB_ARG1 : Nat := 0x620148
def FWM.MB_ARG1_ARG : Fld := ⟨0, 32⟩
/-- `FWM.MB_STS` (R472). -/
def FWM.MB_STS : Nat := 0x62014C
def FWM.MB_STS_SOURCE : Fld := ⟨8, 2⟩
def FWM.MB_STS_CODE : Fld := ⟨4, 4⟩
def FWM.MB_STS_STATE : Fld := ⟨0, 2⟩
/-- `FWM.MB_DATA` (R472). -/
def FWM.MB_DATA (i : Nat) : Nat := 0x620180 + 0x4 * i
def FWM.MB_DATA_DATA : Fld := ⟨0, 32⟩
/-- `FWM.WDT_CNT` (R446). -/
def FWM.WDT_CNT : Nat := 0x620200
def FWM.WDT_CNT_CNT : Fld := ⟨0, 32⟩
/-- `FWM.FALLBACK_CNT` (R446). -/
def FWM.FALLBACK_CNT : Nat := 0x620204
def FWM.FALLBACK_CNT_CNT : Fld := ⟨0, 32⟩
/-- `FWM.JOURNAL_LOST` (R446). -/
def FWM.JOURNAL_LOST : Nat := 0x620208
def FWM.JOURNAL_LOST_CNT : Fld := ⟨0, 32⟩
/-- `FWM.HANDOVER_CNT` (R446). -/
def FWM.HANDOVER_CNT : Nat := 0x62020C
def FWM.HANDOVER_CNT_CNT : Fld := ⟨0, 32⟩
/-- `PWR.SLICE_DRAIN` (R488). -/
def PWR.SLICE_DRAIN : Nat := 0x630100
def PWR.SLICE_DRAIN_DRAIN : Fld := ⟨0, 8⟩
/-- `PWR.SLICE_STS` (R488). -/
def PWR.SLICE_STS : Nat := 0x630104
def PWR.SLICE_STS_DRAINED : Fld := ⟨8, 8⟩
def PWR.SLICE_STS_DRAINING : Fld := ⟨0, 8⟩
/-- `PWR.RET_CFG` (R481). -/
def PWR.RET_CFG : Nat := 0x630108
def PWR.RET_CFG_RET_POOL : Fld := ⟨0, 3⟩
/-- `PWR.RET_USED` (R481). -/
def PWR.RET_USED : Nat := 0x63010C
def PWR.RET_USED_CELLS : Fld := ⟨0, 20⟩
/-- `PWR.LTR` (R478). -/
def PWR.LTR (i : Nat) : Nat := 0x630200 + 0x4 * i
def PWR.LTR_LTR : Fld := ⟨0, 32⟩
/-- `PWR.GSTS` (R478). -/
def PWR.GSTS (i : Nat) : Nat := 0x630300 + 0x4 * i
def PWR.GSTS_DEEPEST : Fld := ⟨8, 3⟩
def PWR.GSTS_RET_REFUSED : Fld := ⟨4, 1⟩
def PWR.GSTS_MOVING : Fld := ⟨3, 1⟩
def PWR.GSTS_STATE : Fld := ⟨0, 3⟩
/-- `PWR.RES_SEL` (R482). -/
def PWR.RES_SEL : Nat := 0x630400
def PWR.RES_SEL_GROUP : Fld := ⟨0, 6⟩
/-- `PWR.RES_LO` (R482). -/
def PWR.RES_LO (i : Nat) : Nat := 0x630408 + 0x8 * i
def PWR.RES_LO_LO : Fld := ⟨0, 32⟩
/-- `PWR.RES_HI` (R482). -/
def PWR.RES_HI (i : Nat) : Nat := 0x63040C + 0x8 * i
def PWR.RES_HI_WRAP : Fld := ⟨31, 1⟩
def PWR.RES_HI_HI : Fld := ⟨0, 16⟩
/-- `PWR.WAKES_LO` (R482). -/
def PWR.WAKES_LO : Nat := 0x630430
def PWR.WAKES_LO_LO : Fld := ⟨0, 32⟩
/-- `PWR.WAKES_HI` (R482). -/
def PWR.WAKES_HI : Nat := 0x630434
def PWR.WAKES_HI_WRAP : Fld := ⟨31, 1⟩
def PWR.WAKES_HI_HI : Fld := ⟨0, 16⟩
/-- `THM.TEMP` (R486). -/
def THM.TEMP (i : Nat) : Nat := 0x640100 + 0x4 * i
def THM.TEMP_VALID : Fld := ⟨31, 1⟩
def THM.TEMP_TEMP : Fld := ⟨0, 16⟩
/-- `THM.LIMITS` (R487). -/
def THM.LIMITS : Nat := 0x640180
def THM.LIMITS_WARN : Fld := ⟨0, 8⟩
/-- `THM.STS` (R487). -/
def THM.STS : Nat := 0x640184
def THM.STS_HOTTEST : Fld := ⟨24, 5⟩
def THM.STS_PEAK_CLR : Fld := ⟨13, 1⟩
def THM.STS_SHUTDOWN : Fld := ⟨12, 1⟩
def THM.STS_CROSSED : Fld := ⟨8, 4⟩
def THM.STS_NOW : Fld := ⟨0, 4⟩
/-- `THM.PEAK` (R486). -/
def THM.PEAK : Nat := 0x640188
def THM.PEAK_TD : Fld := ⟨16, 16⟩
def THM.PEAK_FD : Fld := ⟨0, 16⟩
/-- `QMG.QSPLIT` (R177). -/
def QMG.QSPLIT : Nat := 0x800100
def QMG.QSPLIT_VOQ_COUNT : Fld := ⟨0, 21⟩
/-- `QMG.COLOR_SRC` (R201). -/
def QMG.COLOR_SRC : Nat := 0x800104
def QMG.COLOR_SRC_ENABLE : Fld := ⟨31, 1⟩
def QMG.COLOR_SRC_POS : Fld := ⟨0, 6⟩
/-- `QMG.RAND_SEED` (R202). -/
def QMG.RAND_SEED : Nat := 0x800108
def QMG.RAND_SEED_SEED : Fld := ⟨0, 32⟩
/-- `QMG.STS` (R207). -/
def QMG.STS : Nat := 0x80010C
def QMG.STS_OVERRUN : Fld := ⟨0, 1⟩
/-- `QMG.SWARD_FREE` (R186). -/
def QMG.SWARD_FREE : Nat := 0x800110
def QMG.SWARD_FREE_FREE : Fld := ⟨0, 20⟩
/-- `QMG.PROF_SEL` (R215). -/
def QMG.PROF_SEL : Nat := 0x800120
def QMG.PROF_SEL_INDEX : Fld := ⟨4, 20⟩
def QMG.PROF_SEL_KIND : Fld := ⟨0, 2⟩
/-- `QMG.PROF_CMD` (R215). -/
def QMG.PROF_CMD : Nat := 0x800124
def QMG.PROF_CMD_CLEAR_WRAP : Fld := ⟨3, 1⟩
def QMG.PROF_CMD_CLEAR_WM : Fld := ⟨2, 1⟩
def QMG.PROF_CMD_WRITE : Fld := ⟨1, 1⟩
def QMG.PROF_CMD_READ : Fld := ⟨0, 1⟩
/-- `QMG.PROF_STS` (R215). -/
def QMG.PROF_STS : Nat := 0x800128
def QMG.PROF_STS_FAIL_WORD : Fld := ⟨8, 4⟩
def QMG.PROF_STS_STATE : Fld := ⟨0, 2⟩
/-- `QMG.PROF_W` (R215). -/
def QMG.PROF_W (i : Nat) : Nat := 0x800140 + 0x4 * i
def QMG.PROF_W_W : Fld := ⟨0, 32⟩
/-- `QMG.POOL_LIMIT_A` (R186). -/
def QMG.POOL_LIMIT_A (i : Nat) : Nat := 0x800200 + 0x10 * i
def QMG.POOL_LIMIT_A_LIMIT : Fld := ⟨0, 20⟩
/-- `QMG.POOL_LIMIT_B` (R186). -/
def QMG.POOL_LIMIT_B (i : Nat) : Nat := 0x800220 + 0x10 * i
def QMG.POOL_LIMIT_B_LIMIT : Fld := ⟨0, 20⟩
/-- `QMG.POOL_PRESS` (R187). -/
def QMG.POOL_PRESS (i : Nat) : Nat := 0x800204 + 0x10 * i
def QMG.POOL_PRESS_PRESS_FREE : Fld := ⟨0, 20⟩
/-- `QMG.POOL_WM` (R205). -/
def QMG.POOL_WM (i : Nat) : Nat := 0x800208 + 0x10 * i
def QMG.POOL_WM_EN : Fld := ⟨31, 1⟩
def QMG.POOL_WM_FALL_EN : Fld := ⟨30, 1⟩
def QMG.POOL_WM_WM : Fld := ⟨0, 20⟩
/-- `QMG.POOL_STS` (R205). -/
def QMG.POOL_STS (i : Nat) : Nat := 0x80020C + 0x10 * i
def QMG.POOL_STS_CROSSED : Fld := ⟨31, 1⟩
def QMG.POOL_STS_PRESSURE : Fld := ⟨30, 1⟩
def QMG.POOL_STS_LEVEL_NOW : Fld := ⟨29, 1⟩
def QMG.POOL_STS_USED : Fld := ⟨0, 20⟩
/-- `QMG.C_DISABLED_LO` (R183). -/
def QMG.C_DISABLED_LO : Nat := 0x800400
def QMG.C_DISABLED_LO_LO : Fld := ⟨0, 32⟩
/-- `QMG.C_DISABLED_HI` (R183). -/
def QMG.C_DISABLED_HI : Nat := 0x800404
def QMG.C_DISABLED_HI_WRAP : Fld := ⟨31, 1⟩
def QMG.C_DISABLED_HI_HI : Fld := ⟨0, 16⟩
/-- `QMG.C_POOL_FULL_LO` (R183). -/
def QMG.C_POOL_FULL_LO : Nat := 0x800408
def QMG.C_POOL_FULL_LO_LO : Fld := ⟨0, 32⟩
/-- `QMG.C_POOL_FULL_HI` (R183). -/
def QMG.C_POOL_FULL_HI : Nat := 0x80040C
def QMG.C_POOL_FULL_HI_WRAP : Fld := ⟨31, 1⟩
def QMG.C_POOL_FULL_HI_HI : Fld := ⟨0, 16⟩
/-- `QMG.C_TAIL_FULL_LO` (R183). -/
def QMG.C_TAIL_FULL_LO : Nat := 0x800410
def QMG.C_TAIL_FULL_LO_LO : Fld := ⟨0, 32⟩
/-- `QMG.C_TAIL_FULL_HI` (R183). -/
def QMG.C_TAIL_FULL_HI : Nat := 0x800414
def QMG.C_TAIL_FULL_HI_WRAP : Fld := ⟨31, 1⟩
def QMG.C_TAIL_FULL_HI_HI : Fld := ⟨0, 16⟩
/-- `QMG.C_TAIL_LIMIT_LO` (R183). -/
def QMG.C_TAIL_LIMIT_LO : Nat := 0x800418
def QMG.C_TAIL_LIMIT_LO_LO : Fld := ⟨0, 32⟩
/-- `QMG.C_TAIL_LIMIT_HI` (R183). -/
def QMG.C_TAIL_LIMIT_HI : Nat := 0x80041C
def QMG.C_TAIL_LIMIT_HI_WRAP : Fld := ⟨31, 1⟩
def QMG.C_TAIL_LIMIT_HI_HI : Fld := ⟨0, 16⟩
/-- `QMG.C_CURVE_GREEN_LO` (R183). -/
def QMG.C_CURVE_GREEN_LO : Nat := 0x800420
def QMG.C_CURVE_GREEN_LO_LO : Fld := ⟨0, 32⟩
/-- `QMG.C_CURVE_GREEN_HI` (R183). -/
def QMG.C_CURVE_GREEN_HI : Nat := 0x800424
def QMG.C_CURVE_GREEN_HI_WRAP : Fld := ⟨31, 1⟩
def QMG.C_CURVE_GREEN_HI_HI : Fld := ⟨0, 16⟩
/-- `QMG.C_CURVE_YELLOW_LO` (R183). -/
def QMG.C_CURVE_YELLOW_LO : Nat := 0x800428
def QMG.C_CURVE_YELLOW_LO_LO : Fld := ⟨0, 32⟩
/-- `QMG.C_CURVE_YELLOW_HI` (R183). -/
def QMG.C_CURVE_YELLOW_HI : Nat := 0x80042C
def QMG.C_CURVE_YELLOW_HI_WRAP : Fld := ⟨31, 1⟩
def QMG.C_CURVE_YELLOW_HI_HI : Fld := ⟨0, 16⟩
/-- `QMG.C_CURVE_RED_LO` (R183). -/
def QMG.C_CURVE_RED_LO : Nat := 0x800430
def QMG.C_CURVE_RED_LO_LO : Fld := ⟨0, 32⟩
/-- `QMG.C_CURVE_RED_HI` (R183). -/
def QMG.C_CURVE_RED_HI : Nat := 0x800434
def QMG.C_CURVE_RED_HI_WRAP : Fld := ⟨31, 1⟩
def QMG.C_CURVE_RED_HI_HI : Fld := ⟨0, 16⟩
/-- `QMG.C_LEN_MISMATCH_LO` (R183). -/
def QMG.C_LEN_MISMATCH_LO : Nat := 0x800438
def QMG.C_LEN_MISMATCH_LO_LO : Fld := ⟨0, 32⟩
/-- `QMG.C_LEN_MISMATCH_HI` (R183). -/
def QMG.C_LEN_MISMATCH_HI : Nat := 0x80043C
def QMG.C_LEN_MISMATCH_HI_WRAP : Fld := ⟨31, 1⟩
def QMG.C_LEN_MISMATCH_HI_HI : Fld := ⟨0, 16⟩
/-- `QMG.C_OVERRUN_LO` (R183). -/
def QMG.C_OVERRUN_LO : Nat := 0x800440
def QMG.C_OVERRUN_LO_LO : Fld := ⟨0, 32⟩
/-- `QMG.C_OVERRUN_HI` (R183). -/
def QMG.C_OVERRUN_HI : Nat := 0x800444
def QMG.C_OVERRUN_HI_WRAP : Fld := ⟨31, 1⟩
def QMG.C_OVERRUN_HI_HI : Fld := ⟨0, 16⟩
/-- `QMG.C_LOST_LO` (R183). -/
def QMG.C_LOST_LO : Nat := 0x800448
def QMG.C_LOST_LO_LO : Fld := ⟨0, 32⟩
/-- `QMG.C_LOST_HI` (R183). -/
def QMG.C_LOST_HI : Nat := 0x80044C
def QMG.C_LOST_HI_WRAP : Fld := ⟨31, 1⟩
def QMG.C_LOST_HI_HI : Fld := ⟨0, 16⟩
/-- `QMG.C_EGF_OVERSIZE_LO` (R183). -/
def QMG.C_EGF_OVERSIZE_LO : Nat := 0x800450
def QMG.C_EGF_OVERSIZE_LO_LO : Fld := ⟨0, 32⟩
/-- `QMG.C_EGF_OVERSIZE_HI` (R183). -/
def QMG.C_EGF_OVERSIZE_HI : Nat := 0x800454
def QMG.C_EGF_OVERSIZE_HI_WRAP : Fld := ⟨31, 1⟩
def QMG.C_EGF_OVERSIZE_HI_HI : Fld := ⟨0, 16⟩
/-- `PEAT.BLOCKS` (R195). -/
def PEAT.BLOCKS : Nat := 0x810100
def PEAT.BLOCKS_BLOCKS : Fld := ⟨0, 32⟩
/-- `PEAT.FREE` (R195). -/
def PEAT.FREE : Nat := 0x810104
def PEAT.FREE_FREE : Fld := ⟨0, 32⟩
/-- `PEAT.BUDGET` (R198). -/
def PEAT.BUDGET : Nat := 0x810108
def PEAT.BUDGET_READ : Fld := ⟨16, 16⟩
def PEAT.BUDGET_WRITE : Fld := ⟨0, 16⟩
/-- `PEAT.STS` (R199). -/
def PEAT.STS : Nat := 0x81010C
def PEAT.STS_LOST_SEEN : Fld := ⟨3, 1⟩
def PEAT.STS_READ_WAIT : Fld := ⟨2, 1⟩
def PEAT.STS_WRITE_WAIT : Fld := ⟨1, 1⟩
def PEAT.STS_FULL : Fld := ⟨0, 1⟩
/-- `PEAT.SPILLED_LO` (R190). -/
def PEAT.SPILLED_LO : Nat := 0x810400
def PEAT.SPILLED_LO_LO : Fld := ⟨0, 32⟩
/-- `PEAT.SPILLED_HI` (R190). -/
def PEAT.SPILLED_HI : Nat := 0x810404
def PEAT.SPILLED_HI_WRAP : Fld := ⟨31, 1⟩
def PEAT.SPILLED_HI_HI : Fld := ⟨0, 16⟩
/-- `PEAT.FETCHED_LO` (R190). -/
def PEAT.FETCHED_LO : Nat := 0x810408
def PEAT.FETCHED_LO_LO : Fld := ⟨0, 32⟩
/-- `PEAT.FETCHED_HI` (R190). -/
def PEAT.FETCHED_HI : Nat := 0x81040C
def PEAT.FETCHED_HI_WRAP : Fld := ⟨31, 1⟩
def PEAT.FETCHED_HI_HI : Fld := ⟨0, 16⟩
/-- `PEAT.SHORTCUT_LO` (R190). -/
def PEAT.SHORTCUT_LO : Nat := 0x810410
def PEAT.SHORTCUT_LO_LO : Fld := ⟨0, 32⟩
/-- `PEAT.SHORTCUT_HI` (R190). -/
def PEAT.SHORTCUT_HI : Nat := 0x810414
def PEAT.SHORTCUT_HI_WRAP : Fld := ⟨31, 1⟩
def PEAT.SHORTCUT_HI_HI : Fld := ⟨0, 16⟩
/-- `PEAT.HEAD_STARVE_LO` (R190). -/
def PEAT.HEAD_STARVE_LO : Nat := 0x810418
def PEAT.HEAD_STARVE_LO_LO : Fld := ⟨0, 32⟩
/-- `PEAT.HEAD_STARVE_HI` (R190). -/
def PEAT.HEAD_STARVE_HI : Nat := 0x81041C
def PEAT.HEAD_STARVE_HI_WRAP : Fld := ⟨31, 1⟩
def PEAT.HEAD_STARVE_HI_HI : Fld := ⟨0, 16⟩
/-- `PEAT.LOST_BLOCKS_LO` (R190). -/
def PEAT.LOST_BLOCKS_LO : Nat := 0x810420
def PEAT.LOST_BLOCKS_LO_LO : Fld := ⟨0, 32⟩
/-- `PEAT.LOST_BLOCKS_HI` (R190). -/
def PEAT.LOST_BLOCKS_HI : Nat := 0x810424
def PEAT.LOST_BLOCKS_HI_WRAP : Fld := ⟨31, 1⟩
def PEAT.LOST_BLOCKS_HI_HI : Fld := ⟨0, 16⟩
/-- `SCH.CREDIT_CFG` (R240). -/
def SCH.CREDIT_CFG : Nat := 0x820100
def SCH.CREDIT_CFG_FAST_UNITS : Fld := ⟨8, 16⟩
def SCH.CREDIT_CFG_GRANT_UNITS : Fld := ⟨0, 8⟩
/-- `SCH.REQ_CFG` (R238). -/
def SCH.REQ_CFG : Nat := 0x820104
def SCH.REQ_CFG_BALANCE_AGE : Fld := ⟨8, 16⟩
def SCH.REQ_CFG_REFRESH_TICKS : Fld := ⟨0, 8⟩
/-- `SCH.SHP_CTL` (R230). -/
def SCH.SHP_CTL : Nat := 0x820108
def SCH.SHP_CTL_SOURCE : Fld := ⟨2, 1⟩
def SCH.SHP_CTL_ACTIVE_SET : Fld := ⟨1, 1⟩
def SCH.SHP_CTL_COMMIT : Fld := ⟨0, 1⟩
/-- `SCH.CTX_USED` (R239). -/
def SCH.CTX_USED : Nat := 0x82010C
def SCH.CTX_USED_USED : Fld := ⟨0, 20⟩
/-- `SCH.PACE_STS` (R233). -/
def SCH.PACE_STS : Nat := 0x820110
def SCH.PACE_STS_HALF : Fld := ⟨0, 8⟩
/-- `SCH.SEL` (R243). -/
def SCH.SEL : Nat := 0x820120
def SCH.SEL_INDEX : Fld := ⟨4, 20⟩
def SCH.SEL_KIND : Fld := ⟨0, 4⟩
/-- `SCH.CMD` (R243). -/
def SCH.CMD : Nat := 0x820124
def SCH.CMD_COPY : Fld := ⟨2, 1⟩
def SCH.CMD_WRITE : Fld := ⟨1, 1⟩
def SCH.CMD_READ : Fld := ⟨0, 1⟩
/-- `SCH.STS` (R243). -/
def SCH.STS : Nat := 0x820128
def SCH.STS_FAIL_WORD : Fld := ⟨4, 4⟩
def SCH.STS_STATE : Fld := ⟨0, 2⟩
/-- `SCH.W` (R243). -/
def SCH.W (i : Nat) : Nat := 0x820140 + 0x4 * i
def SCH.W_W : Fld := ⟨0, 32⟩
/-- `SCH.CAL_SHADOW` (R232). -/
def SCH.CAL_SHADOW (i j : Nat) : Nat := 0x820200 + 0x100 * i + 0x4 * j
def SCH.CAL_SHADOW_SEC1 : Fld := ⟨24, 6⟩
def SCH.CAL_SHADOW_PRI1 : Fld := ⟨16, 6⟩
def SCH.CAL_SHADOW_SEC0 : Fld := ⟨8, 6⟩
def SCH.CAL_SHADOW_PRI0 : Fld := ⟨0, 6⟩
/-- `SCH.CAL_ACTIVE` (R232). -/
def SCH.CAL_ACTIVE (i j : Nat) : Nat := 0x820A00 + 0x100 * i + 0x4 * j
def SCH.CAL_ACTIVE_SEC1 : Fld := ⟨24, 6⟩
def SCH.CAL_ACTIVE_PRI1 : Fld := ⟨16, 6⟩
def SCH.CAL_ACTIVE_SEC0 : Fld := ⟨8, 6⟩
def SCH.CAL_ACTIVE_PRI0 : Fld := ⟨0, 6⟩
/-- `SCH.CAL_CTL` (R232). -/
def SCH.CAL_CTL (i : Nat) : Nat := 0x821200 + 0x4 * i
def SCH.CAL_CTL_COMMIT_FAIL : Fld := ⟨1, 1⟩
def SCH.CAL_CTL_COMMIT : Fld := ⟨0, 1⟩
/-- `SCH.GRANTS_SENT_LO` (R239). -/
def SCH.GRANTS_SENT_LO : Nat := 0x821300
def SCH.GRANTS_SENT_LO_LO : Fld := ⟨0, 32⟩
/-- `SCH.GRANTS_SENT_HI` (R239). -/
def SCH.GRANTS_SENT_HI : Nat := 0x821304
def SCH.GRANTS_SENT_HI_WRAP : Fld := ⟨31, 1⟩
def SCH.GRANTS_SENT_HI_HI : Fld := ⟨0, 16⟩
/-- `SCH.GRANTS_RECEIVED_LO` (R239). -/
def SCH.GRANTS_RECEIVED_LO : Nat := 0x821308
def SCH.GRANTS_RECEIVED_LO_LO : Fld := ⟨0, 32⟩
/-- `SCH.GRANTS_RECEIVED_HI` (R239). -/
def SCH.GRANTS_RECEIVED_HI : Nat := 0x82130C
def SCH.GRANTS_RECEIVED_HI_WRAP : Fld := ⟨31, 1⟩
def SCH.GRANTS_RECEIVED_HI_HI : Fld := ⟨0, 16⟩
/-- `SCH.CREDIT_EXCESS_LO` (R239). -/
def SCH.CREDIT_EXCESS_LO : Nat := 0x821310
def SCH.CREDIT_EXCESS_LO_LO : Fld := ⟨0, 32⟩
/-- `SCH.CREDIT_EXCESS_HI` (R239). -/
def SCH.CREDIT_EXCESS_HI : Nat := 0x821314
def SCH.CREDIT_EXCESS_HI_WRAP : Fld := ⟨31, 1⟩
def SCH.CREDIT_EXCESS_HI_HI : Fld := ⟨0, 16⟩
/-- `SCH.CTX_FULL_LO` (R239). -/
def SCH.CTX_FULL_LO : Nat := 0x821318
def SCH.CTX_FULL_LO_LO : Fld := ⟨0, 32⟩
/-- `SCH.CTX_FULL_HI` (R239). -/
def SCH.CTX_FULL_HI : Nat := 0x82131C
def SCH.CTX_FULL_HI_WRAP : Fld := ⟨31, 1⟩
def SCH.CTX_FULL_HI_HI : Fld := ⟨0, 16⟩
/-- `SCH.CTX_EXPIRED_LO` (R239). -/
def SCH.CTX_EXPIRED_LO : Nat := 0x821320
def SCH.CTX_EXPIRED_LO_LO : Fld := ⟨0, 32⟩
/-- `SCH.CTX_EXPIRED_HI` (R239). -/
def SCH.CTX_EXPIRED_HI : Nat := 0x821324
def SCH.CTX_EXPIRED_HI_WRAP : Fld := ⟨31, 1⟩
def SCH.CTX_EXPIRED_HI_HI : Fld := ⟨0, 16⟩
/-- `SCH.PAUSE_EVENTS_LO` (R239). -/
def SCH.PAUSE_EVENTS_LO : Nat := 0x821328
def SCH.PAUSE_EVENTS_LO_LO : Fld := ⟨0, 32⟩
/-- `SCH.PAUSE_EVENTS_HI` (R239). -/
def SCH.PAUSE_EVENTS_HI : Nat := 0x82132C
def SCH.PAUSE_EVENTS_HI_WRAP : Fld := ⟨31, 1⟩
def SCH.PAUSE_EVENTS_HI_HI : Fld := ⟨0, 16⟩
/-- `KCL.CTL` (R259). -/
def KCL.CTL : Nat := 0x830100
def KCL.CTL_ENABLE : Fld := ⟨31, 1⟩
def KCL.CTL_MIN_LINKS : Fld := ⟨16, 4⟩
def KCL.CTL_PLANES_EXPECTED : Fld := ⟨12, 4⟩
def KCL.CTL_DEV_ID : Fld := ⟨0, 11⟩
/-- `KCL.RESEQ_CFG` (R268). -/
def KCL.RESEQ_CFG : Nat := 0x830104
def KCL.RESEQ_CFG_TIMEOUT : Fld := ⟨0, 10⟩
/-- `KCL.HELLO_CFG` (R256). -/
def KCL.HELLO_CFG : Nat := 0x830108
def KCL.HELLO_CFG_RETRY : Fld := ⟨16, 8⟩
def KCL.HELLO_CFG_MISS : Fld := ⟨8, 4⟩
def KCL.HELLO_CFG_PERIOD : Fld := ⟨0, 8⟩
/-- `KCL.PLANE_STS` (R259). -/
def KCL.PLANE_STS : Nat := 0x83010C
def KCL.PLANE_STS_ANY : Fld := ⟨16, 12⟩
def KCL.PLANE_STS_UP : Fld := ⟨0, 12⟩
/-- `KCL.PLANE_DRAIN` (R262). -/
def KCL.PLANE_DRAIN : Nat := 0x830110
def KCL.PLANE_DRAIN_DRAIN : Fld := ⟨0, 12⟩
/-- `KCL.RESEQ_STS` (R267). -/
def KCL.RESEQ_STS : Nat := 0x830114
def KCL.RESEQ_STS_UNSYNC : Fld := ⟨16, 14⟩
def KCL.RESEQ_STS_HELD : Fld := ⟨0, 14⟩
/-- `KCL.REACH` (R260). -/
def KCL.REACH (i : Nat) : Nat := 0x830400 + 0x4 * i
def KCL.REACH_REACH : Fld := ⟨0, 32⟩
/-- `KCL.RESEQ_LOSS_LO` (R268). -/
def KCL.RESEQ_LOSS_LO : Nat := 0x830600
def KCL.RESEQ_LOSS_LO_LO : Fld := ⟨0, 32⟩
/-- `KCL.RESEQ_LOSS_HI` (R268). -/
def KCL.RESEQ_LOSS_HI : Nat := 0x830604
def KCL.RESEQ_LOSS_HI_WRAP : Fld := ⟨31, 1⟩
def KCL.RESEQ_LOSS_HI_HI : Fld := ⟨0, 16⟩
/-- `KCL.RESEQ_OOW_LO` (R268). -/
def KCL.RESEQ_OOW_LO : Nat := 0x830608
def KCL.RESEQ_OOW_LO_LO : Fld := ⟨0, 32⟩
/-- `KCL.RESEQ_OOW_HI` (R268). -/
def KCL.RESEQ_OOW_HI : Nat := 0x83060C
def KCL.RESEQ_OOW_HI_WRAP : Fld := ⟨31, 1⟩
def KCL.RESEQ_OOW_HI_HI : Fld := ⟨0, 16⟩
/-- `KCL.RESEQ_FULL_LO` (R268). -/
def KCL.RESEQ_FULL_LO : Nat := 0x830610
def KCL.RESEQ_FULL_LO_LO : Fld := ⟨0, 32⟩
/-- `KCL.RESEQ_FULL_HI` (R268). -/
def KCL.RESEQ_FULL_HI : Nat := 0x830614
def KCL.RESEQ_FULL_HI_WRAP : Fld := ⟨31, 1⟩
def KCL.RESEQ_FULL_HI_HI : Fld := ⟨0, 16⟩
/-- `KCL.RESEQ_NOSYNC_LO` (R268). -/
def KCL.RESEQ_NOSYNC_LO : Nat := 0x830618
def KCL.RESEQ_NOSYNC_LO_LO : Fld := ⟨0, 32⟩
/-- `KCL.RESEQ_NOSYNC_HI` (R268). -/
def KCL.RESEQ_NOSYNC_HI : Nat := 0x83061C
def KCL.RESEQ_NOSYNC_HI_WRAP : Fld := ⟨31, 1⟩
def KCL.RESEQ_NOSYNC_HI_HI : Fld := ⟨0, 16⟩
/-- `KCL.MISROUTED_LO` (R268). -/
def KCL.MISROUTED_LO : Nat := 0x830620
def KCL.MISROUTED_LO_LO : Fld := ⟨0, 32⟩
/-- `KCL.MISROUTED_HI` (R268). -/
def KCL.MISROUTED_HI : Nat := 0x830624
def KCL.MISROUTED_HI_WRAP : Fld := ⟨31, 1⟩
def KCL.MISROUTED_HI_HI : Fld := ⟨0, 16⟩
/-- `KCL.BAD_TYPE_LO` (R268). -/
def KCL.BAD_TYPE_LO : Nat := 0x830628
def KCL.BAD_TYPE_LO_LO : Fld := ⟨0, 32⟩
/-- `KCL.BAD_TYPE_HI` (R268). -/
def KCL.BAD_TYPE_HI : Nat := 0x83062C
def KCL.BAD_TYPE_HI_WRAP : Fld := ⟨31, 1⟩
def KCL.BAD_TYPE_HI_HI : Fld := ⟨0, 16⟩
/-- `KCL.UNREACH_DROP_LO` (R268). -/
def KCL.UNREACH_DROP_LO : Nat := 0x830630
def KCL.UNREACH_DROP_LO_LO : Fld := ⟨0, 32⟩
/-- `KCL.UNREACH_DROP_HI` (R268). -/
def KCL.UNREACH_DROP_HI : Nat := 0x830634
def KCL.UNREACH_DROP_HI_WRAP : Fld := ⟨31, 1⟩
def KCL.UNREACH_DROP_HI_HI : Fld := ⟨0, 16⟩
/-- `KCL.CREDIT_EXCESS_LO` (R268). -/
def KCL.CREDIT_EXCESS_LO : Nat := 0x830638
def KCL.CREDIT_EXCESS_LO_LO : Fld := ⟨0, 32⟩
/-- `KCL.CREDIT_EXCESS_HI` (R268). -/
def KCL.CREDIT_EXCESS_HI : Nat := 0x83063C
def KCL.CREDIT_EXCESS_HI_WRAP : Fld := ⟨31, 1⟩
def KCL.CREDIT_EXCESS_HI_HI : Fld := ⟨0, 16⟩
/-- `KCL.CTRL_SENT_LO` (R268). -/
def KCL.CTRL_SENT_LO : Nat := 0x830640
def KCL.CTRL_SENT_LO_LO : Fld := ⟨0, 32⟩
/-- `KCL.CTRL_SENT_HI` (R268). -/
def KCL.CTRL_SENT_HI : Nat := 0x830644
def KCL.CTRL_SENT_HI_WRAP : Fld := ⟨31, 1⟩
def KCL.CTRL_SENT_HI_HI : Fld := ⟨0, 16⟩
/-- `KCL.CTRL_RECEIVED_LO` (R268). -/
def KCL.CTRL_RECEIVED_LO : Nat := 0x830648
def KCL.CTRL_RECEIVED_LO_LO : Fld := ⟨0, 32⟩
/-- `KCL.CTRL_RECEIVED_HI` (R268). -/
def KCL.CTRL_RECEIVED_HI : Nat := 0x83064C
def KCL.CTRL_RECEIVED_HI_WRAP : Fld := ⟨31, 1⟩
def KCL.CTRL_RECEIVED_HI_HI : Fld := ⟨0, 16⟩
/-- `KCL.EQ_MAP` (R269). -/
def KCL.EQ_MAP (i : Nat) : Nat := 0x832000 + 0x4 * i
def KCL.EQ_MAP_VALID : Fld := ⟨31, 1⟩
def KCL.EQ_MAP_QUEUE : Fld := ⟨0, 20⟩
/-- `D5M.CFG` (R337). -/
def D5M.CFG : Nat := 0x840100
def D5M.CFG_PEAT_GIB : Fld := ⟨16, 10⟩
def D5M.CFG_CAPACITY : Fld := ⟨8, 4⟩
def D5M.CFG_RANKS : Fld := ⟨6, 1⟩
def D5M.CFG_DENSITY : Fld := ⟨4, 2⟩
def D5M.CFG_RATE : Fld := ⟨0, 3⟩
/-- `D5M.STS` (R337). -/
def D5M.STS : Nat := 0x840104
def D5M.STS_MAPPED : Fld := ⟨16, 5⟩
def D5M.STS_PAIR_LOST : Fld := ⟨4, 1⟩
def D5M.STS_SINGLE : Fld := ⟨3, 1⟩
def D5M.STS_REMIRROR : Fld := ⟨2, 1⟩
def D5M.STS_CFG_FAIL : Fld := ⟨1, 1⟩
def D5M.STS_UNUSABLE : Fld := ⟨0, 1⟩
/-- `D5M.EVAC_CTL` (R358). -/
def D5M.EVAC_CTL : Nat := 0x840108
def D5M.EVAC_CTL_ABORT : Fld := ⟨17, 1⟩
def D5M.EVAC_CTL_START : Fld := ⟨16, 1⟩
def D5M.EVAC_CTL_AFTER : Fld := ⟨8, 2⟩
def D5M.EVAC_CTL_SOURCE : Fld := ⟨0, 5⟩
/-- `D5M.EVAC_STS` (R358). -/
def D5M.EVAC_STS : Nat := 0x84010C
def D5M.EVAC_STS_PERCENT : Fld := ⟨16, 8⟩
def D5M.EVAC_STS_TARGET : Fld := ⟨8, 5⟩
def D5M.EVAC_STS_RESULT : Fld := ⟨0, 3⟩
/-- `D5M.RETIRE_CMD` (R366). -/
def D5M.RETIRE_CMD : Nat := 0x840110
def D5M.RETIRE_CMD_RESTORE : Fld := ⟨9, 1⟩
def D5M.RETIRE_CMD_RETIRE : Fld := ⟨8, 1⟩
def D5M.RETIRE_CMD_CHANNEL : Fld := ⟨0, 5⟩
/-- `D5M.RETIRED` (R366). -/
def D5M.RETIRED : Nat := 0x840114
def D5M.RETIRED_RETIRED : Fld := ⟨0, 17⟩
/-- `D5M.MAP_SEQ` (R339). -/
def D5M.MAP_SEQ : Nat := 0x840118
def D5M.MAP_SEQ_SEQ : Fld := ⟨0, 32⟩
/-- `D5M.MAP` (R338). -/
def D5M.MAP (i : Nat) : Nat := 0x840120 + 0x4 * i
def D5M.MAP_VALID : Fld := ⟨31, 1⟩
def D5M.MAP_SINGLE : Fld := ⟨30, 1⟩
def D5M.MAP_PHYSICAL : Fld := ⟨0, 5⟩
/-- `D5M.TABLE_SIZE_LO` (R342). -/
def D5M.TABLE_SIZE_LO : Nat := 0x840160
def D5M.TABLE_SIZE_LO_V : Fld := ⟨0, 32⟩
/-- `D5M.TABLE_SIZE_HI` (R342). -/
def D5M.TABLE_SIZE_HI : Nat := 0x840164
def D5M.TABLE_SIZE_HI_V : Fld := ⟨0, 8⟩
/-- `D5M.LINK_BASE_LO` (R342). -/
def D5M.LINK_BASE_LO : Nat := 0x840168
def D5M.LINK_BASE_LO_V : Fld := ⟨0, 32⟩
/-- `D5M.LINK_BASE_HI` (R342). -/
def D5M.LINK_BASE_HI : Nat := 0x84016C
def D5M.LINK_BASE_HI_V : Fld := ⟨0, 8⟩
/-- `D5M.PEAT_USABLE` (R363). -/
def D5M.PEAT_USABLE : Nat := 0x840170
def D5M.PEAT_USABLE_BLOCKS : Fld := ⟨0, 32⟩
/-- `D5M.EFF_BUDGET` (R344). -/
def D5M.EFF_BUDGET : Nat := 0x840174
def D5M.EFF_BUDGET_READ : Fld := ⟨16, 16⟩
def D5M.EFF_BUDGET_WRITE : Fld := ⟨0, 16⟩
/-- `CNT.CTL` (R429). -/
def CNT.CTL : Nat := 0x850100
def CNT.CTL_ENABLE : Fld := ⟨0, 1⟩
/-- `CNT.STS` (R429). -/
def CNT.STS : Nat := 0x850104
def CNT.STS_NO_CACHE : Fld := ⟨3, 1⟩
def CNT.STS_QUEUE_HALF : Fld := ⟨2, 1⟩
def CNT.STS_LOST : Fld := ⟨1, 1⟩
def CNT.STS_RUNNING : Fld := ⟨0, 1⟩
/-- `CNT.AREA_BASE_LO` (R421). -/
def CNT.AREA_BASE_LO : Nat := 0x850108
def CNT.AREA_BASE_LO_ADDR : Fld := ⟨12, 20⟩
/-- `CNT.AREA_BASE_HI` (R421). -/
def CNT.AREA_BASE_HI : Nat := 0x85010C
def CNT.AREA_BASE_HI_ADDR : Fld := ⟨0, 8⟩
/-- `CNT.COUNT` (R421). -/
def CNT.COUNT : Nat := 0x850110
def CNT.COUNT_COUNT : Fld := ⟨0, 25⟩
/-- `CNT.WB_CFG` (R427). -/
def CNT.WB_CFG : Nat := 0x850114
def CNT.WB_CFG_BUDGET : Fld := ⟨16, 16⟩
def CNT.WB_CFG_WB_TICKS : Fld := ⟨0, 16⟩
/-- `CNT.OP_INDEX` (R430). -/
def CNT.OP_INDEX : Nat := 0x850120
def CNT.OP_INDEX_INDEX : Fld := ⟨0, 25⟩
/-- `CNT.OP_CMD` (R430). -/
def CNT.OP_CMD : Nat := 0x850124
def CNT.OP_CMD_CLEAR_WRAP : Fld := ⟨2, 1⟩
def CNT.OP_CMD_CLEAR : Fld := ⟨1, 1⟩
def CNT.OP_CMD_READ : Fld := ⟨0, 1⟩
/-- `CNT.OP_STS` (R430). -/
def CNT.OP_STS : Nat := 0x850128
def CNT.OP_STS_STATE : Fld := ⟨0, 2⟩
/-- `CNT.RD_BYTES_LO` (R430). -/
def CNT.RD_BYTES_LO : Nat := 0x85012C
def CNT.RD_BYTES_LO_V : Fld := ⟨0, 32⟩
/-- `CNT.RD_BYTES_HI` (R430). -/
def CNT.RD_BYTES_HI : Nat := 0x850130
def CNT.RD_BYTES_HI_V : Fld := ⟨0, 32⟩
/-- `CNT.RD_PKTS_LO` (R430). -/
def CNT.RD_PKTS_LO : Nat := 0x850134
def CNT.RD_PKTS_LO_V : Fld := ⟨0, 32⟩
/-- `CNT.RD_PKTS_HI` (R430). -/
def CNT.RD_PKTS_HI : Nat := 0x850138
def CNT.RD_PKTS_HI_FLAGS : Fld := ⟨24, 2⟩
def CNT.RD_PKTS_HI_V : Fld := ⟨0, 16⟩
/-- `CNT.SNAP_BASE_LO` (R433). -/
def CNT.SNAP_BASE_LO : Nat := 0x850140
def CNT.SNAP_BASE_LO_ADDR : Fld := ⟨12, 20⟩
/-- `CNT.SNAP_BASE_HI` (R433). -/
def CNT.SNAP_BASE_HI : Nat := 0x850144
def CNT.SNAP_BASE_HI_ADDR : Fld := ⟨0, 8⟩
/-- `CNT.SNAP_FIRST` (R432). -/
def CNT.SNAP_FIRST : Nat := 0x850148
def CNT.SNAP_FIRST_FIRST : Fld := ⟨0, 25⟩
/-- `CNT.SNAP_COUNT` (R432). -/
def CNT.SNAP_COUNT : Nat := 0x85014C
def CNT.SNAP_COUNT_COUNT : Fld := ⟨0, 25⟩
/-- `CNT.SNAP_CTL` (R432). -/
def CNT.SNAP_CTL : Nat := 0x850150
def CNT.SNAP_CTL_NOW_ID : Fld := ⟨16, 16⟩
def CNT.SNAP_CTL_EXPORT : Fld := ⟨1, 1⟩
def CNT.SNAP_CTL_NOW : Fld := ⟨0, 1⟩
/-- `CNT.SNAP_STS` (R433). -/
def CNT.SNAP_STS : Nat := 0x850154
def CNT.SNAP_STS_ID : Fld := ⟨16, 16⟩
def CNT.SNAP_STS_PERCENT : Fld := ⟨8, 8⟩
def CNT.SNAP_STS_STATE : Fld := ⟨0, 2⟩
/-- `CNT.SNAP_T_NS` (R432). -/
def CNT.SNAP_T_NS : Nat := 0x850158
def CNT.SNAP_T_NS_NS : Fld := ⟨0, 32⟩
/-- `CNT.SNAP_T_SEC` (R432). -/
def CNT.SNAP_T_SEC : Nat := 0x85015C
def CNT.SNAP_T_SEC_SEC : Fld := ⟨0, 32⟩
/-- `CNT.USER_BASE` (R441). -/
def CNT.USER_BASE : Nat := 0x850160
def CNT.USER_BASE_BASE : Fld := ⟨0, 25⟩
/-- `CNT.C_LOST_UPDATES_LO` (R427). -/
def CNT.C_LOST_UPDATES_LO : Nat := 0x850400
def CNT.C_LOST_UPDATES_LO_LO : Fld := ⟨0, 32⟩
/-- `CNT.C_LOST_UPDATES_HI` (R427). -/
def CNT.C_LOST_UPDATES_HI : Nat := 0x850404
def CNT.C_LOST_UPDATES_HI_WRAP : Fld := ⟨31, 1⟩
def CNT.C_LOST_UPDATES_HI_HI : Fld := ⟨0, 16⟩
/-- `CNT.C_BAD_INDEX_LO` (R427). -/
def CNT.C_BAD_INDEX_LO : Nat := 0x850408
def CNT.C_BAD_INDEX_LO_LO : Fld := ⟨0, 32⟩
/-- `CNT.C_BAD_INDEX_HI` (R427). -/
def CNT.C_BAD_INDEX_HI : Nat := 0x85040C
def CNT.C_BAD_INDEX_HI_WRAP : Fld := ⟨31, 1⟩
def CNT.C_BAD_INDEX_HI_HI : Fld := ⟨0, 16⟩
/-- `CNT.C_FORCED_WB_LO` (R427). -/
def CNT.C_FORCED_WB_LO : Nat := 0x850410
def CNT.C_FORCED_WB_LO_LO : Fld := ⟨0, 32⟩
/-- `CNT.C_FORCED_WB_HI` (R427). -/
def CNT.C_FORCED_WB_HI : Nat := 0x850414
def CNT.C_FORCED_WB_HI_WRAP : Fld := ⟨31, 1⟩
def CNT.C_FORCED_WB_HI_HI : Fld := ⟨0, 16⟩
/-- `CNT.C_EVICTIONS_LO` (R427). -/
def CNT.C_EVICTIONS_LO : Nat := 0x850418
def CNT.C_EVICTIONS_LO_LO : Fld := ⟨0, 32⟩
/-- `CNT.C_EVICTIONS_HI` (R427). -/
def CNT.C_EVICTIONS_HI : Nat := 0x85041C
def CNT.C_EVICTIONS_HI_WRAP : Fld := ⟨31, 1⟩
def CNT.C_EVICTIONS_HI_HI : Fld := ⟨0, 16⟩
/-- `CNT.C_WRITEBACKS_LO` (R427). -/
def CNT.C_WRITEBACKS_LO : Nat := 0x850420
def CNT.C_WRITEBACKS_LO_LO : Fld := ⟨0, 32⟩
/-- `CNT.C_WRITEBACKS_HI` (R427). -/
def CNT.C_WRITEBACKS_HI : Nat := 0x850424
def CNT.C_WRITEBACKS_HI_WRAP : Fld := ⟨31, 1⟩
def CNT.C_WRITEBACKS_HI_HI : Fld := ⟨0, 16⟩
/-- `CNT.C_SNAP_BUSY_LO` (R427). -/
def CNT.C_SNAP_BUSY_LO : Nat := 0x850428
def CNT.C_SNAP_BUSY_LO_LO : Fld := ⟨0, 32⟩
/-- `CNT.C_SNAP_BUSY_HI` (R427). -/
def CNT.C_SNAP_BUSY_HI : Nat := 0x85042C
def CNT.C_SNAP_BUSY_HI_WRAP : Fld := ⟨31, 1⟩
def CNT.C_SNAP_BUSY_HI_HI : Fld := ⟨0, 16⟩
/-- `FAB.CTL` (R262). -/
def FAB.CTL (n : Nat) : Nat := (0x90 + n) * 0x10000 + 0x100
def FAB.CTL_DRAIN : Fld := ⟨0, 1⟩
/-- `FAB.STS` (R262). -/
def FAB.STS (n : Nat) : Nat := (0x90 + n) * 0x10000 + 0x104
def FAB.STS_UP : Fld := ⟨8, 8⟩
def FAB.STS_DRAINED : Fld := ⟨0, 1⟩
/-- `FAB.LANE_CFG` (R253). -/
def FAB.LANE_CFG (n i : Nat) : Nat := (0x90 + n) * 0x10000 + 0x200 + 0x20 * i
def FAB.LANE_CFG_ERR_LIMIT : Fld := ⟨16, 16⟩
def FAB.LANE_CFG_MAX_RATE : Fld := ⟨1, 2⟩
def FAB.LANE_CFG_ENABLE : Fld := ⟨0, 1⟩
/-- `FAB.LANE_STS` (R253). -/
def FAB.LANE_STS (n i : Nat) : Nat := (0x90 + n) * 0x10000 + 0x204 + 0x20 * i
def FAB.LANE_STS_CREDITS : Fld := ⟨16, 16⟩
def FAB.LANE_STS_CAUSE : Fld := ⟨12, 3⟩
def FAB.LANE_STS_PLANE : Fld := ⟨8, 4⟩
def FAB.LANE_STS_RATE : Fld := ⟨4, 2⟩
def FAB.LANE_STS_STATE : Fld := ⟨0, 4⟩
/-- `FAB.LANE_PARTNER` (R257). -/
def FAB.LANE_PARTNER (n i : Nat) : Nat := (0x90 + n) * 0x10000 + 0x208 + 0x20 * i
def FAB.LANE_PARTNER_PLANE : Fld := ⟨24, 4⟩
def FAB.LANE_PARTNER_PORT : Fld := ⟨16, 8⟩
def FAB.LANE_PARTNER_ID : Fld := ⟨0, 16⟩
/-- `FAB.CRC_ERR` (R247). -/
def FAB.CRC_ERR (n i : Nat) : Nat := (0x90 + n) * 0x10000 + 0x20C + 0x20 * i
def FAB.CRC_ERR_CNT : Fld := ⟨0, 32⟩
/-- `FAB.FEC_CORR` (R247). -/
def FAB.FEC_CORR (n i : Nat) : Nat := (0x90 + n) * 0x10000 + 0x210 + 0x20 * i
def FAB.FEC_CORR_CNT : Fld := ⟨0, 32⟩
/-- `FAB.FEC_UNCORR` (R247). -/
def FAB.FEC_UNCORR (n i : Nat) : Nat := (0x90 + n) * 0x10000 + 0x214 + 0x20 * i
def FAB.FEC_UNCORR_CNT : Fld := ⟨0, 32⟩
/-- `FAB.RESYNC` (R247). -/
def FAB.RESYNC (n i : Nat) : Nat := (0x90 + n) * 0x10000 + 0x218 + 0x20 * i
def FAB.RESYNC_CNT : Fld := ⟨0, 32⟩
/-- `FAB.SAT` (R443). -/
def FAB.SAT (n i : Nat) : Nat := (0x90 + n) * 0x10000 + 0x21C + 0x20 * i
def FAB.SAT_SAT : Fld := ⟨0, 4⟩
/-- `D5C.CTL` (R357). -/
def D5C.CTL (n : Nat) : Nat := (0xA0 + n) * 0x10000 + 0x100
def D5C.CTL_RETRAIN : Fld := ⟨0, 1⟩
/-- `D5C.STS` (R351). -/
def D5C.STS (n : Nat) : Nat := (0xA0 + n) * 0x10000 + 0x104
def D5C.STS_OWED : Fld := ⟨16, 4⟩
def D5C.STS_CAUSE : Fld := ⟨12, 3⟩
def D5C.STS_TRAINED : Fld := ⟨10, 1⟩
def D5C.STS_HOT : Fld := ⟨9, 1⟩
def D5C.STS_LOGICAL : Fld := ⟨4, 5⟩
def D5C.STS_STATE : Fld := ⟨0, 4⟩
/-- `D5C.WQ_CFG` (R350). -/
def D5C.WQ_CFG (n : Nat) : Nat := (0xA0 + n) * 0x10000 + 0x108
def D5C.WQ_CFG_ERR_LIMIT : Fld := ⟨16, 16⟩
def D5C.WQ_CFG_WQ_HIGH : Fld := ⟨0, 8⟩
/-- `D5C.TEMP` (R351). -/
def D5C.TEMP (n : Nat) : Nat := (0xA0 + n) * 0x10000 + 0x10C
def D5C.TEMP_MR4 : Fld := ⟨0, 3⟩
/-- `D5C.TRAIN_STS` (R354). -/
def D5C.TRAIN_STS (n : Nat) : Nat := (0xA0 + n) * 0x10000 + 0x110
def D5C.TRAIN_STS_ATTEMPTS : Fld := ⟨24, 8⟩
def D5C.TRAIN_STS_WR_MARGIN : Fld := ⟨16, 8⟩
def D5C.TRAIN_STS_RD_MARGIN : Fld := ⟨8, 8⟩
def D5C.TRAIN_STS_RESULT : Fld := ⟨4, 4⟩
def D5C.TRAIN_STS_STEP : Fld := ⟨0, 4⟩
/-- `D5C.ECC_CORR_LO` (R346). -/
def D5C.ECC_CORR_LO (n : Nat) : Nat := (0xA0 + n) * 0x10000 + 0x400
def D5C.ECC_CORR_LO_LO : Fld := ⟨0, 32⟩
/-- `D5C.ECC_CORR_HI` (R346). -/
def D5C.ECC_CORR_HI (n : Nat) : Nat := (0xA0 + n) * 0x10000 + 0x404
def D5C.ECC_CORR_HI_WRAP : Fld := ⟨31, 1⟩
def D5C.ECC_CORR_HI_HI : Fld := ⟨0, 16⟩
/-- `D5C.ECC_UNCORR_LO` (R346). -/
def D5C.ECC_UNCORR_LO (n : Nat) : Nat := (0xA0 + n) * 0x10000 + 0x408
def D5C.ECC_UNCORR_LO_LO : Fld := ⟨0, 32⟩
/-- `D5C.ECC_UNCORR_HI` (R346). -/
def D5C.ECC_UNCORR_HI (n : Nat) : Nat := (0xA0 + n) * 0x10000 + 0x40C
def D5C.ECC_UNCORR_HI_WRAP : Fld := ⟨31, 1⟩
def D5C.ECC_UNCORR_HI_HI : Fld := ⟨0, 16⟩
/-- `D5C.FORWARDED_LO` (R346). -/
def D5C.FORWARDED_LO (n : Nat) : Nat := (0xA0 + n) * 0x10000 + 0x410
def D5C.FORWARDED_LO_LO : Fld := ⟨0, 32⟩
/-- `D5C.FORWARDED_HI` (R346). -/
def D5C.FORWARDED_HI (n : Nat) : Nat := (0xA0 + n) * 0x10000 + 0x414
def D5C.FORWARDED_HI_WRAP : Fld := ⟨31, 1⟩
def D5C.FORWARDED_HI_HI : Fld := ⟨0, 16⟩
/-- `D5C.MERGED_LO` (R346). -/
def D5C.MERGED_LO (n : Nat) : Nat := (0xA0 + n) * 0x10000 + 0x418
def D5C.MERGED_LO_LO : Fld := ⟨0, 32⟩
/-- `D5C.MERGED_HI` (R346). -/
def D5C.MERGED_HI (n : Nat) : Nat := (0xA0 + n) * 0x10000 + 0x41C
def D5C.MERGED_HI_WRAP : Fld := ⟨31, 1⟩
def D5C.MERGED_HI_HI : Fld := ⟨0, 16⟩
/-- `D5C.POSTPONED_LO` (R346). -/
def D5C.POSTPONED_LO (n : Nat) : Nat := (0xA0 + n) * 0x10000 + 0x420
def D5C.POSTPONED_LO_LO : Fld := ⟨0, 32⟩
/-- `D5C.POSTPONED_HI` (R346). -/
def D5C.POSTPONED_HI (n : Nat) : Nat := (0xA0 + n) * 0x10000 + 0x424
def D5C.POSTPONED_HI_WRAP : Fld := ⟨31, 1⟩
def D5C.POSTPONED_HI_HI : Fld := ⟨0, 16⟩
/-- `D5C.HOT_CROSSINGS_LO` (R346). -/
def D5C.HOT_CROSSINGS_LO (n : Nat) : Nat := (0xA0 + n) * 0x10000 + 0x428
def D5C.HOT_CROSSINGS_LO_LO : Fld := ⟨0, 32⟩
/-- `D5C.HOT_CROSSINGS_HI` (R346). -/
def D5C.HOT_CROSSINGS_HI (n : Nat) : Nat := (0xA0 + n) * 0x10000 + 0x42C
def D5C.HOT_CROSSINGS_HI_WRAP : Fld := ⟨31, 1⟩
def D5C.HOT_CROSSINGS_HI_HI : Fld := ⟨0, 16⟩
/-- `D5C.WCRC_RETRY_LO` (R346). -/
def D5C.WCRC_RETRY_LO (n : Nat) : Nat := (0xA0 + n) * 0x10000 + 0x430
def D5C.WCRC_RETRY_LO_LO : Fld := ⟨0, 32⟩
/-- `D5C.WCRC_RETRY_HI` (R346). -/
def D5C.WCRC_RETRY_HI (n : Nat) : Nat := (0xA0 + n) * 0x10000 + 0x434
def D5C.WCRC_RETRY_HI_WRAP : Fld := ⟨31, 1⟩
def D5C.WCRC_RETRY_HI_HI : Fld := ⟨0, 16⟩
/-- `D5C.CA_PAR_LO` (R346). -/
def D5C.CA_PAR_LO (n : Nat) : Nat := (0xA0 + n) * 0x10000 + 0x438
def D5C.CA_PAR_LO_LO : Fld := ⟨0, 32⟩
/-- `D5C.CA_PAR_HI` (R346). -/
def D5C.CA_PAR_HI (n : Nat) : Nat := (0xA0 + n) * 0x10000 + 0x43C
def D5C.CA_PAR_HI_WRAP : Fld := ⟨31, 1⟩
def D5C.CA_PAR_HI_HI : Fld := ⟨0, 16⟩
/-- `D5C.HOLDS_LO` (R346). -/
def D5C.HOLDS_LO (n : Nat) : Nat := (0xA0 + n) * 0x10000 + 0x440
def D5C.HOLDS_LO_LO : Fld := ⟨0, 32⟩
/-- `D5C.HOLDS_HI` (R346). -/
def D5C.HOLDS_HI (n : Nat) : Nat := (0xA0 + n) * 0x10000 + 0x444
def D5C.HOLDS_HI_WRAP : Fld := ⟨31, 1⟩
def D5C.HOLDS_HI_HI : Fld := ⟨0, 16⟩
/-- `HDR.PAGE_CTL` (R403). -/
def HDR.PAGE_CTL (p : Nat) : Nat := p * 0x10000 + 0xC
def HDR.PAGE_CTL_ERR_CLR : Fld := ⟨3, 1⟩
def HDR.PAGE_CTL_FREEZE : Fld := ⟨2, 1⟩
def HDR.PAGE_CTL_SOFT_RESET : Fld := ⟨1, 1⟩
def HDR.PAGE_CTL_WR_EN : Fld := ⟨0, 1⟩
/-- `HDR.PAGE_STS` (R403). -/
def HDR.PAGE_STS (p : Nat) : Nat := p * 0x10000 + 0x10
def HDR.PAGE_STS_INT_ACTIVE : Fld := ⟨3, 1⟩
def HDR.PAGE_STS_ERR_HELD : Fld := ⟨2, 1⟩
def HDR.PAGE_STS_FROZEN : Fld := ⟨1, 1⟩
def HDR.PAGE_STS_RESET_BUSY : Fld := ⟨0, 1⟩
/-- `HDR.INT_RAW` (R406). -/
def HDR.INT_RAW (p : Nat) : Nat := p * 0x10000 + 0x14
def HDR.INT_RAW_INT : Fld := ⟨0, 32⟩
/-- `HDR.INT_EN` (R406). -/
def HDR.INT_EN (p : Nat) : Nat := p * 0x10000 + 0x18
def HDR.INT_EN_EN : Fld := ⟨0, 32⟩
/-- `HDR.INT_PEND` (R406). -/
def HDR.INT_PEND (p : Nat) : Nat := p * 0x10000 + 0x1C
def HDR.INT_PEND_PEND : Fld := ⟨0, 32⟩
/-- `HDR.INT_FORCE` (R406). -/
def HDR.INT_FORCE (p : Nat) : Nat := p * 0x10000 + 0x20
def HDR.INT_FORCE_FORCE : Fld := ⟨0, 32⟩
/-- `HDR.ERR_ADDR` (R405). -/
def HDR.ERR_ADDR (p : Nat) : Nat := p * 0x10000 + 0x24
def HDR.ERR_ADDR_PAGE : Fld := ⟨16, 10⟩
def HDR.ERR_ADDR_OFFSET : Fld := ⟨2, 14⟩
/-- `HDR.ERR_INFO` (R405). -/
def HDR.ERR_INFO (p : Nat) : Nat := p * 0x10000 + 0x28
def HDR.ERR_INFO_VALID : Fld := ⟨31, 1⟩
def HDR.ERR_INFO_SOURCE : Fld := ⟨28, 3⟩
def HDR.ERR_INFO_WRITE : Fld := ⟨27, 1⟩
def HDR.ERR_INFO_FIELD_LSB : Fld := ⟨8, 8⟩
def HDR.ERR_INFO_CODE : Fld := ⟨0, 8⟩
/-- `HDR.EVT_SEQ` (R415). -/
def HDR.EVT_SEQ (p : Nat) : Nat := p * 0x10000 + 0x2C
def HDR.EVT_SEQ_SEQ : Fld := ⟨0, 32⟩
/-- `HDR.EPOCH_TAG` (R38). -/
def HDR.EPOCH_TAG (p : Nat) : Nat := p * 0x10000 + 0x30
def HDR.EPOCH_TAG_OVERLAP : Fld := ⟨31, 1⟩
def HDR.EPOCH_TAG_EPOCH_NUM : Fld := ⟨0, 16⟩
/-- `HDR.LOCK_KEY` (R404). -/
def HDR.LOCK_KEY (p : Nat) : Nat := p * 0x10000 + 0x34
def HDR.LOCK_KEY_ARMED : Fld := ⟨0, 1⟩
/-- `HDR.SCRATCH` (R401). -/
def HDR.SCRATCH (p : Nat) : Nat := p * 0x10000 + 0x38
def HDR.SCRATCH_V : Fld := ⟨0, 32⟩
/-- `HDR.PAGE_ID` (R398). -/
def HDR.PAGE_ID (p : Nat) : Nat := p * 0x10000 + 0x0
def HDR.PAGE_ID_TYPE : Fld := ⟨16, 8⟩
def HDR.PAGE_ID_INSTANCE : Fld := ⟨0, 8⟩
/-- `HDR.PAGE_REV` (R2). -/
def HDR.PAGE_REV (p : Nat) : Nat := p * 0x10000 + 0x4
def HDR.PAGE_REV_REV : Fld := ⟨0, 32⟩
/-- `HDR.PAGE_CAP` (R398). -/
def HDR.PAGE_CAP (p : Nat) : Nat := p * 0x10000 + 0x8
def HDR.PAGE_CAP_TD : Fld := ⟨31, 1⟩
def HDR.PAGE_CAP_ISLAND : Fld := ⟨30, 1⟩
def HDR.PAGE_CAP_INSTANCES : Fld := ⟨16, 8⟩

end Sys2Proof.Machine
end

