-- ==== Sys2Proof/Machine/TypesChk.lean ====
section
/-! DEFINITION. State types of the check engines (R326 to R333). -/

namespace Sys2Proof.Machine

/-- The check engines beside their registers: the ticks fired when each context last ended, and corrected words that wait to be
written back, by space and address (R329, R330). -/
structure ChkSt where
  ended : NMap Nat := []
  wb : List (Nat × Nat) := []
deriving DecidableEq, Repr

end Sys2Proof.Machine
end

