-- ==== Sys2Proof/Machine/TypesCnt.lean ====
section
/-! DEFINITION. State types of the counters (R421 to R444). -/

namespace Sys2Proof.Machine

/-- A record of the write-back queue (R427): a pair, the deltas for it, and whether they belong to a snapshot (R432). -/
structure WbRec where
  pair : Nat
  pkts : Nat
  bytes : Nat
  old : Bool
deriving DecidableEq, Repr

/-- A snapshot that builds or exports (R432 to R436): its range and area as they stood at T, the pairs of the range that were
not zero at T with their 16 bytes, and the next record to export. -/
structure Snap where
  base : Nat := 0
  first : Nat := 0
  count : Nat := 0
  pairs : List (Nat × List Byte) := []
  next : Nat := 0
deriving DecidableEq, Repr

/-- The counters beside their registers and the cache, which stands in the table SRAM (R423). -/
structure CntSt where
  queue : List WbRec := []
  /-- ns on the model's clock from which the budget lets the next record cross (R427) -/
  wbFrom : Nat := 0
  /-- updates that wait in the intake of each whole-COUNTER bank, and the FD core cycle at which they were counted (R428) -/
  intake : NMap (Nat × Nat) := []
  /-- ns on the model's clock until which a command of OP_CMD is busy (R430) -/
  opUntil : Nat := 0
  /-- the set the sweeper walks next, and the sets it has walked since the last tick (R426) -/
  sweep : Nat := 0
  swept : Nat := 0
  /-- the WINDOW that updates in the range of the last snapshot take, and that range (R432) -/
  window : Bool := false
  first : Nat := 0
  count : Nat := 0
  snap : Snap := {}
  /-- the value of the previous cycle that each performance counter saw (R437) -/
  prev : NMap Nat := []
deriving DecidableEq, Repr

end Sys2Proof.Machine
end

