-- ==== Sys2Proof/Machine/TypesFw.lean ====
section
/-! DEFINITION. State types of the NV die, the firmware block, the service port, the anchor queue and the cushion. -/

namespace Sys2Proof.Machine

/-- A record of the persistent log (R473), less the CRC that every whole record carries. -/
structure LogRec where
  seq : Nat
  sec : Nat
  ns : Nat
  cls : Nat
  sub : Nat
  src : Nat
  data : List Byte
deriving DecidableEq, Repr

/-- A slot header (R453). STATE: 0 EMPTY, 1 INCOMPLETE, 2 COMPLETE. -/
structure SlotHdr where
  state : Nat := 0
  span : Bool := false
  len : Nat := 0
  version : Nat := 0
  svn : Nat := 0
deriving DecidableEq, Repr

/-- A boot record (R454). -/
structure BootRec where
  seq : Nat := 0
  layout : Nat := 0
  selected : Nat := 0
  trial : Bool := false
  trialCount : Nat := 0
  rejected : Bool := false
  fallbackValid : Bool := false
  settingsActive : Nat := 0
  quarantine : Bool := false
  minSvn : Nat := 0
deriving DecidableEq, Repr

/-- A settings copy (R463). -/
structure Settings where
  format : Nat
  seq : Nat
  records : List Byte
deriving DecidableEq, Repr

/-- A channel map record (R339): the physical channel of each logical one, and the retired channels. -/
structure MapRec where
  seq : Nat := 0
  entries : List (Option Nat) := []
  retired : Nat := 0
deriving DecidableEq, Repr

/-- The NV die (R448): image bytes by die offset, and its records, `none` where a copy is absent or fails its CRC.
DESIGN CHOICE, unsafe: log entry 9. -/
structure Nv where
  mem : Memory := []
  hdrA : Option SlotHdr := none
  hdrB : Option SlotHdr := none
  boot0 : Option BootRec := none
  boot1 : Option BootRec := none
  set0 : Option Settings := none
  set1 : Option Settings := none
  map0 : Option MapRec := none
  map1 : Option MapRec := none
  log : List LogRec := []
  logSeq : Nat := 0
  uid : Nat := 0
  mac : Nat := 0
deriving DecidableEq, Repr

/-- The firmware block and the sorus beside their registers (R446, R457, R470, R472). -/
structure FwSt where
  /-- KiB of the download received, bit i for KiB i -/
  received : Nat := 0
  dlLen : Nat := 0
  dlTarget : Nat := 0
  /-- die offset at which the download begins -/
  dlBase : Nat := 0
  /-- header facts of the image that runs -/
  settingsWrite : Nat := 0
  settingsReadMin : Nat := 0
  version : Nat := 0
  svn : Nat := 0
  /-- settings held in SRAM -/
  format : Nat := 0
  settings : List Byte := []
  /-- the image on trial has asked for its own restart (R465) -/
  restartWanted : Bool := false
  /-- the sorus cores have reset and the loader has yet to run (R470) -/
  loaderDue : Bool := false
  /-- ns on the model's clock at the last kick (R446), and at the start of the mailbox command (R472) -/
  kickedAt : Nat := 0
  mbAt : Nat := 0
  /-- the mailbox command waits for its answer to a Trasum request -/
  mbTrasum : Option Trasum := none
  /-- packets held for sorus rings: ring and bytes (R447) -/
  punts : List (Nat × List Byte) := []
  /-- learn notices the firmware has not consumed while it was away (R471) -/
  overrunTold : Bool := false
deriving DecidableEq, Repr

/-- The service port beside its registers (R459, R461). -/
structure SvcSt where
  /-- requests that wait for the one that runs, with their OP, oldest first -/
  queue : List (Nat × Trasum) := []
  /-- SEQ, OP and bytes of the last response -/
  kept : Option (Nat × Nat × List Byte) := none
deriving DecidableEq, Repr

/-- The state of an anchor entry: held by a PREPARE or by the master until confirmed, or pending (R390). -/
inductive AnchorState where
  | held
  | pending
deriving DecidableEq, Repr

/-- An anchor entry (R377). -/
structure Anchor where
  stampNs : Nat
  stampSec : Nat
  type : Nat
  coord : Bool
  operand : Nat
  tag : Nat
  state : AnchorState
  /-- positions that have accepted, one bit each, and those that must (R390) -/
  accepted : Nat
  needed : Nat
  /-- a forward step has gone past the stamp (R382) -/
  passed : Bool := false
deriving DecidableEq, Repr

/-- A message sent and not acknowledged: LSEQ, the message, and how often it was resent (R384). -/
structure CSent where
  lseq : Nat
  dst : Nat
  msg : CMsg
  resends : Nat
  /-- ns on the model's clock when it was last sent -/
  sentAt : Nat
deriving DecidableEq, Repr

/-- One cascade link beside its register (R383, R384). -/
structure CLink where
  nextOut : Nat := 0
  nextIn : Nat := 0
  window : List CSent := []
  /-- messages received ahead of their turn -/
  early : List (Nat × CHdr × CMsg) := []
  /-- the lane that takes the next message where both are up (R384) -/
  turn : Nat := 0
  /-- ns on the model's clock: the last HELLO sent, the last heard, the last heard with MASTER = 1, and the first of the present run of
  HELLOs that show PAUSED (R383, R384, R386) -/
  helloAt : Option Nat := none
  heardAt : Nat := 0
  masterAt : Nat := 0
  pausedFrom : Option Nat := none
  farMaster : Bool := false
  farEligible : Bool := false
  farPaused : Bool := false
  farSeen : Nat := 0
deriving DecidableEq, Repr

/-- The cushion beside its registers (R385 to R392). -/
structure CscSt where
  link0 : CLink := {}
  link1 : CLink := {}
  link2 : CLink := {}
  link3 : CLink := {}
  masterPos : Option Nat := none
  /-- the member's TIME_SYNC exchange: t1 and t2 in ns, then t3 and the LSEQ of the request -/
  t1 : Nat := 0
  t2 : Nat := 0
  t3 : Nat := 0
  reqSeq : Nat := 0
  /-- when JOIN asked for an election that is still to come, in ns on the model's clock (R385) -/
  joinAt : Option Nat := none
  /-- the tick in which TIME_SYNC was last sent (R388) -/
  syncTick : Option Nat := none
  /-- consecutive ticks with |θ| at or below, and above, 10 ns (R389) -/
  goodTicks : Nat := 0
  badTicks : Nat := 0
  /-- the master's next CUSHION_SEQ (R391) -/
  nextSeq : Nat := 1
deriving DecidableEq, Repr

end Sys2Proof.Machine
end

