-- ==== Sys2Proof/Machine/TypesPwr.lean ====
section
/-! DEFINITION. State types of the power groups (R475 to R482). -/

namespace Sys2Proof.Machine

/-- One power group beside its register: ns spent in P0 to P4 up to `since` (ns since power-on), wake-ups, and the WRAP bits of
the five residencies and of WAKES (R482). -/
structure PwrGroup where
  p0 : Nat := 0
  p1 : Nat := 0
  p2 : Nat := 0
  p3 : Nat := 0
  p4 : Nat := 0
  since : Nat := 0
  wakes : Nat := 0
  wraps : Nat := 0
deriving DecidableEq, Repr

/-- The power groups: when their counting began, and what has been counted. -/
structure PwrSt where
  start : Nat := 0
  groups : NMap PwrGroup := []
  /-- ns on the model's clock at the last sample of the sensors (R486) -/
  sampleAt : Option Nat := none
  /-- ns on the model's clock at which the drain of each line slice began, and the ticks fired when its release was asked for (R488) -/
  drainAt : NMap Nat := []
  releaseAt : NMap Nat := []
deriving DecidableEq, Repr

end Sys2Proof.Machine
end

