-- ==== Sys2Proof/Machine/Block.lean ====
section
/-! DEFINITION. Everything the device holds but the queue of waiting commands. -/

namespace Sys2Proof.Machine

/-- The device's state. Registers stand in one sparse file keyed by BAR0 address; what the spec gives beside registers
stands in one field per unit.
DESIGN CHOICE, safe: log entry 176. -/
structure Block where
  /-- the registers that differ from their reset values -/
  regs : NMap Word := []
  /-- the values that FREEZE holds (R403) -/
  frozen : NMap Word := []
  /-- `_HI` values latched by a read of their `_LO` (R12), by address and 2²⁶ × the code of the source that read; the halves
  latched by reads of BAR4 (R442) from 2³² on -/
  latches : NMap Word := []
  /-- armed unlocks: page and source (R404) -/
  armed : List (Nat × Source) := []
  rings : NMap Ring := []
  host : HostMem := {}
  /-- an event was lost and the next one placed says so (R415) -/
  lost : Bool := false
  /-- vectors that have sent and wait for VEC_ACK (R406) -/
  sent : List Nat := []
  mode : ModeSt := {}
  time : TimeSt := {}
  nv : Nv := {}
  /-- the last sample of the 25 sensors, in units of 0.125 °C; empty before the first (R486) -/
  temps : List Int := []
  fw : FwSt := {}
  svc : SvcSt := {}
  anchors : List Anchor := []
  csc : CscSt := {}
  fd : FdSt := {}
  td : TdSt := {}
  line : LineSt := {}
  tbl : TblSt := {}
  tcam : TcamSt := {}
  d5 : D5St := {}
  cnt : CntSt := {}
  chk : ChkSt := {}
  pwr : PwrSt := {}
  /-- reports made in this tick of the kinds that are made once a tick -/
  told : List Nat := []
  /-- draws of free values so far: the model's own field -/
  draws : Nat := 0
  out : List Out := []
deriving DecidableEq, Repr

end Sys2Proof.Machine
end

