-- ==== Sys2Proof/Machine/Flags.lean ====
section
/-! DEFINITION. The register file, and the flags and counts kept in it: fields, interrupt causes (R406), and the counter
families of R443. -/

namespace Sys2Proof.Machine

/-- The stored value of the register at an address. -/
def Block.reg (b : Block) (a : Nat) : Word :=
  match NMap.find? b.regs a with
  | some v => v
  | none => resetOf a

/-- Store a register, keeping only the bits that exist (R10). -/
def Block.setReg (b : Block) (a : Nat) (v : Word) : Block :=
  { b with regs :=
      if v &&& maskOf a = resetOf a then NMap.del b.regs a else NMap.put b.regs a (v &&& maskOf a) }

/-- A field of a register, as a number. -/
def Block.fld (b : Block) (a : Nat) (f : Fld) : Nat := fldGet f (b.reg a)

/-- Store a field of a register. -/
def Block.setFld (b : Block) (a : Nat) (f : Fld) (v : Nat) : Block := b.setReg a (fldPut f (b.reg a) v)

/-- A one-bit field, as a truth value. -/
def Block.flag (b : Block) (a : Nat) (f : Fld) : Bool := b.fld a f ≠ 0

/-- The registers of a page return to their reset values. -/
def Block.clearPage (b : Block) (p : Nat) : Block :=
  { b with regs := b.regs.filter (fun e => e.1 / 0x10000 != p) }

/-- The registers at addresses `lo` to `hi` return to their reset values. -/
def Block.clearRange (b : Block) (lo hi : Nat) : Block :=
  { b with regs := b.regs.filter (fun e => !(lo ≤ e.1 && e.1 ≤ hi)) }

/-- The register at an address returns to its reset value. -/
def Block.clearReg (b : Block) (a : Nat) : Block := { b with regs := NMap.del b.regs a }

/-- Set causes in a page's `INT_RAW` (R406). -/
def Block.intRaw (b : Block) (page bit : Nat) : Block :=
  b.setReg (HDR.INT_RAW page) (b.reg (HDR.INT_RAW page) ||| BitVec.ofNat 32 (1 <<< bit))

/-- Set a cause if a condition holds. -/
def Block.intRawIf (b : Block) (c : Bool) (page bit : Nat) : Block := if c then b.intRaw page bit else b

/-- The value of a 48-bit counter of the drop-counter family, by the address of its `_LO` (R443). -/
def Block.cnt48 (b : Block) (lo : Nat) : Nat := (b.reg lo).toNat + (b.reg (lo + 4)).toNat % 2 ^ 16 * 2 ^ 32

/-- Add `n` to a 48-bit counter whose WRAP flag is bit 31 of `_HI`; at its largest value it wraps to 0, sets WRAP and
raises the page's cause `bit` (R443). -/
def Block.countN (b : Block) (lo bit n : Nat) : Block :=
  let v := b.cnt48 lo + n
  let wraps := 2 ^ 48 ≤ v
  let hi := b.reg (lo + 4)
  let hi' := (hi &&& 0x80000000#32) ||| (if wraps then 0x80000000#32 else 0#32)
    ||| BitVec.ofNat 32 (v / 2 ^ 32 % 2 ^ 16)
  ((b.setReg lo (BitVec.ofNat 32 v)).setReg (lo + 4) hi').intRawIf wraps (lo / 0x10000) bit

/-- Count one event of the drop-counter family (R443).
DEDUCED, unsafe: log entry 105. -/
def Block.count (b : Block) (lo bit : Nat) : Block := b.countN lo bit 1

/-- Count one event if a condition holds. -/
def Block.countIf (b : Block) (c : Bool) (lo bit : Nat) : Block := if c then b.count lo bit else b

/-- Add to a 32-bit diagnostic that saturates at all-ones (R443). -/
def Block.satAdd (b : Block) (a n : Nat) : Block :=
  b.setReg a (BitVec.ofNat 32 (min ((b.reg a).toNat + n) 0xFFFFFFFF))

/-- Add to a saturating field of a register (R443). -/
def Block.satFld (b : Block) (a : Nat) (f : Fld) (n : Nat) : Block :=
  b.setFld a f (min (b.fld a f + n) (2 ^ f.width - 1))

/-- Add to a 32-bit framer counter: it saturates and sets its SAT bit, bit `k` of the register `sat` (R443). -/
def Block.framerAdd (b : Block) (a sat k n : Nat) : Block :=
  let v := (b.reg a).toNat + n
  let b' := b.setReg a (BitVec.ofNat 32 (min v 0xFFFFFFFF))
  if 0xFFFFFFFF ≤ v then b'.setReg sat (b'.reg sat ||| BitVec.ofNat 32 (1 <<< k)) else b'

/-- The NS part of network time (R368). -/
def Block.nowNs (b : Block) : Nat := b.time.t / 10 ^ 12 % 10 ^ 9

/-- The SEC part of network time (R368). -/
def Block.nowSec (b : Block) : Nat := b.time.t / 10 ^ 21 % 2 ^ 48

/-- Network time in whole ns. -/
def Block.nowTotal (b : Block) : Nat := b.time.t / 10 ^ 12

/-- The TD's follower copy of network time, in units of 10⁻¹² ns (R34). -/
def Block.tdTime (b : Block) : Nat := ((b.time.t : Int) + b.td.skew).toNat

/-- The follower time in whole ns: the TD's shapers count on it (R34, R227). -/
def Block.tdTotal (b : Block) : Nat := b.tdTime / 10 ^ 12

/-- Ticks fired so far. -/
def Block.ticks (b : Block) : Nat := b.time.fired

/-- Draw a fresh index for a free value (the model's own counter).
DESIGN CHOICE, safe: log entry 6. -/
def Block.drawn (b : Block) : Block := { b with draws := b.draws + 1 }

/-- Something leaves the device. -/
def Block.emitOut (b : Block) (o : Out) : Block := { b with out := b.out ++ [o] }

/-- The codes of the modes (R41). -/
def modeCode : Mode → Nat
  | .unpowered => 0
  | .standby => 1
  | .spore => 2
  | .boot => 3
  | .bringUp => 4
  | .quiescent => 5
  | .forwarding => 6
  | .degraded => 7
  | .drain => 8
  | .handover => 9
  | .lowPowerHold => 10
  | .faultHold => 11

/-- The codes of the sources (R41, R405). -/
def sourceCode : Source → Nat
  | .host => 0
  | .service => 1
  | .firmware => 2

/-- The main rails feed the large dies and the core blocks run: BRING-UP to FAULT-HOLD (R41, R396).
DESIGN CHOICE, unsafe: log entry 171. -/
def coreOn : Mode → Bool
  | .bringUp | .quiescent | .forwarding | .degraded | .drain | .handover | .lowPowerHold | .faultHold => true
  | _ => false

/-- The modes that forward: FORWARDING, DEGRADED, DRAIN (R40). -/
def forwards : Mode → Bool
  | .forwarding | .degraded | .drain => true
  | _ => false

/-- The data plane runs: the forwarding modes, and HANDOVER, in which it runs on hardware state (R41). -/
def dataRuns (m : Mode) : Bool := forwards m || decide (m = .handover)

/-- HANDOVER entered from QUIESCENT: no data plane runs (R41). -/
def Block.quietHandover (b : Block) : Bool := decide (b.mode.mode = .handover) && b.mode.fromQuiescent

/-- BRING-UP to LOW-POWER HOLD: codes 0x4 to 0xA (R41). -/
def bringUpToHold (m : Mode) : Bool := coreOn m && decide (m ≠ .faultHold)

end Sys2Proof.Machine
end

