-- ==== Sys2Proof/Machine/PowerBase.lean ====
section
/-! DEFINITION. The state of the power groups and how long each has been in it (R475, R476, R480, R482). -/

namespace Sys2Proof.Machine

/-- No power group is out of reset: STANDBY, BOOT and SPORE, and without power (R480). -/
def Block.railsOff (b : Block) : Bool := !coreOn b.mode.mode

/-- The state of a DDR5 channel's group that its channel state fixes: P4 for OUT, FAILED, RETIRED and UNTRAINED, P0 for
TRAINING, HOLD, EVAC_SOURCE, EVAC_TARGET and REMIRROR (R477). -/
def Block.groupFixed (b : Block) (g : Nat) : Option Nat :=
  if 28 ≤ g && g < 45 then
    let st := b.fld (D5C.STS (g - 28)) D5C.STS_STATE
    if st = 2 || st = 3 then none else if st = 0 || 8 ≤ st then some 4 else some 0
  else none

/-- The state of a power group (R475, R477, R480). -/
def Block.groupState (b : Block) (g : Nat) : Nat :=
  if b.railsOff then 4
  else if b.mode.mode = .bringUp then 0
  else match b.groupFixed g with
    | some s => s
    | none => b.fld (PWR.GSTS g) PWR.GSTS_STATE

/-- The counts of a group. -/
def Block.pwrGroup (b : Block) (g : Nat) : PwrGroup :=
  (NMap.find? b.pwr.groups g).getD { since := b.pwr.start }
def Block.setPwrGroup (b : Block) (g : Nat) (x : PwrGroup) : Block :=
  { b with pwr := { b.pwr with groups := NMap.put b.pwr.groups g x } }

/-- Nanoseconds spent in a state (R482). -/
def PwrGroup.spent (x : PwrGroup) : Nat → Nat
  | 0 => x.p0
  | 1 => x.p1
  | 2 => x.p2
  | 3 => x.p3
  | _ => x.p4

/-- Add to the time spent in a state. -/
def PwrGroup.spend (x : PwrGroup) (s n : Nat) : PwrGroup :=
  match s with
  | 0 => { x with p0 := x.p0 + n }
  | 1 => { x with p1 := x.p1 + n }
  | 2 => { x with p2 := x.p2 + n }
  | 3 => { x with p3 := x.p3 + n }
  | _ => { x with p4 := x.p4 + n }

/-- Microseconds spent in a state up to now, before they wrap (R482). -/
def Block.residency (b : Block) (g s : Nat) : Nat :=
  let x := b.pwrGroup g
  (x.spent s + (if b.groupState g = s then b.time.elapsed - x.since else 0)) / 1000

/-- A group's time so far goes to the state it is in; a residency that passes 48 bits sets its WRAP (R443, R482). -/
def Block.pwrAcc (b : Block) (g : Nat) : Block :=
  let x := b.pwrGroup g
  let s := b.groupState g
  let wraps := x.spent s / (2 ^ 48 * 1000) < (x.spent s + (b.time.elapsed - x.since)) / (2 ^ 48 * 1000)
  let y := { x.spend s (b.time.elapsed - x.since) with
               since := b.time.elapsed
               wraps := if wraps then x.wraps ||| (1 <<< s) else x.wraps }
  (b.setPwrGroup g y).intRawIf wraps 0x63 3

/-- The time so far of every group. -/
def Block.pwrSettle (b : Block) : Block := (upTo 46).foldl (fun x g => x.pwrAcc g) b

/-- Cells that a group's retention takes (R475). -/
def retCells (g : Nat) : Nat :=
  if g < 20 then 256 else if g < 28 then 32768 else if g < 45 then 16 else 82560

/-- A group's stored state changes; retention is held while it is P4 (R481). -/
def Block.groupTo (b : Block) (g s : Nat) : Block :=
  let was := b.fld (PWR.GSTS g) PWR.GSTS_STATE
  let used := b.fld PWR.RET_USED PWR.RET_USED_CELLS
  let b1 := (b.pwrAcc g).setFld (PWR.GSTS g) PWR.GSTS_STATE s
  if s = 4 && was ≠ 4 then b1.setFld PWR.RET_USED PWR.RET_USED_CELLS (used + retCells g)
  else if s ≠ 4 && was = 4 then b1.setFld PWR.RET_USED PWR.RET_USED_CELLS (used - retCells g) else b1

/-- Every group returns to P0, and retention is released (R484, R485). -/
def Block.groupsP0 (b : Block) : Block :=
  ((upTo 46).foldl (fun x g => x.clearReg (PWR.GSTS g)) b.pwrSettle).clearReg PWR.RET_USED

/-- The exit latency of a state in ns (R476). -/
def exitLatency (s : Nat) : Nat :=
  match s with
  | 0 => 0
  | 1 => 40
  | 2 => 8000
  | 3 => 3000
  | _ => 5000000

/-- A group's exit begins, unless it is in P0, held in its state by its kind, or frozen (R477, R479, R480). -/
def Block.demand (b : Block) (g : Nat) : Block :=
  if b.mode.mode = .faultHold || b.railsOff || (b.groupFixed g).isSome || b.groupState g = 0 then b
  else (b.setFld (PWR.GSTS g) PWR.GSTS_MOVING 1).setFld (PWR.GSTS g) PWR.GSTS_RET_REFUSED 0

/-- A write of `LTRg`: a state whose exit latency is above the new value is left at once (R478). -/
def Block.ltrWritten (b : Block) (g : Nat) : Block :=
  if b.fld (PWR.LTR g) PWR.LTR_LTR < exitLatency (b.groupState g) then b.demand g else b

/-- Groups in P4 that hold retention. -/
def Block.retained (b : Block) : List Nat :=
  (upTo 46).filter (fun g => !b.railsOff && (b.groupFixed g).isNone && b.fld (PWR.GSTS g) PWR.GSTS_STATE = 4)

/-- Every group in P4 begins to exit (R480). -/
def Block.wakeAll (b : Block) : Block := b.retained.foldl (fun x g => x.demand g) b

/-- The ports of a slice are held down: no mode that carries traffic, or the slice is drained (R41, R42, R488). -/
def Block.portHeld (b : Block) (p : Nat) : Bool :=
  (match b.mode.mode with
    | .bringUp | .quiescent | .lowPowerHold => true
    | .handover => b.mode.fromQuiescent
    | _ => false) || bitAt (b.fld PWR.SLICE_STS PWR.SLICE_STS_DRAINED) (p / 32)

end Sys2Proof.Machine
end

