-- ==== Sys2Proof/Machine/Ops.lean ====
section
/-! DEFINITION. Operations shared by every block: transfers to host memory, descriptor rings (R410 to R414), events (R415,
R416), the capture of a bad access (R405), and the interrupt path (R406, R407). -/

namespace Sys2Proof.Machine

/-- A transfer of `n` bytes at `a` fails if it touches a failing range of host memory. -/
def HostMem.fails (h : HostMem) (a n : Nat) : Bool := h.bad.any (fun r => r.1 < a + n && a < r.1 + r.2)

/-- Write bytes to host memory. -/
def Block.dmaWrite (b : Block) (a : Nat) (bs : List Byte) : Block :=
  { b with host := { b.host with mem := Memory.writeN b.host.mem a bs } }

/-- Read bytes of host memory. -/
def Block.dmaRead (b : Block) (a n : Nat) : List Byte := Memory.readN b.host.mem a n

/-- The state of a ring beside its registers. -/
def Block.ring (b : Block) (r : Nat) : Ring := NMap.get Ring.fresh b.rings r

/-- Replace the state of a ring. -/
def Block.setRing (b : Block) (r : Nat) (x : Ring) : Block := { b with rings := NMap.set Ring.fresh b.rings r x }

/-- A ring's size in descriptors (R410). -/
def Block.ringSize (b : Block) (r : Nat) : Nat := 2 ^ b.fld (PCI.RING_CFG r) PCI.RING_CFG_LOG2_SIZE

/-- The host address of descriptor `i` of a ring (R410, R411). -/
def Block.descAddr (b : Block) (r i : Nat) : Nat :=
  (b.reg (PCI.RING_BASE_HI r)).toNat * 2 ^ 32 + (b.reg (PCI.RING_BASE_LO r)).toNat + 32 * (i % b.ringSize r)

/-- A punt ring that delivers to the sorus: its ring registers have no effect (R447). -/
def Block.toSorus (b : Block) (r : Nat) : Bool := bitAt (b.reg FWM.SORUS_RINGS).toNat r

/-- A ring that runs: enabled, not stopped, and the host's (R412, R413, R447). -/
def Block.ringRuns (b : Block) (r : Nat) : Bool :=
  b.flag (PCI.RING_CFG r) PCI.RING_CFG_ENABLE && !b.flag (PCI.RING_STS r) PCI.RING_STS_STOPPED && !b.toSorus r

/-- The descriptors a ring holds that the device has not fetched. -/
def Block.ringFree (b : Block) (r : Nat) : Nat := (b.ring r).owned - (b.ring r).taken

/-- The rings whose producer is the device: 0-31 and 64-66 (R410). -/
def deviceProduces (r : Nat) : Bool := r < 32 || (64 ≤ r && r ≤ 66)

/-- The rings that run in a mode: in SPORE only the firmware-block ring and the event ring (R396); with the core off none. -/
def ringAlive (m : Mode) (r : Nat) : Bool :=
  coreOn m || (decide (m = .spore) && (r = 65 || r = 68))

/-- A ring requests its interrupt (R414): a request that no message has told of yet. -/
def Ring.raise (x : Ring) : Ring := { x with request := true, told := false }

/-- A descriptor of one ring has been returned: ownership passes, the interrupt coalescing of R414 counts it. -/
def Block.returned (b : Block) (r : Nat) : Block :=
  let x := b.ring r
  let cnt := b.fld (PCI.RING_COAL r) PCI.RING_COAL_COUNT
  let u := x.unreported + 1
  let fires := cnt ≤ u
  let y := { x with owned := x.owned - 1, taken := x.taken - 1, unreported := if fires then 0 else u
                    firstAt := if x.unreported = 0 then b.time.elapsed else x.firstAt }
  b.setRing r (if fires && b.flag (PCI.RING_CFG r) PCI.RING_CFG_INT_EN then y.raise else y)

/-- The bytes of one returned descriptor: STATUS and OWN in place, and LEN where the device wrote data (R411). -/
def descReturned (d : List Byte) (len : Option Nat) (status : Nat) : List Byte :=
  let l := match len with
    | some n => leBytes 3 n
    | none => bytesAt d 8 3
  bytesAt d 0 8 ++ l ++ bytesAt d 11 3 ++ [BitVec.ofNat 8 status, 0#8] ++ bytesAt d 16 16

/-- Write back the descriptors a stopped or disabled ring still owns, in index order, as FLUSHED; one whose OWN reads 0 is the
host's, and the device does not write it (R412, R413).
DEDUCED, unsafe: log entry 137. -/
def Block.flushDescs (b : Block) (r : Nat) : Nat → Nat → Block
  | _, 0 => b
  | i, n + 1 =>
    let a := b.descAddr r i
    let d := b.dmaRead a 32
    let b1 := if bitAt (leAt d 15 1) 7 then b.dmaWrite a (descReturned d (if deviceProduces r then some 0 else none) 5) else b
    Block.flushDescs b1 r (i + 1) n

/-- Stop using a ring: flush what it owns (unless `quiet`: a DMA error or a Function Level Reset makes no write-backs)
and set IDLE (R413). -/
def Block.idleRing (b : Block) (r : Nat) (quiet : Bool) : Block :=
  let x := b.ring r
  let head := b.fld (PCI.RING_HEAD r) PCI.RING_HEAD_HEAD
  let b1 := if quiet then b else b.flushDescs r (head + b.ringSize r - x.taken) x.owned
  (b1.setRing r { Ring.fresh with request := x.request, told := x.told }).setFld (PCI.RING_STS r) PCI.RING_STS_IDLE 1

/-- A ring is disabled: it idles at once, or once its descriptor in progress has gone back (R413).
DEDUCED, unsafe: log entry 214. -/
def Block.ringOff (b : Block) (r : Nat) : Block := if (b.ring r).job.isSome then b else b.idleRing r false

/-- One event of a page adds 1 to its `EVT_SEQ` (R415). -/
def Block.bumpSeq (b : Block) (page : Nat) : Block := b.setReg (HDR.EVT_SEQ page) (b.reg (HDR.EVT_SEQ page) + 1#32)

/-- An event that finds no descriptor: counted in DROPS of the event ring, and marked as lost (R415). -/
def Block.dropEvent (b : Block) : Block :=
  if coreOn b.mode.mode || decide (b.mode.mode = .spore) then
    ({ b with lost := true }.satFld (PCI.RING_STS 65) PCI.RING_STS_DROPS 1).intRaw 1 3
  else { b with lost := true }

/-- Record a ring error: the first is held; errors 2 and 3 stop the ring (R413). The HOST event is the caller's.
DEDUCED, unsafe: log entry 136. -/
def Block.ringErrState (b : Block) (r code : Nat) : Block :=
  let b1 := if b.fld (PCI.RING_STS r) PCI.RING_STS_ERR = 0 then b.setFld (PCI.RING_STS r) PCI.RING_STS_ERR code else b
  let b2 := b1.intRaw 1 0
  if code = 1 then b2
  else (b2.idleRing r (code = 3)).setFld (PCI.RING_STS r) PCI.RING_STS_STOPPED 1

/-- The 32 bytes of an EVENT descriptor (R416). -/
def eventDesc (data : List Byte) (lost : Bool) (cls sub page : Nat) (seq : Word) (ns sec : Nat) : List Byte :=
  bytesAt data 0 12 ++ [4#8, BitVec.ofNat 8 (3 + 4 * b2n lost), 0#8, 0#8]
    ++ leBytes 1 cls ++ leBytes 1 sub ++ leBytes 2 page ++ leBytes 4 seq.toNat ++ leBytes 4 ns ++ leBytes 4 sec

/-- The outcome of fetching the descriptor at HEAD of a ring: its bytes, or the error that stops the ring (R413). -/
inductive Fetch where
  | ok (d : List Byte)
  | err (code : Nat)
deriving DecidableEq, Repr

/-- Fetch the descriptor at HEAD (R412, R413). -/
def Block.fetchHead (b : Block) (r : Nat) : Fetch :=
  let a := b.descAddr r (b.fld (PCI.RING_HEAD r) PCI.RING_HEAD_HEAD)
  if b.host.fails a 32 then .err 3
  else
    let d := b.dmaRead a 32
    if bitAt (leAt d 15 1) 7 then .ok d else .err 2

/-- HEAD moves one descriptor on, which the device has then taken. -/
def Block.takeHead (b : Block) (r : Nat) : Block :=
  let x := b.ring r
  (b.setFld (PCI.RING_HEAD r) PCI.RING_HEAD_HEAD
    ((b.fld (PCI.RING_HEAD r) PCI.RING_HEAD_HEAD + 1) % b.ringSize r)).setRing r { x with taken := x.taken + 1 }

/-- Place an event whose class is enabled and whose sequence number is already counted (R415). A ring error met on the
way stops the event ring; the HOST event that reports it is itself dropped.
DEDUCED, unsafe: log entry 141. -/
def Block.placeEvent (b : Block) (page cls sub : Nat) (data : List Byte) : Block :=
  if b.ringRuns 65 && 0 < b.ringFree 65 && ringAlive b.mode.mode 65 then
    match b.fetchHead 65 with
    | .err c => (((b.ringErrState 65 c).dropEvent).bumpSeq 1).dropEvent
    | .ok _ =>
      let a := b.descAddr 65 (b.fld (PCI.RING_HEAD 65) PCI.RING_HEAD_HEAD)
      let d := eventDesc data b.lost cls sub page (b.reg (HDR.EVT_SEQ page)) b.nowNs (b.nowSec % 2 ^ 32)
      { ((b.dmaWrite a d).takeHead 65).returned 65 with lost := false }
  else b.dropEvent

/-- The device produces an event (R415): the page's sequence number advances; a disabled class is not placed. -/
def Block.event (b : Block) (page cls sub : Nat) (data : List Byte) : Block :=
  let b1 := b.bumpSeq page
  if bitAt (b1.reg GLB.EVT_CLASS_EN).toNat cls then b1.placeEvent page cls sub data else b1

/-- An event if a condition holds. -/
def Block.eventIf (b : Block) (c : Bool) (page cls sub : Nat) (data : List Byte) : Block :=
  if c then b.event page cls sub data else b

/-- A ring error with its HOST event, subcode 0x04: the ring and ERR (R413). -/
def Block.ringErr (b : Block) (r code : Nat) : Block :=
  (b.ringErrState r code).event 1 0x10 0x04 [BitVec.ofNat 8 r, BitVec.ofNat 8 code]

/-- Data for a device-produced ring that finds no descriptor is dropped and counted (R413). -/
def Block.ringDrop (b : Block) (r : Nat) : Block := b.satFld (PCI.RING_STS r) PCI.RING_STS_DROPS 1

/-- Bytes to one buffer of a device-produced ring and its descriptor back, whole: ADDR and CTL are the host's, the rest
is `tail` from byte 0x08 on (R412). Answers whether it was placed. -/
def Block.produce (b : Block) (r : Nat) (mk : List Byte → List Byte) (buf : List Byte) : Block × Bool :=
  if b.ringRuns r && 0 < b.ringFree r && ringAlive b.mode.mode r then
    match b.fetchHead r with
    | .err c => ((b.ringErr r c).ringDrop r, false)
    | .ok d =>
      let a := b.descAddr r (b.fld (PCI.RING_HEAD r) PCI.RING_HEAD_HEAD)
      let n := min (leAt d 8 3) buf.length
      if b.host.fails (leAt d 0 8) n && 0 < n then ((b.ringErr r 3).ringDrop r, false)
      else
        ((((b.dmaWrite (leAt d 0 8) (buf.take n)).dmaWrite a (mk d)).takeHead r).returned r, true)
  else (b.ringDrop r, false)

/-- Return a host-produced descriptor that the device has taken, the oldest first, with its STATUS (R412). -/
def Block.giveBack (b : Block) (r status : Nat) : Block :=
  let x := b.ring r
  let head := b.fld (PCI.RING_HEAD r) PCI.RING_HEAD_HEAD
  let a := b.descAddr r (head + b.ringSize r - x.taken)
  let d := b.dmaRead a 32
  (b.dmaWrite a (descReturned d none status)).returned r

/-- Return the descriptors of the fetched packets at the front of an inject ring whose STATUS is known: descriptors return in
index order (R412, R418). -/
def Block.returnInjects (r : Nat) : List Injected → Block → Block
  | [], b => b.setRing r { b.ring r with injects := [] }
  | x :: xs, b =>
    match x.status with
    | none => b.setRing r { b.ring r with injects := x :: xs }
    | some s => Block.returnInjects r xs ((upTo x.descs).foldl (fun y _ => y.giveBack r s) b)

/-- The STATUS of a fetched packet of an inject ring is known. -/
def Block.injectDone (b : Block) (r serial status : Nat) : Block :=
  Block.returnInjects r ((b.ring r).injects.map (fun x => if x.serial = serial then { x with status := some status } else x)) b

/-- Capture a bad access in the page's `ERR_ADDR` and `ERR_INFO` if none is held, with its HOST event 0x03 (R405).
`lsb` is the lowest bit of the offending field, 0xFF for a whole access. -/
def Block.capture (b : Block) (page off : Nat) (src : Nat) (write : Bool) (lsb code : Nat) : Block :=
  if b.flag (HDR.ERR_INFO page) HDR.ERR_INFO_VALID then b
  else
    let info := 2 ^ 31 + src * 2 ^ 28 + b2n write * 2 ^ 27 + lsb * 2 ^ 8 + code
    let b1 := b.setReg (HDR.ERR_ADDR page) (BitVec.ofNat 32 (off / 4 * 4))
    let b2 := b1.setReg (HDR.ERR_INFO page) (BitVec.ofNat 32 info)
    b2.event page 0x10 0x03 (leBytes 2 page ++ leBytes 2 off ++ leBytes 1 code)

/-- Capture a bad write at a register's address. -/
def Block.captureAt (b : Block) (a : Nat) (src : Source) (lsb code : Nat) : Block :=
  b.capture (a / 0x10000) (a % 0x10000) (sourceCode src) true lsb code

/-- The page's interrupt request: INT_RAW AND INT_EN (R406). -/
def Block.intPend (b : Block) (page : Nat) : Word := b.reg (HDR.INT_RAW page) &&& b.reg (HDR.INT_EN page)

/-- The pages of R398. -/
def allPages : List Nat := pageTable.flatMap (fun r => (List.range (r.last - r.first + 1)).map (fun i => r.first + i))

/-- The summary of a vector: the OR of every request mapped to it (R406). -/
def Block.vecSummary (b : Block) (v : Nat) : Bool :=
  allPages.any (fun p => b.intPend p ≠ 0#32 && b.flag (PCI.VEC_MAP p) PCI.VEC_MAP_EN
      && b.fld (PCI.VEC_MAP p) PCI.VEC_MAP_VECTOR = v)
    || (List.range 69).any (fun r => (b.ring r).request && b.fld (PCI.RING_CFG r) PCI.RING_CFG_VECTOR = v)

/-- A vector is armed: it has not sent since its last acknowledgement (R406). -/
def Block.vecArmed (b : Block) (v : Nat) : Bool := !b.sent.contains v

/-- A vector's own mask bit in the MSI-X table. -/
def Block.vecMasked (b : Block) (v : Nat) : Bool := b.flag (PCI.MSIX_CTL v) PCI.MSIX_CTL_MASK

/-- The requests of rings that a message of vector `v` tells of.
DEDUCED, unsafe: log entry 140. -/
def Block.tellRings (b : Block) (v : Nat) : Block :=
  (upTo 69).foldl (fun y r =>
    let x := y.ring r
    if x.request && y.fld (PCI.RING_CFG r) PCI.RING_CFG_VECTOR = v then y.setRing r { x with told := true } else y) b

/-- An MSI-X message goes out, if the rules of R406 let it; sending disarms the vector. -/
def Block.msixSend (b : Block) (v : Nat) (fnMasked : Bool) : Block :=
  if b.vecSummary v && b.vecArmed v && !b.vecMasked v && !fnMasked
      && (coreOn b.mode.mode || decide (b.mode.mode = .spore)) then
    { b.tellRings v with sent := v :: b.sent }.emitOut
      (.msix v ((b.reg (PCI.MSIX_ADDR_HI v)).toNat * 2 ^ 32 + (b.reg (PCI.MSIX_ADDR_LO v)).toNat)
        (b.reg (PCI.MSIX_DATA v)).toNat)
  else b

end Sys2Proof.Machine
end

