-- ==== Sys2Proof/Machine/ModeOps.lean ====
section
/-! DEFINITION. The mode of the device and what every block does to it: the persistent log (R473), a change of mode (R41),
the mode that conditions and drains call for (R40), and a fatal error (R405). -/

namespace Sys2Proof.Machine

/-- Write a record of the persistent log: a ring of 32,768 records (R473). -/
def Block.logRec (b : Block) (cls sub src : Nat) (data : List Byte) : Block :=
  let r : LogRec := { seq := b.nv.logSeq, sec := b.nowSec % 2 ^ 32, ns := b.nowNs, cls := cls, sub := sub,
                      src := src, data := data.take 44 }
  { b with nv := { b.nv with log := (b.nv.log ++ [r]).drop (b.nv.log.length + 1 - 32768),
                             logSeq := (b.nv.logSeq + 1) % 2 ^ 32 } }

/-- Enter a mode, with `INT_RAW` bit 1 of GLB and HOST event 0x01 (R41, HOST events). -/
def Block.enterMode (b : Block) (m : Mode) (cause : Nat) : Block :=
  let b0 := if coreOn m = coreOn b.mode.mode then b else b.pwrSettle
  let b1 := { b0 with mode := { b.mode with mode := m, prev := b.mode.mode, cause := cause, transition := false,
                                            since := b.time.elapsed } }
  (b1.intRaw 0 1).event 0 0x10 0x01
    [BitVec.ofNat 8 (modeCode m), BitVec.ofNat 8 (modeCode b.mode.mode), BitVec.ofNat 8 cause]

/-- At least one slice of R40 is drained: a line slice whose DRAINED reads 1, a fabric macro whose DRAINED reads 1, a
channel under evacuation, or the odd bridge wires during a retrain (R489). -/
def Block.sliceDrained (b : Block) : Bool :=
  b.fld PWR.SLICE_STS PWR.SLICE_STS_DRAINED ≠ 0
    || (List.range 12).any (fun n => b.flag (FAB.STS n) FAB.STS_DRAINED)
    || b.fld D5M.EVAC_STS D5M.EVAC_STS_RESULT = 1
    || b.flag BRG.CTL BRG.CTL_WIDTH_REQ

/-- The conditions of R39 as they now stand, bit 0 for SPARE_D5: each reads the block that holds it. -/
def Block.condNow (b : Block) : Nat :=
  let unmapped := (List.range 16).any (fun l => !b.flag (D5M.MAP l) D5M.MAP_VALID)
  let spare := (List.range 17).any (fun k => b.fld (D5C.STS k) D5C.STS_STATE = 3)
  b2n (!unmapped && !spare) + b2n unmapped * 2 +
  b2n ((List.range 64).any (fun j =>
      b.fld (LIN.LANE_STS (j / 8) (j % 8)) LIN.LANE_STS_STATE = 4 && b.fld (LIN.LANE_STS (j / 8) (j % 8)) LIN.LANE_STS_OWNER ≠ 0
        && b.flag (LIN.LANE_CFG (j / 8) (j % 8)) LIN.LANE_CFG_ENABLE)) * 4
    + b2n (b.flag BRG.STS BRG.STS_HALF) * 8
    + b2n (popcount 12 (b.fld KCL.PLANE_STS KCL.PLANE_STS_UP) < b.fld KCL.CTL KCL.CTL_PLANES_EXPECTED) * 16

/-- The mode that R40 calls for among FORWARDING, DEGRADED and DRAIN. -/
def Block.mode40 (b : Block) : Mode :=
  if b.sliceDrained then .drain else if b.condNow ≠ 0 then .degraded else .forwarding

/-- A trigger of a rank of R45 takes effect in the present island clock. -/
def Block.wins (b : Block) (rank : Nat) : Block := { b with mode := { b.mode with winner := some rank } }

/-- Follow R40 after a change of conditions or drains: a mode change has LAST_CAUSE 0x06 and rank 11 (R45). -/
def Block.follow40 (b : Block) : Block :=
  if forwards b.mode.mode && decide (b.mode40 ≠ b.mode.mode) then (b.wins 11).enterMode b.mode40 6 else b

/-- The request in progress ends with a result, which RESULT shows while no later request has been made (R41, R45). -/
def Block.endRequest (b : Block) (result : Nat) : Block :=
  match b.mode.inProgress with
  | none => b
  | some q => { b with mode := { b.mode with inProgress := none, transition := false, portHold := false,
                                             bootPending := none,
                                             reqResult := if q.seq = b.mode.reqSeq then result else b.mode.reqResult } }

/-- Record a fatal error in GLB: it replaces a held access error, not a held fatal error (R405). -/
def Block.recordFatal (b : Block) (code page off src : Nat) (write : Bool) : Block :=
  if b.flag (HDR.ERR_INFO 0) HDR.ERR_INFO_VALID && 0x80 ≤ b.fld (HDR.ERR_INFO 0) HDR.ERR_INFO_CODE then b
  else
    let b1 := b.setReg (HDR.ERR_ADDR 0) (BitVec.ofNat 32 (page * 2 ^ 16 + off))
    let b2 := b1.setReg (HDR.ERR_INFO 0)
      (BitVec.ofNat 32 (2 ^ 31 + src * 2 ^ 28 + b2n write * 2 ^ 27 + 0xFF * 2 ^ 8 + code))
    (b2.intRaw 0 0).event 0 0x10 0x05 (leBytes 1 code ++ leBytes 2 page)

/-- Enter FAULT-HOLD: the transition is reported once as an AER error (R397), and a request in progress is preempted. -/
def Block.toFaultHold (b : Block) (cause : Nat) : Block :=
  ((b.endRequest 5).emitOut .aer).enterMode .faultHold cause

/-- A fatal error of the device: recorded, and FAULT-HOLD from the modes that allow it (R41, R405). -/
def Block.fatal (b : Block) (code page : Nat) : Block :=
  if bringUpToHold b.mode.mode then
    ((b.wins 4).recordFatal code page 0 3 false).toFaultHold 8
  else b

end Sys2Proof.Machine
end

