-- ==== Sys2Proof/Machine/RegRules.lean ====
section
/-! DEFINITION. The writes that other state makes reserved: for a register and the word written, the lowest bits of the
fields that the device treats as holding reserved codes (R11). -/

namespace Sys2Proof.Machine

/-- The field of a word, as the rules below read it. -/
def wf (w : Word) (f : Fld) : Nat := fldGet f w

/-- `k` if the condition holds. -/
def badIf (c : Bool) (k : Nat) : List Nat := if c then [k] else []

/-- Index of an address in an array of registers: first address, stride, count. -/
def arrayIx (a first stride count : Nat) : Option Nat :=
  if first ≤ a && (a - first) % stride = 0 && (a - first) / stride < count then some ((a - first) / stride) else none

/-- WIN.APERTURE_BASE: SPACE 0x4, 0x6 and 0x7 are reserved (R408). -/
def badWin (a : Nat) (v : Word) : List Nat :=
  badIf (a = WIN.APERTURE_BASE && (let s := wf v WIN.APERTURE_BASE_SPACE; s = 4 || 6 ≤ s)) 0

/-- RINGr_BASE and LOG2_SIZE change only while ENABLE is 0 and IDLE is 1 (R413). -/
def badRing (b : Block) (a : Nat) (old v : Word) : List Nat :=
  if 0x10400 ≤ a && a < 0x10400 + 0x20 * 69 then
    let r := (a - 0x10400) / 0x20
    let open_ := !b.flag (PCI.RING_CFG r) PCI.RING_CFG_ENABLE && b.flag (PCI.RING_STS r) PCI.RING_STS_IDLE
    if (a - 0x10400) % 0x20 = 0 then badIf (!open_ && decide (old &&& 0xFFFFFFC0#32 ≠ v &&& 0xFFFFFFC0#32)) 6
    else if (a - 0x10400) % 0x20 = 4 then badIf (!open_ && decide (old ≠ v)) 0
    else if (a - 0x10400) % 0x20 = 8 then
      badIf (!open_ && wf old PCI.RING_CFG_LOG2_SIZE ≠ wf v PCI.RING_CFG_LOG2_SIZE) 0
    else []
  else []

end Sys2Proof.Machine
end

