-- ==== Sys2Proof/Machine/Access.lean ====
section
/-! DEFINITION. A register access: which pages answer (R17, R396, R420), the width rules (R399), unassigned pages (R400),
write enable and soft reset (R403), locks (R404), access codes and reserved codes (R8 to R11). -/

namespace Sys2Proof.Machine


/-- What a write makes of a register's fields: the word stored, the word its effect sees (a refused field as it stood, a
refused command bit 0), whether the unlock was armed, and the lowest bits of the first field refused for want of an
unlock and of the first field that held a reserved code. -/
structure WriteOut where
  value : Word
  took : Word
  unlocked : Bool
  lockLsb : Option Nat
  codeLsb : Option Nat
deriving DecidableEq, Repr

/-- The first of two optional numbers that is present. -/
def orElseNat (a : Option Nat) (n : Nat) : Option Nat :=
  match a with
  | some x => some x
  | none => some n

/-- Apply a write to one field by its access code (R8, R9, R11). -/
def writeField (old v : Word) (bad : List Nat) (o : WriteOut) (f : FieldDesc) : WriteOut :=
  let fl : Fld := ⟨f.lsb, f.msb - f.lsb + 1⟩
  let nv := fldGet fl v
  let ov := fldGet fl old
  let reserved := nv < f.lo || f.hi < nv || bad.contains f.lsb
  match f.acc with
  | .ro => o
  | .ros => o
  | .rw =>
    if reserved then { o with codeLsb := orElseNat o.codeLsb f.lsb }
    else { o with value := fldPut fl o.value nv, took := fldPut fl o.took nv }
  | .rwl =>
    if !o.unlocked then
      if nv = ov then o else { o with lockLsb := orElseNat o.lockLsb f.lsb }
    else if reserved then { o with codeLsb := orElseNat o.codeLsb f.lsb }
    else { o with value := fldPut fl o.value nv, took := fldPut fl o.took nv }
  | .rw1c => { o with value := fldPut fl o.value (ov - (ov &&& nv)), took := fldPut fl o.took nv }
  | .w1s => { o with value := fldPut fl o.value (ov ||| nv), took := fldPut fl o.took nv }
  | .w1sl =>
    if nv = 0 then o
    else if !o.unlocked then { o with lockLsb := orElseNat o.lockLsb f.lsb }
    else { o with value := fldPut fl o.value (ov ||| nv), took := fldPut fl o.took nv }
  | .wo => { o with took := fldPut fl o.took nv }

/-- The word an effect starts from: fields that hold a value as they stand, command and clear bits 0. -/
def tookInit (r : RegDesc) (old : Word) : Word :=
  r.fields.foldl (fun w f =>
    match f.acc with
    | .rw => w
    | .rwl => w
    | .ro => w
    | .ros => w
    | _ => fldPut ⟨f.lsb, f.msb - f.lsb + 1⟩ w 0) old

/-- Apply a write to every field of a register. -/
def writeFields (r : RegDesc) (old v : Word) (unlocked : Bool) (bad : List Nat) : WriteOut :=
  r.fields.foldl (writeField old v bad) ⟨old, tookInit r old, unlocked, none, none⟩

/-- The pages that answer the host in SPORE: the header of GLB, and PCI, AUX and FWM (R396). -/
def sporePage (p o : Nat) : Bool := (p = 0 && o < 0x100) || p = 1 || p = 0x60 || p = 0x62

/-- How an access meets the device: no answer at all, a page held in reset, or a page that answers. -/
inductive Reach where
  | silent
  | held
  | answers
deriving DecidableEq, Repr

/-- Which pages answer which source in the present mode (R17, R396, R401, R420). -/
def Block.reach (b : Block) (src : Source) (p o : Nat) : Reach :=
  match src with
  | .service => if b.mode.mode = .unpowered || !pageIsland p then .silent else .answers
  | .firmware =>
    if b.mode.mode = .unpowered then .silent
    else if pageIsland p || coreOn b.mode.mode then .answers else .held
  | .host =>
    match b.mode.mode with
    | .unpowered => .silent
    | .standby => .silent
    | .boot => .silent
    | .spore =>
      if !b.mode.mainEn || !b.mode.railsGood || !b.mode.perstN then .silent
      else if sporePage p o || (pageRow p).isNone then .answers else .held
    | .bringUp =>
      if !b.mode.perstN then .silent
      else if p ≤ 2 || pageIsland p || (pageRow p).isNone then .answers else .held
    | _ => if b.mode.perstN then .answers else .silent

/-- The unlock of a page is armed for a source (R404). -/
def Block.isArmed (b : Block) (p : Nat) (src : Source) : Bool := b.armed.contains (p, src)

/-- Disarm a page's unlock for a source. -/
def Block.disarm (b : Block) (p : Nat) (src : Source) : Block :=
  { b with armed := b.armed.filter (fun e => !(e.1 = p && decide (e.2 = src))) }

/-- A write of `LOCK_KEY`: 0x0000_C1AD arms the unlock for the next write to the page from the same source, any other
value disarms it (R404). -/
def Block.lockKey (b : Block) (p : Nat) (src : Source) (v : Word) : Block :=
  let b1 := b.disarm p src
  if v = 0xC1AD#32 then { b1 with armed := (p, src) :: b1.armed } else b1

/-- An access to an unassigned page is counted (R400). -/
def Block.unmapped (b : Block) : Block := (b.satAdd PCI.UNMAPPED_CNT 1).intRaw 1 2

/-- Captures that a write's refused fields call for: the lower field first where both a lock and a reserved code were
met, since only the first capture is held (R405). -/
def Block.captureFields (b : Block) (a : Nat) (src : Source) (o : WriteOut) : Block :=
  match o.lockLsb, o.codeLsb with
  | none, none => b
  | some l, none => b.captureAt a src l 2
  | none, some c => b.captureAt a src c 1
  | some l, some c => if l < c then (b.captureAt a src l 2).captureAt a src c 1
                      else (b.captureAt a src c 1).captureAt a src l 2

/-- The fields that other state makes reserved for this write (R11). The blocks' rules are joined in `regBad`; this
parameter lets them stand in one place. -/
abbrev BadRule := Block → Source → Nat → Word → Word → List Nat

/-- A write that reaches an assigned page and passed the width rules: write enable and soft reset, then the fields, then
the effect of the register on what was taken (R8 to R11, R403, R404). -/
def Block.pageWrite (b : Block) (bad : BadRule) (src : Source) (a : Nat) (v : Word)
    (eff : WriteOut → Word → Block → Block) : Block :=
  let p := a / 0x10000
  let o := a % 0x10000
  let unlocked := b.isArmed p src
  let b0 := b.disarm p src
  if 0x100 ≤ o && b0.flag (HDR.PAGE_CTL p) HDR.PAGE_CTL_SOFT_RESET then b0.captureAt a src 0xFF 6
  else if 0x100 ≤ o && !b0.flag (HDR.PAGE_CTL p) HDR.PAGE_CTL_WR_EN then b0.captureAt a src 0xFF 5
  else
    match regOf a with
    | none => b0
    | some r =>
      let old := b0.reg a
      let w := writeFields r old v unlocked (bad b0 src a old v)
      eff w old ((b0.setReg a w.value).captureFields a src w)

/-- One DWORD written to a register by a source, whichever page it is on (R17, R396, R400). -/
def Block.writeWord (b : Block) (bad : BadRule) (src : Source) (a : Nat) (v : Word)
    (eff : WriteOut → Word → Block → Block) : Block :=
  let p := a / 0x10000
  match b.reach src p (a % 0x10000) with
  | .silent => b
  | .held => b
  | .answers => if (pageRow p).isNone then b.unmapped else b.pageWrite bad src a v eff

/-- The effect of a register that only stores. -/
def noEff : WriteOut → Word → Block → Block := fun _ _ b => b

/-- A discarded command or write because an operation is busy or a commit is pending: code 0x03 (R405). -/
def Block.captureBusy (b : Block) (a : Nat) (src : Source) (lsb : Nat) : Block := b.captureAt a src lsb 3

end Sys2Proof.Machine
end

