-- ==== Sys2Proof/Config.lean ====
section
/-! DEFINITION. What a part fixes and what the spec leaves open: constants with no body, so that no proof can see them. -/

namespace Sys2Proof

/-- The ordering grade: true for the extended grade OVM-1280-SE. It is marked on the lid and readable from no register
(R4).
DESIGN CHOICE, safe: log entry 19. -/
opaque Config.gradeExtended : Bool

/-- A fresh value that the spec leaves open, by the model's draw counter. -/
opaque Config.freeValue : Nat → Word

/-- What the TD's follower of network time differs by after a correction, in units of 10⁻¹² ns, by draw: the spec bounds it at 2 ns
(R34) and says no more.
DESIGN CHOICE, safe: log entry 177. -/
opaque Config.followerError : Nat → Int

/-- A fresh byte that the spec leaves open, by draw and position. -/
opaque Config.freeByte : Nat → Nat → Byte

/-- The seven check bits over a rind, whose matrix the spec does not give (R314).
DESIGN CHOICE, safe: log entry 18. -/
opaque Config.rindEcc : Word → BitVec 7

/-- The nine check bits over bits [191:0] of a cell header, whose matrix the spec does not give (R314). -/
opaque Config.hdrEcc : List Byte → BitVec 9

/-- Whether the drop generator's Galois LFSR shifts right rather than left (R202): the spec gives its polynomial alone. -/
opaque Config.lfsrRight : Bool

/-- Where the engine begins to look for free words of a level of an LPM table: which free words it chooses is open (R125). By draw.
DESIGN CHOICE, safe: log entry 20. -/
opaque Config.lpmPick : Nat → Nat

/-- Whether a field declaration of a PHV_LAYOUT section lies outside its container (R73): the format of the declarations is not
given.
DESIGN CHOICE, safe: log entry 28. -/
opaque Config.layoutBad : List Byte → Bool

/-- The keys and accesses that a pinna asks for, by its body, its action words and the containers at its arrival (R59, R512): the
body's encoding is not given.
DESIGN CHOICE, safe: log entry 21. -/
opaque Config.pinnaAsk : List Byte → List Byte → List (Nat × Nat) → Machine.PinnaAsk

/-- What a pinna decides, by the same and the results of its accesses (R50, R59, R512). -/
opaque Config.pinnaOut : List Byte → List Byte → List (Nat × Nat) → List (BitVec 256) → Machine.PinnaOut

/-- The first cell as the deparser of an egress frond rewrites it, by the image, the frond, the containers and the cell
(R85, R210): how it does so is not given.
DESIGN CHOICE, safe: log entry 22. -/
opaque Config.deparse : List Byte → Nat → List (Nat × Nat) → List Byte → List Byte

/-- A byte of a record on the NV die whose layout is not given (R448, R453, R454, R463): the kind of record, the fields it holds
(none where it is absent), and the offset.
DESIGN CHOICE, safe: log entry 23. -/
opaque Config.nvRecord : Nat → List Nat → Nat → Byte

/-- A byte of a link-table word (R196), whose layout is not given: the block, its next block and marks, and the byte.
DESIGN CHOICE, safe: log entry 24. -/
opaque Config.linkByte : Nat → List Nat → Nat → Byte

/-- The skew in ns that ITU-T G.709 allows between the logical lanes of an OTL4.4 (R299).
DESIGN CHOICE, safe: log entry 201. -/
opaque Config.otlSkew : Nat

/-- What the PCIe link trained to, by the instant from which it could train (R394): the speed and width are settled with the
host's root complex.
DESIGN CHOICE, safe: log entry 213. -/
opaque Config.pcieLink : Nat → Nat

end Sys2Proof
end

