-- ==== Sys2Proof/Machine/Buckets.lean ====
section
/-! DEFINITION. The scheduler's node records, shaper profiles and buckets (R216, R219, R226 to R230), on network time. -/

namespace Sys2Proof.Machine

/-- Replace the scheduler. -/
def Block.withSched (b : Block) (s : SchedSt) : Block := { b with td := { b.td with sched := s } }

/-- The key of a node: its KIND code, 0 for L1 to 4 for L5, and its index (R243). -/
def nodeKey (l i : Nat) : Nat := l * 2 ^ 20 + i

/-- A node record at reset: WEIGHT 1, and CREDIT_MIN of 72 words at a LINE node (R243). -/
def nodeReset (l i : Nat) : List Nat := [0x10, 0, 0, if l = 4 && i < 256 then 0x48 else 0]

/-- A node's record. -/
def Block.nodeRec (b : Block) (l i : Nat) : List Nat := NMap.get (nodeReset l i) b.td.sched.nodes (nodeKey l i)

/-- Replace a node's record. -/
def Block.setNodeRec (b : Block) (l i : Nat) (ws : List Nat) : Block :=
  b.withSched { b.td.sched with nodes := NMap.set (nodeReset l i) b.td.sched.nodes (nodeKey l i) ws }

/-- A word of a node's record. -/
def Block.nodeWord (b : Block) (l i w : Nat) : Nat := (b.nodeRec l i).getD w 0

/-- The fields of a node (R219, R243). -/
def Block.nodeEn (b : Block) (l i : Nat) : Bool := bitAt (b.nodeWord l i 0) 0
def Block.nodePrio (b : Block) (l i : Nat) : Nat := b.nodeWord l i 0 / 2 % 2 ^ 3
def Block.nodeWeight (b : Block) (l i : Nat) : Nat := b.nodeWord l i 0 / 2 ^ 4 % 2 ^ 12
def Block.nodeParent (b : Block) (l i : Nat) : Nat := b.nodeWord l i 1 % 2 ^ 17
def Block.nodePfc (b : Block) (i : Nat) : Nat := b.nodeWord 0 i 1 / 2 ^ 20 % 2 ^ 4
def Block.nodeCommit (b : Block) (l i : Nat) : Nat := b.nodeWord l i 2 % 2 ^ 14
def Block.nodePeak (b : Block) (l i : Nat) : Nat := b.nodeWord l i 2 / 2 ^ 16 % 2 ^ 14
def Block.creditMin (b : Block) (p : Nat) : Nat := b.nodeWord 4 p 3 % 2 ^ 16

/-- The node of each level on the path of a queue, from L1 up (R216). -/
def Block.pathNode (b : Block) (q : Nat) : Nat → Nat
  | 0 => q
  | l + 1 => b.nodeParent l (Block.pathNode b q l)

/-- The L5 index at which a queue's path ends. -/
def Block.pathEnd (b : Block) (q : Nat) : Nat := b.pathNode q 4

/-- The active profile set, 0 or 1 (R230). -/
def Block.profSet (b : Block) : Nat := b.fld SCH.SHP_CTL SCH.SHP_CTL_ACTIVE_SET

/-- Words W0 and W1 of a shaper profile of a set: RATE, and BURST with LEN_ADJ (R226). -/
def Block.shpWords (b : Block) (set i : Nat) : List Nat := NMap.get [0, 0] b.td.sched.profiles (set * 2 ^ 14 + i)

/-- The fields of a profile of the active set. -/
def Block.shpRate (b : Block) (i : Nat) : Nat := (b.shpWords b.profSet i).getD 0 0
def Block.shpBurst (b : Block) (i : Nat) : Nat := (b.shpWords b.profSet i).getD 1 0 % 2 ^ 24
def Block.shpAdj (b : Block) (i : Nat) : Int := toSigned 8 ((b.shpWords b.profSet i).getD 1 0 / 2 ^ 24)

/-- Microbits of one byte. -/
def byteMicro : Nat := 8000000

/-- A bucket brought up to date over E ns (R227). -/
def bucketUp (rate burst : Nat) (v e : Int) : Int :=
  if rate = 0xFFFFFFFF then (burst * byteMicro : Nat)
  else if 0 < e then min (v + rate * e) (burst * byteMicro : Nat)
  else v

/-- A profile's bucket brought up to date: profile 0 has none (R226). -/
def Block.profUp (b : Block) (prof : Nat) (v e : Int) : Int :=
  if prof = 0 then v else bucketUp (b.shpRate prof) (b.shpBurst prof) v e

/-- A node's moving state. -/
def Block.nodeSt (b : Block) (l i : Nat) : NodeSt := NMap.get {} b.td.sched.nodeSt (nodeKey l i)

/-- Replace a node's moving state. -/
def Block.setNodeSt (b : Block) (l i : Nat) (x : NodeSt) : Block :=
  b.withSched { b.td.sched with nodeSt := NMap.set {} b.td.sched.nodeSt (nodeKey l i) x }

/-- A node's state with both buckets brought up to date (R227).
DEDUCED, unsafe: log entry 65. -/
def Block.nodeNow (b : Block) (l i : Nat) : NodeSt :=
  let x := b.nodeSt l i
  let e : Int := (b.tdTotal : Int) - x.stamp
  { x with commit := b.profUp (b.nodeCommit l i) x.commit e, peak := b.profUp (b.nodePeak l i) x.peak e
           stamp := b.tdTotal }

/-- Bring a node's buckets up to date. -/
def Block.nodeUp (b : Block) (l i : Nat) : Block := b.setNodeSt l i (b.nodeNow l i)

/-- The lowest value of a bucket (R228). -/
def bucketFloor : Int := -((16384 + 127) * byteMicro : Nat)

/-- The charge of a packet in microbits under a profile, never negative (R228). -/
def Block.chargeOf (b : Block) (prof len : Nat) : Nat := ((len + b.shpAdj prof) * byteMicro : Int).toNat

/-- A bucket after a charge (R228). -/
def Block.charged (b : Block) (prof : Nat) (v : Int) (len : Nat) : Int :=
  if prof = 0 then v else max bucketFloor (v - b.chargeOf prof len)

/-- A profile's bucket filled to BURST (R228).
DEDUCED, unsafe: log entry 66. -/
def Block.bucketFull (b : Block) (prof : Nat) : Int := if prof = 0 then 0 else (b.shpBurst prof * byteMicro : Nat)

/-- A grant generator beside its record. -/
def Block.grant (b : Block) (p : Nat) : GrantSt := NMap.get {} b.td.sched.grants p

/-- Replace a grant generator. -/
def Block.setGrant (b : Block) (p : Nat) (x : GrantSt) : Block :=
  b.withSched { b.td.sched with grants := NMap.set {} b.td.sched.grants p x }

/-- A grant generator's record: W0 to W2 (R243). -/
def Block.grantWord (b : Block) (p w : Nat) : Nat := (NMap.get [0, 0, 0] b.td.sched.grantRec p).getD w 0

/-- GRANT_PROF, GRANT_STOP and GRANT_START of a LINE node (R240, R241). -/
def Block.grantProf (b : Block) (p : Nat) : Nat := b.grantWord p 0 % 2 ^ 14
def Block.grantStop (b : Block) (p : Nat) : Nat := b.grantWord p 1 % 2 ^ 28
def Block.grantStart (b : Block) (p : Nat) : Nat := b.grantWord p 2 % 2 ^ 28

/-- A grant generator with its bucket brought up to date (R240).
DESIGN CHOICE, unsafe: log entry 73. -/
def Block.grantNow (b : Block) (p : Nat) : GrantSt :=
  let x := b.grant p
  { x with bucket := b.profUp (b.grantProf p) x.bucket ((b.tdTotal : Int) - x.stamp), stamp := b.tdTotal }

/-- Bring every bucket up to date. Only a node or generator whose record is not at reset has a profile. -/
def Block.bucketsUp (b : Block) : Block :=
  let b1 := b.td.sched.nodes.foldl (fun y e => y.nodeUp (e.1 / 2 ^ 20) (e.1 % 2 ^ 20)) b
  b1.td.sched.grantRec.foldl (fun y e => y.setGrant e.1 (y.grantNow e.1)) b1

/-- Fill every bucket to BURST (R228, R242). -/
def Block.bucketsFill (b : Block) : Block :=
  let b1 := b.td.sched.nodes.foldl (fun y e =>
    let l := e.1 / 2 ^ 20
    let i := e.1 % 2 ^ 20
    y.setNodeSt l i { y.nodeSt l i with commit := y.bucketFull (y.nodeCommit l i), peak := y.bucketFull (y.nodePeak l i)
                                        stamp := y.tdTotal }) b
  b1.td.sched.grantRec.foldl (fun y e =>
    y.setGrant e.1 { y.grant e.1 with bucket := y.bucketFull (y.grantProf e.1), stamp := y.tdTotal }) b1

/-- Cut every bucket to the BURST of its profile (R230). -/
def Block.bucketsCut (b : Block) : Block :=
  let cut (y : Block) (prof : Nat) (v : Int) : Int := if prof = 0 then v else min v (y.bucketFull prof)
  let b1 := b.td.sched.nodes.foldl (fun y e =>
    let l := e.1 / 2 ^ 20
    let i := e.1 % 2 ^ 20
    let x := y.nodeSt l i
    y.setNodeSt l i { x with commit := cut y (y.nodeCommit l i) x.commit, peak := cut y (y.nodePeak l i) x.peak }) b
  b1.td.sched.grantRec.foldl (fun y e =>
    y.setGrant e.1 { y.grant e.1 with bucket := cut y (y.grantProf e.1) (y.grant e.1).bucket }) b1

/-- The profile sets exchange roles (R230): every bucket is brought up to date at its old RATE and then cut to the new
BURST. `source` is 0 for the register and 1 for the anchor queue; event 0x01 carries it and the set now active. -/
def Block.profileExchange (b : Block) (source : Nat) : Block :=
  let b1 := b.bucketsUp
  let b2 := b1.setFld SCH.SHP_CTL SCH.SHP_CTL_ACTIVE_SET (1 - b1.profSet)
  let b3 := (b2.setFld SCH.SHP_CTL SCH.SHP_CTL_SOURCE source).bucketsCut
  let b4 := if source = 0 then b3.setFld SCH.SHP_CTL SCH.SHP_CTL_COMMIT 0 else b3
  (b4.intRaw 0x82 1).event 0x82 5 1 [BitVec.ofNat 8 source, BitVec.ofNat 8 b4.profSet]

end Sys2Proof.Machine
end

