-- ==== Sys2Proof/Machine/Lanes.lean ====
section
/-! DEFINITION. A fabric lane as it sends: its registers and rate (R244), the cells on the wire (R248 to R251), link credits
(R258) and the order of its transmit FIFO (R266). -/

namespace Sys2Proof.Machine

/-- Replace the fabric side. -/
def Block.withFab (b : Block) (x : FabricSt) : Block := { b with td := { b.td with fab := x } }

/-- One fabric lane, numbered 8n + l (R257). -/
def Block.lane (b : Block) (l : Nat) : FabLane := NMap.get {} b.td.fab.lanes l

/-- Replace a fabric lane. -/
def Block.setLane (b : Block) (l : Nat) (x : FabLane) : Block :=
  b.withFab { b.td.fab with lanes := NMap.set {} b.td.fab.lanes l x }

/-- The lane registers. -/
def laneSts (l : Nat) : Nat := FAB.LANE_STS (l / 8) (l % 8)
def laneCfg (l : Nat) : Nat := FAB.LANE_CFG (l / 8) (l % 8)

/-- A lane's STATE code (R253), running rate code (R244) and transmit credit (R258). -/
def Block.laneState (b : Block) (l : Nat) : Nat := b.fld (laneSts l) FAB.LANE_STS_STATE
def Block.laneRate (b : Block) (l : Nat) : Nat := b.fld (laneSts l) FAB.LANE_STS_RATE
def Block.laneCredits (b : Block) (l : Nat) : Nat := b.fld (laneSts l) FAB.LANE_STS_CREDITS

/-- Set a lane's transmit credit, held within its field. -/
def Block.setCredits (b : Block) (l n : Nat) : Block := b.setFld (laneSts l) FAB.LANE_STS_CREDITS (min n 0xFFFF)

/-- This device's number. -/
def Block.devId (b : Block) : Nat := b.fld KCL.CTL KCL.CTL_DEV_ID

/-- The plane that a lane's partner named (R259). -/
def Block.lanePlane (b : Block) (l : Nat) : Nat := b.fld (laneSts l) FAB.LANE_STS_PLANE

/-- A lane is UP. -/
def Block.laneUp (b : Block) (l : Nat) : Bool := b.laneState l = 5

/-- A lane's macro or plane is drained (R262). -/
def Block.laneDrained (b : Block) (l : Nat) : Bool :=
  b.flag (FAB.CTL (l / 8)) FAB.CTL_DRAIN || bitAt (b.fld KCL.PLANE_DRAIN KCL.PLANE_DRAIN_DRAIN) (b.lanePlane l)

/-- The fabric lanes. -/
def fabLanes : List Nat := upTo 96

/-- The UP lanes of a plane (R259). -/
def Block.planeLinks (b : Block) (p : Nat) : Nat :=
  (fabLanes.filter (fun l => b.laneUp l && b.lanePlane l = p)).length

/-- The union of the reach maps of the UP lanes (R260). -/
def Block.reachUnion (b : Block) : Nat :=
  fabLanes.foldl (fun u l => if b.laneUp l then u ||| (b.lane l).reach else u) 0

/-- A device is reachable through a lane that is UP and not drained (R261). -/
def Block.reachable (b : Block) (dev : Nat) : Bool :=
  fabLanes.any (fun l => b.laneUp l && !b.laneDrained l && bitAt (b.lane l).reach dev)

/-- The units that a DATA cell takes (R250). -/
def FCell.units (c : FCell) : Nat := 1 + b2n c.sop + ceilDiv c.pay.length 16

/-- The units of a cell on a lane. -/
def LaneCell.units : LaneCell → Nat
  | .data c => c.units
  | .control _ ms => 1 + ms.length

/-- The destination of a cell. -/
def LaneCell.dest : LaneCell → Nat
  | .data c => c.dest
  | .control d _ => d

/-- A cell is a CONTROL cell. -/
def LaneCell.isControl : LaneCell → Bool
  | .data _ => false
  | .control .. => true

/-- A cell on the wire: its header with LINK_CRC over all of it, then what follows, padded to whole units (R248 to R251). -/
def wireCell (hdr : Nat) (body : List Byte) : List Byte :=
  let pad := bytesAt body 0 (16 * ceilDiv body.length 16)
  let crc := fcs32 (beBytes 16 hdr ++ pad)
  beBytes 16 (hdr + crc.toNat) ++ pad

/-- The header of a cell but LINK_CRC: TYPE, DEST_DEV, SRC_DEV, LAST_BYTES and CREDIT_RET (R248). -/
def cellHdr (type dest src last ret : Nat) : Nat :=
  type * 2 ^ 124 + dest * 2 ^ 111 + src * 2 ^ 100 + last % 256 * 2 ^ 73 + ret * 2 ^ 65

/-- A DATA cell on the wire (R248 to R250). -/
def FCell.wire (c : FCell) (ret : Nat) : List Byte :=
  let h := cellHdr 1 c.dest c.src c.pay.length ret + b2n c.sop * 2 ^ 123 + b2n c.eop * 2 ^ 122 + c.engine * 2 ^ 97
    + c.seq * 2 ^ 81 + c.rind.toNat * 2 ^ 32
  let ext := if c.sop then beBytes 16 (c.metaW * 2 ^ 64 + c.pktLen * 2 ^ 49 + c.port * 2 ^ 41 + c.cls * 2 ^ 38) else []
  let pad := bytesAt c.pay 0 (16 * ceilDiv c.pay.length 16)
  wireCell h (ext ++ pad)

/-- A cell of a lane on the wire, from this device. -/
def Block.laneWire (b : Block) (c : LaneCell) (ret : Nat) : List Byte :=
  match c with
  | .data f => f.wire ret
  | .control d ms => wireCell (cellHdr 2 d b.devId (16 * ms.length) ret) ((ms.map (beBytes 16)).flatten)

/-- The next cell of a lane's transmit FIFO and the rest (R266): a CONTROL cell before DATA, but not two in a row while
DATA waits.
DEDUCED, unsafe: log entry 77. -/
def FabLane.next (x : FabLane) : Option (LaneCell × List LaneCell) :=
  let cs := x.tx.filter (fun c => c.isControl)
  let ds := x.tx.filter (fun c => !c.isControl)
  match cs, ds with
  | c :: _, [] => some (c, x.tx.erase c)
  | [], d :: _ => some (d, x.tx.erase d)
  | c :: _, d :: _ => if x.lastControl then some (d, x.tx.erase d) else some (c, x.tx.erase c)
  | [], [] => none

/-- DATA and CONTROL cells may be sent (R274, `KCL.CTL.ENABLE`). -/
def Block.fabricSends (b : Block) : Bool :=
  dataRuns b.mode.mode && !b.quietHandover && b.flag KCL.CTL KCL.CTL_ENABLE

/-- The IDLE cells that a lane has sent in a row, with the device number they carried, are put out. -/
def Block.flushIdles (b : Block) (dev l : Nat) : Block :=
  let x := b.lane l
  if x.idles = 0 then b else (b.setLane l { x with idles := 0 }).emitOut (.idles l x.idles dev)

/-- A cell leaves a lane, after the IDLE cells that went before it. -/
def Block.laneEmit (b : Block) (l : Nat) (bytes : List Byte) : Block := (b.flushIdles b.devId l).emitOut (.cell l bytes)

/-- A lane sends codewords: in HELLO, PROBATION and UP, and in TRAIN once training has ended well (R245, R253). -/
def Block.laneTalks (b : Block) (l : Nat) : Bool :=
  (3 ≤ b.laneState l && b.laneState l ≤ 5) || (b.laneState l = 2 && (b.lane l).trained)

/-- A lane begins its codewords with a scrambler state and a CW_COUNT that the spec leaves open: free values.
DESIGN CHOICE, safe: log entry 198. -/
def Block.laneStream (b : Block) (l : Nat) : Block :=
  let scram := (Config.freeValue b.draws).toNat + (Config.freeValue (b.draws + 1)).toNat % 2 ^ 26 * 2 ^ 32
  let count := (Config.freeValue (b.draws + 2)).toNat % 1024
  (({ b with draws := b.draws + 3 }).setLane l { b.lane l with bits := 0, idles := 0 }).emitOut (.codeStart l scram count)

/-- The cell that a lane in UP may send now: it holds one and has credit, and no mode stops it (R258, R274). -/
def Block.laneNext (b : Block) (l : Nat) : Option (LaneCell × List LaneCell) :=
  if b.laneState l = 5 && b.fabricSends && 0 < b.laneCredits l then (b.lane l).next else none

/-- Cells leave a lane as its rate allows (R244, R258). -/
def Block.laneSend (b : Block) (l : Nat) : Nat → Block
  | 0 => b
  | fuel + 1 =>
    let x := b.lane l
    match b.laneNext l with
    | none => b
    | some (c, rest) =>
      let need := 128 * c.units
      if x.bits < need then b
      else
        let ret := min x.owed 255
        let b1 := b.setLane l { x with tx := rest, bits := x.bits - need, lastControl := c.isControl, owed := x.owed - ret }
        Block.laneSend ((b1.setCredits l (b.laneCredits l - 1)).laneEmit l (b.laneWire c ret)) l fuel

/-- IDLE cells return the credits that a lane owes, in at most the cells that its rate allows (R258). -/
def Block.laneReturns (b : Block) (l : Nat) : Nat → Block
  | 0 => b
  | fuel + 1 =>
    let x := b.lane l
    if x.owed = 0 || x.bits < 128 then b
    else
      let ret := min x.owed 255
      Block.laneReturns ((b.setLane l { x with owed := x.owed - ret, bits := x.bits - 128 }).laneEmit l
        (wireCell (cellHdr 0 0 b.devId 0 ret) [])) l fuel

/-- A lane that has nothing else to send fills its rate with IDLE cells (R258). -/
def Block.laneIdle (b : Block) (l : Nat) : Block :=
  if (b.laneNext l).isSome then b
  else
    let b1 := if b.mode.mode = .faultHold then b else b.laneReturns l ((b.lane l).owed / 255 + 1)
    let x := b1.lane l
    b1.setLane l { x with idles := x.idles + x.bits.toNat / 128, bits := x.bits - x.bits.toNat / 128 * 128 }

/-- `n` domain-45 cycles pass on one lane. -/
def Block.lanePass (b : Block) (n l : Nat) : Block :=
  if b.laneTalks l then
    let x := b.lane l
    ((b.setLane l { x with bits := x.bits + n * (50 * 2 ^ b.laneRate l) }).laneSend l (x.tx.length + 1)).laneIdle l
  else b

/-- The transmit staging of a fabric engine (R263). -/
def Block.staging (b : Block) (j : Nat) : List FCell := NMap.get [] b.td.fab.staging j

/-- Replace a staging FIFO: another head cell has a reaching lane until a pass of time finds that it has none. -/
def Block.setStaging (b : Block) (j : Nat) (cs : List FCell) : Block :=
  b.withFab { b.td.fab with
    staging := NMap.set [] b.td.fab.staging j cs
    stranded := if cs.head? = (b.staging j).head? then b.td.fab.stranded else NMap.del b.td.fab.stranded j }

/-- Head cells with no reaching lane are noted with the ns from which they have none, `n` ns ago (R264). -/
def Block.strandPass (b : Block) (n : Nat) : Block :=
  (upTo 8).foldl (fun y j =>
    let m := y.td.fab.stranded
    let m1 := match y.staging j with
      | [] => NMap.del m j
      | c :: _ =>
        if y.reachable c.dest then NMap.del m j
        else if (NMap.find? m j).isSome then m
        else NMap.put m j (y.time.elapsed - n)
    y.withFab { y.td.fab with stranded := m1 }) b

/-- `n` domain-45 cycles pass on the fabric lanes. In FAULT-HOLD every lane sends IDLE cells without returns (R274). A lane that
has begun a bring-up has an entry, since its mask holds a rate. -/
def Block.fabPass (b : Block) (n : Nat) : Block :=
  if n = 0 || !coreOn b.mode.mode then b else b.td.fab.lanes.foldl (fun y e => y.lanePass n e.1) (b.strandPass n)

end Sys2Proof.Machine
end

