-- ==== Sys2Proof/Machine/Pmc.lean ====
section
/-! DEFINITION. The performance counters (R437 to R440): what an event of their source adds. -/

namespace Sys2Proof.Machine

/-- Instances of an event, none where the event has one source (R438). -/
def pmcInstances (ev : Nat) : Option Nat :=
  match ev with
  | 0x01 | 0x02 | 0x0B => some 16
  | 0x03 | 0x04 => some 256
  | 0x05 => some 1048576
  | 0x06 => some 8
  | 0x09 | 0x0A => some 17
  | 0x0C | 0x0D => some 32
  | 0x0E => some 46
  | _ => none

/-- The events whose source offers a level in every cycle (R438). -/
def pmcLevel (ev : Nat) : Bool := ev = 0x05 || ev = 0x06 || ev = 0x0E

/-- Performance counters count: not while FREEZE is 1, and not in FAULT-HOLD (R440, R444). -/
def Block.pmcRuns (b : Block) : Bool := coreOn b.mode.mode && decide (b.mode.mode ≠ .faultHold) && !b.flag PMC.CTL PMC.CTL_FREEZE

/-- Counter `n` counts an event, at an instance where the event has several (R437). -/
def Block.pmcTakes (b : Block) (n ev inst : Nat) : Bool :=
  b.flag (PMC.CFG n) PMC.CFG_ENABLE && b.fld (PMC.CFG n) PMC.CFG_EVENT = ev
    && (b.flag (PMC.CFG n) PMC.CFG_ALL || (pmcInstances ev).isNone || b.fld (PMC.INST n) PMC.INST_INSTANCE = inst)

/-- The count of counter `n`. -/
def Block.pmcCount (b : Block) (n : Nat) : Nat :=
  (b.reg (PMC.CNT_LO n)).toNat + b.fld (PMC.CNT_HI n) PMC.CNT_HI_CNT * 2 ^ 32

/-- A performance counter takes the sum `v`; past its largest value it wraps and sets OVF (R439, R443). -/
def Block.pmcPut (b : Block) (n v : Nat) : Block :=
  let b1 := (b.setReg (PMC.CNT_LO n) (BitVec.ofNat 32 v)).setFld (PMC.CNT_HI n) PMC.CNT_HI_CNT (v / 2 ^ 32)
  if v < 2 ^ 48 then b1
  else ((b1.setFld (PMC.CNT_HI n) PMC.CNT_HI_OVF 1).intRaw 0x08 0).eventIf (b.flag (PMC.CFG n) PMC.CFG_OVF_EVT) 0x08 0x0F 2
    [BitVec.ofNat 8 n]

/-- Add to a performance counter (R439). -/
def Block.pmcAdd (b : Block) (n k : Nat) : Block :=
  if k = 0 then b else b.pmcPut n (b.pmcCount n + k)

/-- What `c` cycles with the value `v` add, by MODE (R437). -/
def pmcAdds (mode thresh prev v c : Nat) : Nat :=
  match mode with
  | 0 => v * c
  | 1 => if thresh ≤ v then c else 0
  | 2 => if v < thresh then c else 0
  | _ => if 0 < c && thresh ≤ v && prev < thresh then 1 else 0

/-- Counter `n` meets `c` cycles in which its source offers `v`. -/
def Block.pmcCycles (b : Block) (n v c : Nat) : Block :=
  if c = 0 then b
  else
    let k := pmcAdds (b.fld (PMC.CFG n) PMC.CFG_MODE) (b.reg (PMC.THRESH n)).toNat (NMap.get 0 b.cnt.prev n) v c
    ({ b with cnt := { b.cnt with prev := NMap.set 0 b.cnt.prev n v } }).pmcAdd n k

/-- One cycle in which an event's source offers `v` at an instance (R437, R438). -/
def Block.pmc (b : Block) (ev inst v : Nat) : Block :=
  if b.pmcRuns then
    (upTo 64).foldl (fun x n => if x.pmcTakes n ev inst then x.pmcCycles n v 1 else x) b
  else b

end Sys2Proof.Machine
end

