-- ==== Sys2Proof/Machine/D5Geom.lean ====
section
/-! DEFINITION. Where each byte of the DDR5 system lives (R341 to R344), the channel map (R338), and what a request does to the
write queues of the channels (R345 to R347). -/

namespace Sys2Proof.Machine

/-- Replace the state of the DDR5 system. -/
def Block.withD5 (b : Block) (d : D5St) : Block := { b with d5 := d }

def Block.d5Chan (b : Block) (k : Nat) : D5Chan := NMap.get {} b.d5.chans k
def Block.setD5Chan (b : Block) (k : Nat) (x : D5Chan) : Block := b.withD5 { b.d5 with chans := NMap.set {} b.d5.chans k x }

/-- The fields of the configuration in force (R337). -/
def Block.d5Cfg (b : Block) (f : Fld) : Nat := fldGet f b.d5.cfg

/-- Blocks of the peat (R195, R341). -/
def peatBlocksOf (gib : Nat) : Nat := gib * 2 ^ 30 / 2304
def Block.peatBlocks (b : Block) : Nat := peatBlocksOf (b.d5Cfg D5M.CFG_PEAT_GIB)

/-- Bytes used of each channel (R336). -/
def Block.d5Cap (b : Block) : Nat := b.d5Cfg D5M.CFG_CAPACITY * 2 ^ 33

/-- TB: the channel-local base of the table area (R341). -/
def tableBase (blocks : Nat) : Nat := ceilDiv (ceilDiv blocks 16 * 2304) (2 ^ 20) * 2 ^ 20
def Block.d5TB (b : Block) : Nat := tableBase b.peatBlocks

/-- Bytes of the table region (R342). -/
def Block.tableSize (b : Block) : Nat := 8 * (b.d5Cap - b.d5TB)

/-- The base of the link table (R342). -/
def Block.linkBase (b : Block) : Nat := (b.tableSize - 8 * b.peatBlocks) / 4096 * 4096

/-- The pair of a DDR5 address (R342). -/
def d5Pair (a : Nat) : Nat := (a / 128 % 8) ^^^ (a / 1024 % 8)

/-- The channel-local address of a DDR5 address, in both members of its pair (R342). -/
def d5Local (tb a : Nat) : Nat := tb + a / 1024 * 128 + a % 128

/-- Where a burst unit lies in the DRAM (R343). -/
structure DramPlace where
  sub : Nat
  group : Nat
  bank : Nat
  col : Nat
  rank : Nat
  row : Nat
deriving DecidableEq, Repr

/-- The DRAM place of a burst unit, with one rank or two (R343). -/
def dramPlace (twoRanks : Bool) (u : Nat) : DramPlace :=
  let r := if twoRanks then u / 2 ^ 13 else u / 2 ^ 12
  { sub := u % 2
    group := (u / 2 % 8) ^^^ (r % 8)
    bank := (u / 16 % 4) ^^^ (r / 8 % 4)
    col := 16 * (u / 64 % 64)
    rank := if twoRanks then (u / 4096 % 2) ^^^ (r / 32 % 2) else 0
    row := r }

/-- The capacity asked for exceeds what is fitted, or leaves a channel less than 1 GiB of table area (R336, R337). -/
def Block.cfgFails (b : Block) : Bool :=
  (2 + b.d5Cfg D5M.CFG_DENSITY) * (1 + b.d5Cfg D5M.CFG_RANKS) < b.d5Cfg D5M.CFG_CAPACITY || b.d5Cap < b.d5TB + 2 ^ 30

/-- State codes of `D5Ck.STS`. -/
def d5Untrained : Nat := 0
def d5Training : Nat := 1
def d5Active : Nat := 2
def d5Spare : Nat := 3
def d5Hold : Nat := 4
def d5Source : Nat := 5
def d5Target : Nat := 6
def d5Remirror : Nat := 7
def d5Out : Nat := 8
def d5Failed : Nat := 9
def d5Retired : Nat := 10

def Block.d5State (b : Block) (k : Nat) : Nat := b.fld (D5C.STS k) D5C.STS_STATE

/-- The state of a physical channel changes (`INT_RAW` bit 0 of its page). -/
def Block.d5To (b : Block) (k st : Nat) : Block :=
  if b.d5State k = st then b else ((b.groupTo (28 + k) 0).setFld (D5C.STS k) D5C.STS_STATE st).intRaw (0xA0 + k) 0

/-- The physical channel of a logical one (R338). -/
def Block.d5Phys (b : Block) (l : Nat) : Option Nat :=
  if b.flag (D5M.MAP l) D5M.MAP_VALID then some (b.fld (D5M.MAP l) D5M.MAP_PHYSICAL) else none

/-- Logical channels mapped (R344). -/
def Block.d5Mapped (b : Block) : Nat := ((upTo 16).filter (fun l => (b.d5Phys l).isSome)).length

/-- The state of a logical channel's member; 0 where it has none. -/
def Block.memberState (b : Block) (l : Nat) : Nat :=
  match b.d5Phys l with
  | some k => b.d5State k
  | none => 0

/-- A logical channel has free blocks to give: it is mapped, not in a hold, and its peat is not lost (R197, R356, R362,
R363). -/
def Block.chanGives (b : Block) (l : Nat) : Bool :=
  (b.d5Phys l).isSome && b.memberState l ≠ d5Hold && !b.td.store.deadChans.contains l

/-- A logical channel is in a hold: prefetch reads to it wait (R356). -/
def Block.chanHeld (b : Block) (l : Nat) : Bool := b.memberState l = d5Hold

/-- A member's table area is whole: table reads may go to it (R347, R356, R362). -/
def Block.memberReads (b : Block) (l : Nat) : Bool :=
  (b.d5Phys l).isSome && b.memberState l ≠ d5Hold && b.memberState l ≠ d5Remirror

/-- A pair runs on one member: the other is unmapped or re-mirrors (R347, R362, R363). -/
def Block.pairSingle (b : Block) (p : Nat) : Bool :=
  let alone (l : Nat) : Bool := (b.d5Phys l).isNone || b.memberState l = d5Remirror
  alone (2 * p) || alone (2 * p + 1)

/-- Blocks that can be allocated (R363). -/
def Block.peatUsable (b : Block) : Nat :=
  ((upTo 16).filter (fun l => (b.d5Phys l).isSome)).foldl (fun s l => s + (b.peatBlocks + 15 - l) / 16) 0

/-- The effective budgets in Gbit/s (R344). -/
def Block.effWrite (b : Block) : Nat := b.fld PEAT.BUDGET PEAT.BUDGET_WRITE * b.d5Mapped / 16
def Block.effRead (b : Block) : Nat := b.fld PEAT.BUDGET PEAT.BUDGET_READ * b.d5Mapped / 16

/-- A burst unit enters a write queue of 128: a unit already queued is replaced in its place, and the oldest of a full queue goes
to the DRAM first (R345, R346). -/
def wqPut (q : List Nat) (u : Nat) : List Nat :=
  if q.contains u then q else if 128 ≤ q.length then q.drop 1 ++ [u] else q ++ [u]

/-- The read queue and the write queue of the subchannel of a burst unit (R343, R345). -/
def D5Chan.readsAt (x : D5Chan) (u : Nat) : List Nat := if u % 2 = 0 then x.rqA else x.rqB
def D5Chan.writesAt (x : D5Chan) (u : Nat) : List Nat := if u % 2 = 0 then x.wqA else x.wqB

/-- The queues of the subchannel of a burst unit, replaced. -/
def D5Chan.queuesAt (x : D5Chan) (u : Nat) (rq wq : List Nat) : D5Chan :=
  if u % 2 = 0 then { x with rqA := rq, wqA := wq } else { x with rqB := rq, wqB := wq }

/-- A write of a burst unit is accepted by a physical channel (R346). Where the queue is full its oldest unit goes to the DRAM, after the
older reads of that unit (R345). The write replaces what the DRAM held.
DEDUCED, unsafe: log entry 121. -/
def Block.d5Enq (b : Block) (k u : Nat) : Block :=
  let x := b.d5Chan k
  let q := x.writesAt u
  let full := !q.contains u && decide (128 ≤ q.length)
  let rq := x.readsAt u
  let kept := if full then rq.filter (fun r => r ≠ q.headD 0) else rq
  let b1 := b.setD5Chan k { x.queuesAt u kept (wqPut q u) with flaws := NMap.del x.flaws u }
  ((b1.countIf (q.contains u) (D5C.MERGED_LO k) 3).pmc 0x0A k (b2n full)).pmc 0x09 k (rq.length - kept.length)

/-- Burst units that a copy at 6.4 Gbit/s has passed after some ns (R359, R362). -/
def copyUnits (age : Nat) : Nat := age / 80

/-- A write of a burst unit to a logical channel: to its member, not while that holds (a table page is then marked), not beyond
the pointer of a re-mirror, and below the pointer of an evacuation to its target too (R356, R359, R362). -/
def Block.d5Accept (b : Block) (l u : Nat) (table : Bool) : Block :=
  match b.d5Phys l with
  | none => b
  | some k =>
    let ahead (e : Nat × Nat) : Bool := e.1 = l && b.d5TB / 64 + copyUnits e.2 ≤ u
    let b1 :=
      if b.d5State k = d5Hold then
        let x := b.d5Chan k
        if table && !x.marked.contains (u / 64) then b.setD5Chan k { x with marked := (u / 64) :: x.marked } else b
      else if table && b.d5.remirror.any ahead then b
      else b.d5Enq k u
    match b.d5.evac with
    | some e => if e.source = k && (e.copied.isSome || u < copyUnits e.age) then b1.d5Enq e.target u else b1
    | none => b1

/-- A write of `n` bytes at a DDR5 address enters both members of each pair (R347). -/
def Block.d5Reach (b : Block) (a n : Nat) : Block :=
  (upTo ((a + n - 1) / 64 + 1 - a / 64)).foldl (fun x i =>
    let v := (a / 64 + i) * 64
    let u := d5Local x.d5TB v / 64
    (x.d5Accept (2 * d5Pair v) u true).d5Accept (2 * d5Pair v + 1) u true) b

/-- Bytes of the DDR5 table region (R342). -/
def Block.d5Read (b : Block) (a n : Nat) : List Byte := Memory.readN b.d5.mem a n

/-- Write bytes of the DDR5 table region (R342, R347). -/
def Block.d5Write (b : Block) (a : Nat) (bs : List Byte) : Block :=
  let b1 := b.withD5 { b.d5 with mem := Memory.writeN b.d5.mem a bs }
  if bs.isEmpty then b1 else b1.d5Reach a bs.length

/-- Reads that wait before a read of a unit in a logical channel's member (R345). -/
def Block.readsBefore (b : Block) (l u : Nat) : Nat :=
  match b.d5Phys l with
  | some k => ((b.d5Chan k).readsAt u).length
  | none => 0

/-- The member that a read of a DDR5 address goes to: the one with the shorter read queue, the even one if they are equal, the
partner where one does not read (R347). -/
def Block.d5Member (b : Block) (a : Nat) : Option Nat :=
  let e := 2 * d5Pair a
  let u := d5Local b.d5TB a / 64
  if b.memberReads e && (decide (b.readsBefore e u ≤ b.readsBefore (e + 1) u) || !b.memberReads (e + 1)) then some e
  else if b.memberReads (e + 1) then some (e + 1) else none

/-- A unit waits in a write queue of a physical channel (R346). -/
def Block.d5Queued (b : Block) (k u : Nat) : Bool := ((b.d5Chan k).writesAt u).contains u

/-- A read of a burst unit enters the read queue, whose oldest request goes to the DRAM where it is full (R345). -/
def Block.d5Ask (b : Block) (k u : Nat) : Block :=
  let x := b.d5Chan k
  let rq := x.readsAt u
  (b.setD5Chan k (x.queuesAt u (rq.drop (rq.length - 127) ++ [u]) (x.writesAt u))).pmc 0x09 k (rq.length - 127)

/-- What the DRAM gives of a burst unit (R348). -/
def Block.d5Copy (b : Block) (k u : Nat) : EccSeen :=
  match NMap.find? (b.d5Chan k).flaws u with
  | none => .clean
  | some false => .corrected
  | some true => .uncorrectable

/-- The DRAM holds a burst unit as a read is to find it. -/
def Block.d5Flaw (b : Block) (k u : Nat) (e : EccSeen) : Block :=
  let x := b.d5Chan k
  b.setD5Chan k { x with flaws := match e with
    | .clean => NMap.del x.flaws u
    | .corrected => NMap.put x.flaws u false
    | .uncorrectable => NMap.put x.flaws u true }

def Block.eccUncorr (b : Block) (k : Nat) : Block := (b.count (D5C.ECC_UNCORR_LO k) 3).intRaw (0xA0 + k) 2

/-- A read of a burst unit is accepted by a physical channel: answered from the write queue and counted in FORWARDED, or issued to
the DRAM, whose ECC finds what it finds (R345, R346, R348). -/
def Block.d5Issue (b : Block) (k u : Nat) : Block × EccSeen :=
  if b.d5Queued k u then (b.count (D5C.FORWARDED_LO k) 3, .clean)
  else
    let b1 := b.d5Ask k u
    match b.d5Copy k u with
    | .clean => (b1, .clean)
    | .corrected => (b1.count (D5C.ECC_CORR_LO k) 3, .corrected)
    | .uncorrectable => (b1.eccUncorr k, .uncorrectable)

/-- A read of the burst unit at a DDR5 address: it goes to a member, and where that copy is bad to the other, whose data is written
back over it; true for an error mark, where no copy is good (R347).
DEDUCED, unsafe: log entry 123. -/
def Block.d5UnitRead (b : Block) (a : Nat) : Block × Bool :=
  let u := d5Local b.d5TB a / 64
  match b.d5Member a with
  | none => (b, false)
  | some l =>
    match b.d5Phys l with
    | none => (b, false)
    | some k =>
      let r := b.d5Issue k u
      if r.2 ≠ .uncorrectable then (r.1, false)
      else
        let m := if l % 2 = 0 then l + 1 else l - 1
        match if b.memberReads m then b.d5Phys m else none with
        | none => (r.1, true)
        | some j =>
          let s := r.1.d5Issue j u
          if s.2 = .uncorrectable then (s.1, true) else ((s.1.eccUncorr j).d5Enq k u, false)

/-- Reading `n` bytes at a DDR5 address: what it does to the channels, and the burst units that answer with an error mark (R345 to
R347). -/
def Block.d5Seen (b : Block) (a n : Nat) : Block × List Nat :=
  (upTo ((a + n - 1) / 64 + 1 - a / 64)).foldl (fun (x : Block × List Nat) i =>
    let r := x.1.d5UnitRead ((a / 64 + i) * 64)
    (r.1, if r.2 then (a / 64 + i) :: x.2 else x.2)) (b, [])

/-- An engine reads bytes of the DDR5 table region (R342, R347). Where a burst unit answers with an error mark the spec gives no data,
so its bytes are free values.
DESIGN CHOICE, safe: log entry 205. -/
def Block.d5Take (b : Block) (a n : Nat) : Block × List Byte :=
  let r := b.d5Seen a n
  let bs := b.d5Read a n
  if r.2.isEmpty then (r.1, bs)
  else (r.1.drawn, bs.zipIdx.map (fun e => if r.2.contains ((a + e.2) / 64) then Config.freeByte b.draws e.2 else e.1))

/-- The channels see a read of the 32-byte word `k` of a space: space 2 is the table region, space 5 the peat (R327, R347). True for an
error mark. -/
def Block.spaceSeen (b : Block) (sp k : Nat) : Block × Bool :=
  if sp = 2 then
    let r := b.d5UnitRead (32 * k)
    r
  else if sp = 5 then
    match b.d5Phys (k / 72 % 16) with
    | some c =>
      let r := b.d5Issue c (36 * (k / 72 / 16) + k % 72 / 2)
      (r.1, decide (r.2 = .uncorrectable))
    | none => (b, false)
  else (b, false)

/-- A range of the DDR5 table region becomes zero (R342, R347). -/
def Block.d5Zero (b : Block) (a n : Nat) : Block :=
  let m : List (Nat × Byte) := b.d5.mem
  let b1 := b.withD5 { b.d5 with mem := m.filter (fun e => !(a ≤ e.1 && e.1 < a + n)) }
  if n = 0 then b1 else b1.d5Reach a n

/-- The word of a block in the link table (R196, R342). -/
def Block.linkAt (b : Block) (n : Nat) : Nat := b.linkBase + 8 * n

/-- The cells of a block of the peat are written: its 36 burst units (R341, R346). -/
def Block.peatWritten (b : Block) (n : Nat) : Block :=
  (upTo 36).foldl (fun x i => x.d5Accept (n % 16) (36 * (n / 16) + i) false) b

/-- The cells of a block of the peat are read. -/
def Block.peatRead (b : Block) (n : Nat) : Block :=
  match b.d5Phys (n % 16) with
  | some k => (upTo 36).foldl (fun x i => (x.d5Issue k (36 * (n / 16) + i)).1) b
  | none => b

/-- The queues of a subchannel after `c` controller cycles, one request in each: older reads go before the writes that may be
ready (R345).
DEDUCED, unsafe: log entry 206. -/
def serveQueues (c : Nat) (rq wq : List Nat) : List Nat × List Nat := (rq.drop c, wq.drop (c - rq.length))

/-- A channel works for `c` controller cycles. -/
def Block.d5Serve (b : Block) (k c : Nat) : Block :=
  let x := b.d5Chan k
  let p := serveQueues c x.rqA x.wqA
  let q := serveQueues c x.rqB x.wqB
  let b1 := b.setD5Chan k { x with rqA := p.1, wqA := p.2, rqB := q.1, wqB := q.2 }
  (b1.pmc 0x09 k (x.rqA.length - p.1.length + (x.rqB.length - q.1.length))).pmc 0x0A k
    (x.wqA.length - p.2.length + (x.wqB.length - q.2.length))

/-- `Dc_RESET_N` of a channel is driven to a level (R500). -/
def Block.d5Pin (b : Block) (k : Nat) (high : Bool) : Block :=
  let x := b.d5Chan k
  if x.resetHigh = high then b else (b.setD5Chan k { x with resetHigh := high }).emitOut (.dramReset k high)

/-- Every `Dc_RESET_N` low: a reset of the core discards the DDR5 system, whose channels are trained again (R367, R500). -/
def Block.d5PinsLow (b : Block) : Block := (upTo 17).foldl (fun x k => x.d5Pin k false) b

/-- Step 1 of a channel's training releases its reset, once the components' supplies have been good for 2 ms (R354, R500). `n`: ns
from now. -/
def Block.d5Release (b : Block) (k n : Nat) : Block :=
  if b.d5State k = d5Training && b.mode.railsGood && b.mode.railsSince + 2000000 ≤ b.time.elapsed + n then b.d5Pin k true else b

/-- The training of a channel begins with its reset (R354).
DEDUCED, unsafe: log entry 207. -/
def Block.d5TrainStart (b : Block) (k : Nat) : Block :=
  (((b.d5Pin k false).setReg (D5C.TRAIN_STS k) 0x11#32).setFld (D5C.STS k) D5C.STS_STATE d5Training).d5Release k 0

/-- `n` ns pass in the channels: each subchannel serves at most one request each controller cycle (R345), copies go on (R359,
R362), and resets are released (R500). -/
def Block.d5Pass (b0 : Block) (n : Nat) : Block :=
  let b := (upTo 17).foldl (fun x k => x.d5Release k n) b0
  if b.mode.mode = .faultHold then b
  else
    let f := 600 + 100 * b.d5Cfg D5M.CFG_RATE
    let c := f * (b.time.elapsed + n) / 1000 - f * b.time.elapsed / 1000
    let all : List (Nat × D5Chan) := b.d5.chans
    let busy := all.filter (fun e => !(e.2.rqA.isEmpty && e.2.rqB.isEmpty && e.2.wqA.isEmpty && e.2.wqB.isEmpty))
    let b1 := busy.foldl (fun x e => if x.d5State e.1 = d5Hold then x else x.d5Serve e.1 c) b
    b1.withD5 { b1.d5 with
      evac := b1.d5.evac.map (fun e => if b1.d5State e.source = d5Hold then e else { e with age := e.age + n })
      remirror := b1.d5.remirror.map (fun e => (e.1, e.2 + n)) }

end Sys2Proof.Machine
end

