-- ==== Sys2Proof/Machine/ParseGraph.lean ====
section
/-! DEFINITION. The parser: the PARSE_GRAPH section (R96 to R99), how far it follows (R102, R103), the range vector (R109) and
the payload matcher (R112 to R115). -/

namespace Sys2Proof.Machine

/-- One byte of a packet or an image, 0 past its end. -/
def u8At (bs : List Byte) (o : Nat) : Nat := leAt bs o 1

/-- A 16-bit field in network byte order (R95). -/
def be16At (bs : List Byte) (o : Nat) : Nat := u8At bs o * 256 + u8At bs (o + 1)

/-- The width in bytes of a container, by its ID (R97). -/
def contBytes (id : Nat) : Nat := if id < 32 then 8 else if id < 160 then 4 else if id < 256 then 2 else 1

/-- A state record of the PARSE_GRAPH section `pg` (R98). -/
def pgState (pg : List Byte) (i : Nat) : List Byte := bytesAt pg (32 + 128 * i) 128

/-- Entry `k` of the eight transitions of a state (R98): VALUE, MASK, NEXT, VALID. -/
def transAt (st : List Byte) (k : Nat) : Nat × Nat × Nat × Bool :=
  let w := leAt st (0x10 + 8 * k) 8
  (w % 2 ^ 24, w / 2 ^ 24 % 2 ^ 24, w / 2 ^ 48 % 2 ^ 8, bitAt w 63)

/-- Entry `k` of the eight extracts of a state (R98): SRC, DST, VALID. -/
def extractAt (st : List Byte) (k : Nat) : Nat × Nat × Bool :=
  let w := leAt st (0x50 + 4 * k) 4
  (w % 2 ^ 8, w / 2 ^ 8 % 2 ^ 9, bitAt w 31)

/-- The parser's place in a packet. -/
structure ParsePos where
  pos : Nat
  headers : Nat
  lastEnd : Nat
  l3End : Nat
  conts : NMap Nat
  scan : Option Nat
  /-- the header start of the last completed instance of each state -/
  seen : NMap Nat
deriving DecidableEq, Repr

/-- How a parse ends: its outcome, LIMIT and reason (R104). -/
structure ParseEnd where
  outcome : Nat
  limit : Nat
  reason : Nat
deriving DecidableEq, Repr

/-- The test of a byte end against the window and the packet (R102, steps 2 and 4). -/
def pastEnd (e len win : Nat) : Option ParseEnd :=
  if win < e && win < len then some ⟨1, 1, 0⟩ else if len < e then some ⟨2, 0, 1⟩ else none

/-- The header length that a state computes at `pos` (R98). -/
def hdrLen (st pkt : List Byte) (pos : Nat) : Nat :=
  let base := leAt st 2 2
  if bitAt (u8At st 0) 1 then
    let sc := u8At st 6
    base + ((u8At pkt (pos + u8At st 4) &&& u8At st 5) >>> (sc % 8)) * 2 ^ (sc / 16 % 4)
  else base

/-- The profile checks (R99, R102 step 5): the lowest reason that fails, 0 for none, and L3_END after the header. -/
def profile (check : Nat) (pkt : List Byte) (pos hl l3 len win : Nat) : Nat × Nat :=
  match check with
  | 1 =>
    let tot := be16At pkt (pos + 2)
    if u8At pkt pos / 16 ≠ 4 then (4, l3) else if tot < hl then (5, l3) else if len < pos + tot then (6, l3)
    else (0, pos + tot)
  | 2 =>
    let pl := be16At pkt (pos + 4)
    if u8At pkt pos / 16 ≠ 6 then (7, l3) else if pl = 0 then (8, l3) else if len < pos + 40 + pl then (9, l3)
    else (0, pos + 40 + pl)
  | 3 => (if l3 < pos + hl then 0x0A else 0, l3)
  | 4 => (if l3 < pos + hl then 0x0B else 0, l3)
  | 5 =>
    let ul := be16At pkt (pos + 4)
    (if ul < 8 then 0x0C else if l3 < pos + ul then 0x0D else 0, l3)
  | 6 => (if u8At pkt (pos + 2) % 2 = 0 && min win len < pos + hl + 4 then 0x0E else 0, l3)
  | _ => (0, l3)

/-- The extracts of a state, in entry order: a later one to the same container wins (R99). -/
def extracts (st pkt : List Byte) (pos : Nat) (c : NMap Nat) : NMap Nat :=
  (upTo 8).foldl (fun acc k =>
    let e := extractAt st k
    if e.2.2 then NMap.set 0 acc e.2.1 (beNat (bytesAt pkt (pos + e.1) (contBytes e.2.1))) else acc) c

/-- The next state (R99): the first valid transition that matches the select key, else DEFAULT_NEXT. -/
def nextState (st pkt : List Byte) (pos metaW : Nat) : Nat :=
  let o0 := leAt st 0x0C 2
  let o1 := leAt st 0x0E 2
  let s16 := if o0 = 0xFFFF then 0 else be16At pkt (pos + o0)
  let s8 := if bitAt (u8At st 0) 2 then metaW / 2 ^ 56 % 256 else if o1 = 0xFFFF then 0 else u8At pkt (pos + o1)
  let key := s16 * 256 + s8
  match ((upTo 8).map (transAt st)).find? (fun t => t.2.2.2 && ((key &&& t.2.1) = t.1)) with
  | some t => t.2.2.1
  | none => u8At st 7

/-- The bytes that a CHECK profile reads of a header (R101). -/
def profileBytes (check : Nat) : Nat :=
  match check with
  | 1 => 4
  | 2 => 6
  | 5 => 6
  | 6 => 3
  | _ => 0

/-- The bytes from its header's start on that a state must read (R98, R101, R102): its length field, select fields, profile fields and
extracts. -/
def stateBytes (st : List Byte) : Nat :=
  let sel (o n : Nat) : Nat := if o = 0xFFFF then 0 else o + n
  let flags := u8At st 0
  (upTo 8).foldl (fun m k => let e := extractAt st k; if e.2.2 then max m (e.1 + contBytes e.2.1) else m)
    (max (max (if bitAt flags 1 then u8At st 4 + 1 else 0) (profileBytes (u8At st 1)))
      (max (sel (leAt st 0x0C 2) 2) (if bitAt flags 2 then 0 else sel (leAt st 0x0E 2) 1)))

/-- The parse from state `s` on (R102); `fuel` bounds the states entered, which the header limit bounds anyway.
DEDUCED, unsafe: log entry 43. -/
def parseFrom (pg pkt : List Byte) (len win depth metaW : Nat) : Nat → Nat → ParsePos → ParseEnd × ParsePos
  | 0, _, p => (⟨1, 0, 0⟩, p)
  | fuel + 1, s, p =>
    if depth ≤ p.headers then (⟨1, 0, 0⟩, p)
    else
      let st := pgState pg s
      let early := pastEnd (p.pos + stateBytes st) len win
      match early with
      | some e => (e, p)
      | none =>
        let hl := hdrLen st pkt p.pos
        if hl < leAt st 8 2 then (⟨2, 0, 2⟩, p)
        else if leAt st 0x0A 2 < hl then (⟨2, 0, 3⟩, p)
        else match pastEnd (p.pos + hl) len win with
          | some e => (e, p)
          | none =>
            let pr := profile (u8At st 1) pkt p.pos hl p.l3End len win
            if pr.1 ≠ 0 then (⟨2, 0, pr.1⟩, p)
            else
              let p' : ParsePos :=
                { pos := p.pos + hl, headers := p.headers + 1, lastEnd := p.pos + hl, l3End := pr.2
                  conts := extracts st pkt p.pos p.conts
                  scan := if bitAt (u8At st 0) 0 then some (p.pos + hl) else p.scan
                  seen := NMap.put p.seen s p.pos }
              let nx := nextState st pkt p.pos metaW
              if nx = 0xFF then (⟨0, 0, 0⟩, p') else parseFrom pg pkt len win depth metaW fuel nx p'

/-- The range vector (R109): `cmp i` gives LO, HI, SOURCE and ENABLE of comparator `i` in the set in force. -/
def rangeVector (pg pkt : List Byte) (seen : NMap Nat) (cmp : Nat → Nat × Nat × Nat × Bool) : Nat :=
  (upTo 64).foldl (fun v i =>
    let c := cmp i
    let src := leAt pg (0x10 + 2 * c.2.2.1) 2
    let hit := c.2.2.2 && src ≠ 0xFFFF && (match NMap.find? seen (src % 256) with
      | some pos => let x := be16At pkt (pos + src / 256); decide (c.1 ≤ x) && decide (x ≤ c.2.1)
      | none => false)
    if hit then v + 2 ^ i else v) 0

/-- A byte as a pattern compares it (R115). -/
def foldCase (nocase : Bool) (b : Nat) : Nat := if nocase && 0x61 ≤ b && b ≤ 0x7A then b - 32 else b

/-- Pattern fields by the words of its record: OFFSET_MAX, OFFSET_MIN, VALID, NOCASE, GROUP, LEN. -/
def patW0 (ws : List Word) : Nat := (ws.headD 0).toNat

/-- The bytes of a pattern record. -/
def patBytes (ws : List Word) : List Byte := ((ws.drop 1).map (fun w => leBytes 4 w.toNat)).flatten

/-- A pattern matches in a window (R115). -/
def patMatches (ws : List Word) (win : List Byte) : Bool :=
  let w0 := patW0 ws
  let n := w0 % 64
  let nc := bitAt w0 12
  let pat := (bytesAt (patBytes ws) 0 n).map (fun b => foldCase nc b.toNat)
  let lo := w0 / 2 ^ 16 % 256
  let hi := w0 / 2 ^ 24 % 256
  bitAt w0 15 && (upTo (hi + 1 - lo)).any (fun k =>
    let s := lo + k
    s + n ≤ win.length && ((win.drop s).take n).map (fun b => foldCase nc b.toNat) == pat)

/-- The payload result word for a scanned window (R114); `pats` are the patterns of the set, by rising index. -/
def payResult (pats : List (Nat × List Word)) (win : List Byte) (short : Bool) : Nat :=
  let hits := pats.filter (fun p => patMatches p.2 win)
  let groups := hits.foldl (fun g p => bitOn g (patW0 p.2 / 2 ^ 8 % 8)) 0
  (match hits.head? with | some p => p.1 + 2 ^ 13 | none => 0)
    + b2n (decide (2 ≤ hits.length)) * 2 ^ 14 + 2 ^ 15 + b2n short * 2 ^ 16 + groups * 2 ^ 24

/-- PARSE_RESULT (R104). -/
def ParseOut.word (o : ParseOut) : Nat :=
  o.outcome + o.limit * 4 + b2n o.advanced * 8 + o.lastOff % 2 ^ 10 * 2 ^ 8 + o.headers % 64 * 2 ^ 18
    + o.reason % 64 * 2 ^ 24

/-- What the parser and the payload matcher make of a packet under a graph, a range set and a pattern set. -/
def parsePacket (pg : List Byte) (k : Pkt) (cmp : Nat → Nat × Nat × Nat × Bool) (scanOn : Bool)
    (pats : List (Nat × List Word)) : ParseOut :=
  let w0 := k.advance.getD 0
  let start := if k.egress then u8At pg 5 else if k.advance.isSome then u8At pg 6 else u8At pg 4
  let depth := if k.egress then u8At pg 3 else u8At pg 2
  let win := w0 + (if k.egress then 256 else 512)
  let r := parseFrom pg k.bytes k.len win depth k.metaW 34 start ⟨w0, 0, w0, k.len, [], none, []⟩
  let p := r.2
  let rc := leAt pg 0x0C 2
  let c1 := if rc = 0xFFFF then p.conts else NMap.set 0 p.conts rc (rangeVector pg k.bytes p.seen cmp)
  let n := leAt pg 8 2
  let pay : Option Nat :=
    if k.egress || n = 0 then none
    else match p.scan with
      | none => some 0
      | some s =>
        if !scanOn then some 0
        else
          let m := min n (k.len - s)
          some (payResult pats ((k.bytes.drop s).take m) (decide (k.len - s < n)))
  { outcome := r.1.outcome, limit := r.1.limit, reason := r.1.reason, headers := p.headers
    lastOff := if p.headers = 0 then 0 else p.lastEnd - w0
    advanced := k.advance.isSome
    conts := c1
    pay := pay }

end Sys2Proof.Machine
end

