-- ==== Sys2Proof/Machine/Image.lean ====
section
/-! DEFINITION. The program image (R71 to R75, R512): its header, sections, manifest, pinna descriptors, slot records and the
latencies they give (R58, R69, R70, R83). -/

namespace Sys2Proof.Machine

/-- An entry of the section table (R72): its index, TYPE, FROND, OFFSET and LENGTH, and its two reserved fields. -/
structure Sec where
  idx : Nat
  typ : Nat
  frond : Nat
  off : Nat
  len : Nat
  res1 : Nat
  res2 : Nat
deriving DecidableEq, Repr

/-- The section table of an image. -/
def imgSecs (im : List Byte) : List Sec :=
  (upTo (leAt im 0x14 2)).map (fun i =>
    let r := bytesAt im (0x40 + 16 * i) 16
    ⟨i, leAt r 0 2, leAt r 2 1, leAt r 4 4, leAt r 8 4, leAt r 3 1, leAt r 12 4⟩)

/-- The first section of a type. -/
def secOf (ss : List Sec) (typ : Nat) : Option Sec := ss.find? (fun s => s.typ = typ)

/-- The section of a type that belongs to a frond. -/
def secOfF (ss : List Sec) (typ f : Nat) : Option Sec := ss.find? (fun s => s.typ = typ && s.frond = f)

/-- The bytes of a section, none where it is absent. -/
def secBytes (im : List Byte) (s : Option Sec) : List Byte :=
  match s with
  | some x => bytesAt im x.off x.len
  | none => []

/-- IMAGE_ID (R71). -/
def imgId (im : List Byte) : Nat := leAt im 0x10 4

/-- LAYOUT_BREAK (R71). -/
def imgBreak (im : List Byte) : Bool := bitAt (u8At im 9) 0

/-- META_LAYOUT_ID (R71). -/
def imgLayout (im : List Byte) : Nat := leAt im 0x24 4

/-- The MANIFEST section (R74). -/
def imgManifest (im : List Byte) : List Byte := secBytes im (secOf (imgSecs im) 1)

/-- The PARSE_GRAPH section (R96). -/
def imgGraph (im : List Byte) : List Byte := secBytes im (secOf (imgSecs im) 3)

/-- PARSE_CYCLES of a direction as the manifest states it (R74). -/
def manParse (man : List Byte) (egress : Bool) : Nat := leAt man (if egress then 2 else 0) 2

/-- The manifest's RECIRC_LIMIT, RECIRC_MIN_ENTRIES, RECIRC_MAX_GAP, RECIRC_MAX_CYCLES and DRAIN_WINDOW (R74). -/
def manRecircLimit (man : List Byte) : Nat := u8At man 4
def manRecircMin (man : List Byte) : Nat := u8At man 6
def manRecircGap (man : List Byte) : Nat := u8At man 7
def manRecircMax (man : List Byte) : Nat := leAt man 8 4
def manWindow (man : List Byte) : Nat := leAt man 12 4

/-- The frond record of the manifest (R74). -/
def manFrond (man : List Byte) (f : Nat) : List Byte := bytesAt man (0x20 + 16 * f) 16

/-- FROND_CYCLES of a frond as the manifest states it. -/
def manCycles (man : List Byte) (f : Nat) : Nat := leAt (manFrond man f) 0 2

/-- The pinna records of a PINNA_CONFIG section in order: each descriptor, and what follows (R512). -/
def pinnaDescs : Nat → List Byte → List (List Byte)
  | 0, _ => []
  | n + 1, bs => bytesAt bs 0 64 :: pinnaDescs n (bs.drop (64 + leAt bs 0x14 4))

/-- The length that the 48 records of a PINNA_CONFIG section come to (R512). -/
def pinnaLen : Nat → List Byte → Nat
  | 0, _ => 0
  | n + 1, bs => 64 + leAt bs 0x14 4 + pinnaLen n (bs.drop (64 + leAt bs 0x14 4))

/-- The descriptors of a frond (R512). -/
def imgPinnae (im : List Byte) (f : Nat) : List (List Byte) :=
  pinnaDescs 48 (secBytes im (secOfF (imgSecs im) 4 f))

/-- The latency of a pinna by its MODE (R58). -/
def pinnaLat (d : List Byte) : Nat :=
  match u8At d 0 with
  | 0 => 1
  | 1 => 3
  | 2 => 10
  | 3 => 11
  | _ => 13

/-- T(0) to T(48) (R69). -/
def boundaries (ds : List (List Byte)) : List Nat :=
  ds.foldl (fun ts d => ts ++ [ts.getLastD 4 + pinnaLat d]) [4]

/-- FROND_CYCLES recomputed (R69). -/
def frondCycles (ds : List (List Byte)) : Nat := (boundaries ds).getLastD 4 + 6

/-- WRITE_MASK of a descriptor names a container (R512). -/
def maskHas (d : List Byte) (id : Nat) : Bool := bitAt (u8At d (0x18 + id / 8)) (id % 8)

/-- PARSE_CYCLES of a direction recomputed from the graph (R100). -/
def graphParse (pg : List Byte) (egress : Bool) : Nat := 8 + 2 * u8At pg (if egress then 3 else 2)

/-- RECIRC_MAX_CYCLES recomputed (R87). -/
def recircMax (man : List Byte) (ingressMax : Nat) : Nat :=
  30 + 885 + (if manRecircMin man = 0 then 128 else manRecircGap man) + manParse man false + ingressMax

/-- The larger of the pass lengths over all fronds, parser included (R81). -/
def passMax (man : List Byte) (cyc : Nat → Nat) : Nat :=
  (upTo 16).foldl (fun m f => max m (manParse man (8 ≤ f) + cyc f)) 0

/-- The largest ingress FROND_CYCLES (R87). -/
def ingressMax (cyc : Nat → Nat) : Nat := (upTo 8).foldl (fun m f => max m (cyc f)) 0

/-- DRAIN_WINDOW recomputed (R81). -/
def drainWindow (man : List Byte) (cyc : Nat → Nat) : Nat := passMax man cyc + 4 * recircMax man (ingressMax cyc)

/-- The times from admission of the parser exit and boundaries 0 to 48 of a frond (R83). -/
def admissionTimes (im : List Byte) (f : Nat) : List Nat :=
  let p := manParse (imgManifest im) (8 ≤ f)
  p :: (boundaries (imgPinnae im f)).map (· + p)

/-- D of R83: the largest of T_old(b) − T_new(b), and never negative. -/
def swapGap (old new : List Byte) (f : Nat) : Nat :=
  (List.zipWith (fun a b => a - b) (admissionTimes old f) (admissionTimes new f)).foldl max 0

/-- The slot records of an image (R75). -/
def imgSlots (im : List Byte) : List (List Byte) :=
  let s := secBytes im (secOf (imgSecs im) 6)
  chunksOf 8 (s.length / 8) s

/-- Fields of a slot record: FROND, PINNA, KIND, BANK, SLOT, CYCLE, TABLE, and the reserved bits (R75). -/
structure SlotRec where
  frond : Nat
  pinna : Nat
  kind : Nat
  bank : Nat
  slot : Nat
  cycle : Nat
  table : Nat
  res : Nat
deriving DecidableEq, Repr

/-- Read a slot record (R75). -/
def slotRec (r : List Byte) : SlotRec :=
  let w := leAt r 0 8
  ⟨w % 2 ^ 4, w / 2 ^ 4 % 2 ^ 6, w / 2 ^ 10 % 4, w / 2 ^ 12 % 2 ^ 8, w / 2 ^ 20 % 4, w / 2 ^ 22 % 2 ^ 10,
   w / 2 ^ 32 % 2 ^ 16, w / 2 ^ 48⟩

/-- The CRC-64 register of ECMA-182 after one bit, most significant first (R72, R326). -/
def crc64Bit (c : BitVec 64) : BitVec 64 :=
  if c.getLsbD 63 then (c <<< 1) ^^^ 0x42F0E1EBA9EA3693#64 else c <<< 1

/-- The CRC-64 register after one byte. -/
def crc64Byte (c : BitVec 64) (b : Byte) : BitVec 64 :=
  let x := c ^^^ ((b.setWidth 64) <<< 56)
  crc64Bit (crc64Bit (crc64Bit (crc64Bit (crc64Bit (crc64Bit (crc64Bit (crc64Bit x)))))))

/-- SEAL recomputed: the CRC-64 of the image with its SEAL field taken as zero (R71, R72). -/
def imgSeal (im : List Byte) : Nat :=
  ((im.take 0x38 ++ List.replicate 8 0#8 ++ im.drop 0x40).foldl crc64Byte 0#64).toNat

/-- One record of TABLE_REGIONS is 16 bytes (R73). -/
def imgRegions (im : List Byte) : List (List Byte) :=
  let s := secBytes im (secOf (imgSecs im) 8)
  chunksOf 16 (s.length / 16) s

end Sys2Proof.Machine
end

