-- ==== Sys2Proof/Machine/Rind.lean ====
section
/-! DEFINITION. The internal cell header (R314), the rind of a cell in each of its places, how it moves, and the test that a
reader makes (R311 to R320). -/

namespace Sys2Proof.Machine

/-- Bytes 0 to 23 of a cell header: every field but the rind and the check words (R314). -/
def Cell.hdr24 (c : Cell) : List Byte :=
  leBytes 4 (c.queue + b2n c.sop * 2 ^ 20 + b2n c.eop * 2 ^ 21 + c.pay.length % 256 * 2 ^ 22)
    ++ leBytes 4 (c.pktLen + c.idx * 2 ^ 16 + c.recirc * 2 ^ 22)
    ++ leBytes 8 c.epoch ++ leBytes 8 c.metaW

/-- The 32 bytes of a cell header as the sward and the peat store it (R314). -/
def Cell.header (c : Cell) : List Byte :=
  c.hdr24 ++ leBytes 4 c.rind.toNat
    ++ leBytes 4 ((Config.rindEcc c.rind).toNat + (Config.hdrEcc c.hdr24).toNat * 2 ^ 7)

/-- The payload padded with zeros to 256 bytes (R311). -/
def Cell.padded (c : Cell) : List Byte := bytesAt c.pay 0 256

/-- The places of R311 and their placement fields. -/
inductive Place where
  | arrival (lport idx : Nat)
  | bridgeIn (queue idx group tag : Nat)
  | sward (queue cseq addr : Nat)
  | peat (queue cseq slot block : Nat)
  | fabric (dest src engine seq : Nat)
  | bridgeOut (queue idx group tag : Nat)
  | egressFifo (lport idx tag : Nat)
deriving DecidableEq, Repr

/-- The PLACE code of a place (R311). -/
def Place.code : Place → Nat
  | .arrival .. => 0
  | .bridgeIn .. => 1
  | .sward .. => 2
  | .peat .. => 3
  | .fabric .. => 4
  | .bridgeOut .. => 5
  | .egressFifo .. => 6

/-- The placement word of a place (R311). -/
def Place.word : Place → Nat
  | .arrival l i => l % 2 ^ 8 + i % 2 ^ 6 * 2 ^ 8
  | .bridgeIn q i g t => q % 2 ^ 20 + i % 2 ^ 6 * 2 ^ 20 + g % 2 ^ 5 * 2 ^ 26 + t % 2 ^ 16 * 2 ^ 32 + 1 * 2 ^ 92
  | .sward q c a => q % 2 ^ 20 + c % 2 ^ 16 * 2 ^ 20 + a % 2 ^ 20 * 2 ^ 36 + 2 * 2 ^ 92
  | .peat q c s b => q % 2 ^ 20 + c % 2 ^ 16 * 2 ^ 20 + s % 2 ^ 3 * 2 ^ 36 + b % 2 ^ 29 * 2 ^ 39 + 3 * 2 ^ 92
  | .fabric d s e n => d % 2 ^ 11 + s % 2 ^ 11 * 2 ^ 11 + e % 2 ^ 3 * 2 ^ 22 + n % 2 ^ 16 * 2 ^ 25 + 4 * 2 ^ 92
  | .bridgeOut q i g t => q % 2 ^ 20 + i % 2 ^ 6 * 2 ^ 20 + g % 2 ^ 5 * 2 ^ 26 + t % 2 ^ 16 * 2 ^ 32 + 5 * 2 ^ 92
  | .egressFifo l i t => l % 2 ^ 8 + i % 2 ^ 6 * 2 ^ 8 + t % 2 ^ 16 * 2 ^ 14 + 6 * 2 ^ 92

/-- SEED: the full CRC-32C of the 12 bytes of the placement word (R311). -/
def Place.seed (p : Place) : Word := ~~~(crc32cRaw 0xFFFFFFFF#32 (leBytes 12 p.word))

/-- The covered bytes of a cell in a place (R311). -/
def Place.covered (p : Place) (c : Cell) : List Byte :=
  match p with
  | .arrival .. => c.padded
  | .fabric .. => c.padded
  | .egressFifo .. => c.pay
  | _ => c.hdr24 ++ c.padded

/-- The rind computed from covered bytes in a place (R311). -/
def rindOf (p : Place) (covered : List Byte) : Word := crc32cRaw p.seed covered

/-- Bytes with the differences that a reader meets. -/
def flipBytes (bs : List Byte) : List (Nat × Byte) → List Byte
  | [] => bs
  | (i, d) :: r => flipBytes (match bs[i]? with | some b => bs.set i (b ^^^ d) | none => bs) r

/-- The outcomes of a verification (R318). -/
inductive Verdict where
  | clean
  | checkOnly
  | eccCorr
  | poisoned
  | misplaced
  | eccUncorr
deriving DecidableEq, Repr

/-- A packet with this outcome is discarded (R318). -/
def Verdict.bad : Verdict → Bool
  | .poisoned | .misplaced | .eccUncorr => true
  | _ => false

/-- The places without cell ECC, where steps 1 and 2 of R318 are skipped: the bridge, the fabric, and the stores of R324
that the rind alone protects. -/
def Place.ecc : Place → Bool
  | .sward .. | .peat .. => true
  | _ => false

/-- The test of R318 on a cell in the place its reader expects. -/
def verify (p : Place) (c : Cell) (s : Seen) : Verdict :=
  let stored := c.rind ^^^ s.rindFlip
  let computed := rindOf p (flipBytes (p.covered c) s.flips)
  if p.ecc && s.uncorr then .eccUncorr
  else if p.ecc && s.rindUncorr then .eccUncorr
  else if stored = ~~~computed then .poisoned
  else if stored = computed then
    if p.ecc && s.rindFixed then .checkOnly
    else if p.ecc && s.fixed then .eccCorr
    else .clean
  else .misplaced

/-- The rind of a cell in its new place, formed from the old rind and the differences of seeds and covered header bytes
alone; inverted if the old rind failed (R313, R320). `c` is the cell as it was, `c'` as it will be. -/
def rindMove (p p' : Place) (c c' : Cell) (failed : Bool) : Word :=
  let r := c.rind ^^^ rindOf p (p.covered c) ^^^ rindOf p' (p'.covered c')
  if failed then ~~~r else r

/-- A poisoned cell (R320). -/
def Cell.poison (c : Cell) : Cell := { c with rind := ~~~c.rind }

/-- Cut a packet into payloads of 256 bytes (R180); a packet of no byte has none. -/
def cellPays (bs : List Byte) : List (List Byte) := chunksOf 256 64 bs

/-- The ARRIVAL rinds of a packet's bytes (R311, R315, R317). -/
def arrivalRinds (lport : Nat) (bs : List Byte) : List Word :=
  (cellPays bs).zipIdx.map (fun e => rindOf (.arrival lport e.2) (bytesAt e.1 0 256))

/-- Cells of a packet of `n` bytes (R180). -/
def cellsOf (n : Nat) : Nat := max 1 (ceilDiv n 256)

end Sys2Proof.Machine
end

