-- ==== Sys2Proof/Machine/Integrity.lean ====
section
/-! DEFINITION. The counters and reports of the rind check (R318), the drift event of the bridge (R29), and reports that
are made at most once in a tick. -/

namespace Sys2Proof.Machine

/-- Do something at most once in a tick: `key` names the kind of report.
DESIGN CHOICE, safe: log entry 12. -/
def Block.oncePerTick (b : Block) (key : Nat) (f : Block → Block) : Block :=
  if b.told.contains key then b else f { b with told := key :: b.told }

/-- An event sent at most once in a tick. -/
def Block.eventOnce (b : Block) (key page cls sub : Nat) (data : List Byte) : Block :=
  b.oncePerTick key (fun x => x.event page cls sub data)

/-- The column of an outcome in the integrity counters; a clean cell has none. -/
def Verdict.column : Verdict → Option Nat
  | .clean => none
  | .checkOnly => some 0
  | .eccCorr => some 1
  | .poisoned => some 2
  | .misplaced => some 3
  | .eccUncorr => some 4

/-- The drift event (R29): flagged, with its group and cause if none is held; with AUTO_HALF the switch to half width
follows (R30). A drift event abandons a return to full width (R33). -/
def Block.driftEvent (b : Block) (group cause : Nat) : Block :=
  let b1 := if b.flag BRG.STS BRG.STS_DRIFT then b
    else (b.setFld BRG.STS BRG.STS_FIRST_GROUP group).setFld BRG.STS BRG.STS_FIRST_CAUSE cause
  let b2 := b1.setFld BRG.STS BRG.STS_DRIFT 1
  let due := b2.fd.bridge.halfDue || (b2.flag BRG.CTL BRG.CTL_AUTO_HALF && !b2.flag BRG.STS BRG.STS_HALF)
  let b3 := { b2 with fd := { b2.fd with bridge := { b2.fd.bridge with halfDue := due } } }
  if b3.flag BRG.CTL BRG.CTL_WIDTH_REQ then
    (b3.setFld BRG.CTL BRG.CTL_WIDTH_REQ 0).setFld BRG.STS BRG.STS_WIDTH_FAIL 1
  else b3

/-- A rind failure on bridge arrival: the drift event fires once more than ERR_LIMIT have come in one tick (R29, R318). -/
def Block.bridgeRindFail (b : Block) (group : Nat) : Block :=
  let n := b.fd.bridge.rindFails + 1
  let b1 := { b with fd := { b.fd with bridge := { b.fd.bridge with rindFails := n } } }
  if n = b.fld BRG.ERR_LIMIT BRG.ERR_LIMIT_COUNT + 1 then b1.driftEvent group 5 else b1

/-- Count an outcome at a place, or in the PUNT row 7, with its interrupts and reports (R318). `who` is the queue or the
port and `idx` the CELL_IDX. The caller counts an outcome that discards once for each packet. -/
def Block.chkCount (b : Block) (row : Nat) (v : Verdict) (who : List Byte) (idx : Nat) : Block :=
  match v.column with
  | none => b
  | some k =>
    let b1 := b.count (CHK.CHECK_ONLY_LO row + 8 * k) 3
    let b2 := if v = .misplaced || v = .poisoned then b1.intRaw 7 4 else b1
    match v with
    | .checkOnly => b2.eventOnce 0x0802FF 7 8 2 []
    | .misplaced | .eccUncorr =>
      b2.eventOnce (0x080100 + row) 7 8 1 ([BitVec.ofNat 8 row] ++ who ++ [BitVec.ofNat 8 idx])
    | _ => b2

/-- Count an outcome at a place of the bridge: a failure there also goes to the drift test (R318). -/
def Block.chkBridge (b : Block) (row : Nat) (v : Verdict) (queue idx group : Nat) : Block :=
  let b1 := b.chkCount row v (leBytes 4 queue) idx
  if v = .misplaced || v = .poisoned then b1.bridgeRindFail group else b1

end Sys2Proof.Machine
end

