-- ==== Sys2Proof/Machine/Punt.lean ====
section
/-! DEFINITION. Punts to the host's punt rings and to the sorus (R417, R447). -/

namespace Sys2Proof.Machine

/-- What a PUNT descriptor says of a packet (R417). -/
structure PuntInfo where
  reason : Nat
  egress : Bool
  parser : Bool
  copy : Bool
  noLport : Bool
  noOut : Bool
  lport : Nat
  outLport : Nat
  epoch : Nat
  metaW : Nat
deriving DecidableEq, Repr

/-- The type-specific bytes of a PUNT descriptor (R417). -/
def PuntInfo.bytes (i : PuntInfo) (len : Nat) : List Byte :=
  leBytes 1 i.reason
    ++ leBytes 1 (b2n i.egress + 2 * b2n i.parser + 4 * b2n i.copy + 8 * b2n i.noLport + 16 * b2n i.noOut)
    ++ leBytes 2 len ++ leBytes 1 i.lport ++ leBytes 1 i.outLport ++ leBytes 2 i.epoch ++ leBytes 8 i.metaW

/-- The descriptors from HEAD on whose buffers together cover `need` bytes, as far as the ring holds them: their bytes, or
the error that stops the ring (R413, R417). `i` counts from HEAD and `n` bounds the descriptors left. -/
def Block.gather (b : Block) (r need : Nat) : Nat → Nat → List (List Byte) → Option (List (List Byte)) × Option Nat
  | _, 0, acc => (if need = 0 then some acc else none, none)
  | i, n + 1, acc =>
    if need = 0 then (some acc, none)
    else
      let a := b.descAddr r (b.fld (PCI.RING_HEAD r) PCI.RING_HEAD_HEAD + i)
      if b.host.fails a 32 then (none, some 3)
      else
        let d := b.dmaRead a 32
        if !bitAt (leAt d 15 1) 7 then (none, some 2)
        else Block.gather b r (need - leAt d 8 3) (i + 1) n (acc ++ [d])

/-- Write the buffers and the descriptors of one punted packet, in index order (R412, R417). -/
def Block.puntWrite (b : Block) (r : Nat) (tail : List Byte) : Bool → List (List Byte) → List Byte → Block
  | _, [], _ => b
  | first, d :: ds, bs =>
    let n := min (leAt d 8 3) bs.length
    let rest := bs.drop n
    let a := b.descAddr r (b.fld (PCI.RING_HEAD r) PCI.RING_HEAD_HEAD)
    if 0 < n && b.host.fails (leAt d 0 8) n then b.ringErr r 3
    else
      let fl := b2n first + 2 * b2n ds.isEmpty
      let out := bytesAt d 0 8 ++ leBytes 4 n ++ leBytes 1 1 ++ leBytes 1 fl ++ [0#8, 0#8] ++ tail
      Block.puntWrite ((((b.dmaWrite (leAt d 0 8) (bs.take n)).dmaWrite a out).takeHead r).returned r) r tail false ds rest

/-- A punt to a host ring: only when the descriptors held cover the packet; otherwise dropped whole and counted (R417). -/
def Block.puntHost (b : Block) (r : Nat) (i : PuntInfo) (bs : List Byte) : Block :=
  if b.ringRuns r && ringAlive b.mode.mode r then
    match b.gather r bs.length 0 (b.ringFree r) [] with
    | (some ds, _) => b.puntWrite r (i.bytes bs.length) true ds bs
    | (none, some c) => (b.ringErr r c).ringDrop r
    | (none, none) => b.ringDrop r
  else b.ringDrop r

/-- A punt to a ring that delivers to the sorus: the island buffer of 2 MiB and 4,096 packets (R447). -/
def Block.puntSorus (b : Block) (r : Nat) (bs : List Byte) : Block :=
  let held := b.fw.punts.foldl (fun n p => n + p.2.length) 0
  if 4096 ≤ b.fw.punts.length || 0x200000 < held + bs.length then b.ringDrop r
  else { b with fw := { b.fw with punts := b.fw.punts ++ [(r, bs)] } }

/-- A punt of a packet to a ring (R417, R447). -/
def Block.punt (b : Block) (r : Nat) (i : PuntInfo) (bs : List Byte) : Block :=
  if b.toSorus r then b.puntSorus r bs else b.puntHost r i bs

end Sys2Proof.Machine
end

