-- ==== Sys2Proof/Machine/Frond.lean ====
section
/-! DEFINITION. The fronds: banks and stamps (R79 to R84), the entry calendars (R53 to R57), admission, the parser exit
(R102 to R108), the PHV at frond entry (R67, R68) and the recirculation path (R85 to R88). -/

namespace Sys2Proof.Machine

/-- One frond's state. -/
def Block.frond (b : Block) (f : Nat) : Frond := NMap.get {} b.fd.fronds f

/-- Replace a frond's state. -/
def Block.setFrond (b : Block) (f : Nat) (x : Frond) : Block :=
  { b with fd := { b.fd with fronds := NMap.set {} b.fd.fronds f x } }

/-- One slice's recirculation path and FIFO. -/
def Block.recirc (b : Block) (k : Nat) : Recirc := NMap.get {} b.fd.recirc k

/-- Replace a slice's recirculation path and FIFO. -/
def Block.setRecirc (b : Block) (k : Nat) (x : Recirc) : Block :=
  { b with fd := { b.fd with recirc := NMap.set {} b.fd.recirc k x } }

/-- The staged packets of a logical port, oldest first. -/
def Block.staged (b : Block) (p : Nat) : List Staged := NMap.get [] b.fd.staging p

/-- Replace the staged packets of a logical port. -/
def Block.setStaged (b : Block) (p : Nat) (x : List Staged) : Block :=
  { b with fd := { b.fd with staging := NMap.set [] b.fd.staging p x } }

/-- One wire group: `d` 0 for FD→TD, 1 for TD→FD. -/
def Block.group (b : Block) (d g : Nat) : Group := NMap.get {} b.fd.bridge.groups (32 * d + g)

/-- Replace a wire group. -/
def Block.setGroup (b : Block) (d g : Nat) (x : Group) : Block :=
  { b with fd := { b.fd with bridge := { b.fd.bridge with groups := NMap.set {} b.fd.bridge.groups (32 * d + g) x } } }

/-- The state of a program bank: 0 EMPTY, 1 LOADING, 2 VERIFIED, 3 ACTIVE, 4 DRAINING, 5 RETIRED, 6 REFUSED (R80). -/
def Block.bankState (b : Block) (n : Nat) : Nat :=
  b.fld GLB.PROG_BANK_STS (if n = 0 then GLB.PROG_BANK_STS_BANK0 else GLB.PROG_BANK_STS_BANK1)

/-- The image a bank holds. -/
def Block.bankImage (b : Block) (n : Nat) : List Byte := if n = 0 then b.fd.prog.bank0.image else b.fd.prog.bank1.image

/-- Set a bank's state, with the IMAGE_ID that its register shows in that state (R80). -/
def Block.setBank (b : Block) (n st : Nat) : Block :=
  let b1 := b.setFld GLB.PROG_BANK_STS (if n = 0 then GLB.PROG_BANK_STS_BANK0 else GLB.PROG_BANK_STS_BANK1) st
  let shows := st = 2 || st = 3 || st = 4 || st = 5
  let b2 := b1.setReg (if n = 0 then GLB.PROG_IMAGE_ID0 else GLB.PROG_IMAGE_ID1)
    (BitVec.ofNat 32 (if shows then imgId (b.bankImage n) else 0))
  if st = 3 then b2.setFld GLB.PROG_BANK_STS GLB.PROG_BANK_STS_ACTIVE_BANK n else b2

/-- The bank in a given state, if any. -/
def Block.bankIn (b : Block) (st : Nat) : Option Nat :=
  if b.bankState 0 = st then some 0 else if b.bankState 1 = st then some 1 else none

/-- An entry of the egress packet store whose pass has handed off, but whose packet has not left its run (R81): it is to recirculate
through frond `f`, or, handed off by egress frond `f`, to be punted or to be written to its port. `coming` says that its first
word is still to be written. -/
def EgPkt.inRun (e : EgPkt) (f : Nat) (coming : Bool) : Bool :=
  match e.fate with
  | .recirc k => k = f
  | .punt _ _ _ forward _ => e.frond = f && (!forward || coming)
  | .port => e.frond = f && coming
  | _ => false

/-- The first word of a store entry is still to be written to its port. -/
def Block.comes (b : Block) (id : Nat) (e : EgPkt) : Bool := (NMap.get {} b.fd.egf e.outLport).coming.contains id

/-- The store entries that a frond counts as in a run (R81), with their numbers. -/
def Block.runStore (b : Block) (f : Nat) : List (Nat × EgPkt) :=
  List.filter (fun (e : Nat × EgPkt) => e.2.inRun f (b.comes e.1 e.2)) b.fd.store

/-- The packets of a frond that are in a run (R81): in its parser and its pinnae, handed off by it with their later cells or their
first word still to come, and for an ingress frond in its slice's recirculation path and FIFO.
DEDUCED, unsafe: log entry 32. -/
def Block.runPkts (b : Block) (f : Nat) : List Pkt :=
  let x := b.frond f
  (x.parser ++ x.pinnae).map (fun p => p.pkt) ++ (b.runStore f).filterMap (fun e => e.2.pass)
    ++ (if f < 8 then (b.recirc f).path ++ (b.recirc f).fifo else [])

/-- The packets of a frond stamped for the draining bank (R81). -/
def Block.drainCount (b : Block) (f : Nat) : Nat :=
  match b.bankIn 4 with
  | none => 0
  | some n => ((b.runPkts f).filter (fun p => p.bank = n)).length

/-- The packets of the device stamped for the draining bank (R81). -/
def Block.drainTotal (b : Block) : Nat := (upTo 16).foldl (fun n f => n + b.drainCount f) 0

/-- Once no packet is counted the old bank is RETIRED (R81). -/
def Block.drainCheck (b : Block) : Block :=
  match b.bankIn 4 with
  | none => b
  | some n =>
    if b.drainTotal = 0 then
      let b1 := b.setBank n 5
      ({ b1 with fd := { b1.fd with prog := { b1.fd.prog with drainLeft := 0 } } }).event 0 1 5 []
    else b

/-- Count in the counter `k` of a frond's page, in the order of CNT_WRAP, with its wrap bit (frond registers). -/
def Block.frdCountN (b : Block) (f k n : Nat) : Block :=
  let lo := FRD.ENTERED_LO f + 8 * k
  let v := b.cnt48 lo + n
  let b1 := (b.setReg lo (BitVec.ofNat 32 v)).setReg (lo + 4) (BitVec.ofNat 32 (v / 2 ^ 32 % 2 ^ 16))
  if 2 ^ 48 ≤ v then
    (b1.setReg (FRD.CNT_WRAP f) (b1.reg (FRD.CNT_WRAP f) ||| BitVec.ofNat 32 (1 <<< k))).intRaw (0x10 + f) 4
  else b1

/-- Count one in the counter `k` of a frond's page. -/
def Block.frdCount (b : Block) (f k : Nat) : Block := b.frdCountN f k 1

/-- EXPIRED counts a packet (R82).
DEDUCED, unsafe: log entry 30. -/
def Block.expire (b : Block) (f : Nat) : Block := (b.frdCount f 4).intRaw (0x10 + f) 0

/-- The primary and secondary owner of entry `i` of the calendar whose 64 registers begin at `base` (R55). -/
def Block.calEntry (b : Block) (base i : Nat) : Nat × Nat :=
  let w := (b.reg (base + 4 * (i / 2))).toNat >>> (16 * (i % 2))
  (w % 64, w / 2 ^ 8 % 64)

/-- The number of primary entries of an owner in a calendar. -/
def Block.calPrimaries (b : Block) (base owner : Nat) : Nat :=
  ((upTo 128).filter (fun i => (b.calEntry base i).1 = owner)).length

/-- Copy a calendar's 64 registers (R57, R232). -/
def Block.calCopy (b : Block) (src dst : Nat) : Block :=
  (upTo 64).foldl (fun x i => x.setReg (dst + 4 * i) (b.reg (src + 4 * i))) b

/-- The pace buckets of a slice brought up to now (R233).
DESIGN CHOICE, unsafe: log entry 64. -/
def Block.paceNow (b : Block) (k : Nat) : Pace :=
  let x := NMap.get {} b.td.sched.pace k
  let d := b.time.elapsed - x.at_
  let n := b.calPrimaries (FRD.CAL_ACTIVE (k + 8) 0) 0x22
  { tokens := min 204800 (x.tokens + d * n * 135), chunks := min 576000 (x.chunks + d * 3072), at_ := b.time.elapsed }

/-- Replace a slice's pace buckets. -/
def Block.setPace (b : Block) (k : Nat) (x : Pace) : Block :=
  b.withSched { b.td.sched with pace := NMap.set {} b.td.sched.pace k x }

/-- The speed of a logical port in units of 5 Gbit/s (R281). -/
def Block.lportSpeed (b : Block) (p : Nat) : Nat := b.fld (LIN.LPORT_SPEED (p / 32) (p % 32)) LIN.LPORT_SPEED_SPEED

/-- The primary entries that a port of speed S needs: S over 12.5 Gbit/s, rounded up (R56, R232). -/
def entriesFor (speed : Nat) : Nat := ceilDiv (2 * speed) 5

/-- The RECIRC primaries of a calendar lie no more than `gap` entries apart, counting cyclically (R56). -/
def recircGapOk (pos : List Nat) (gap : Nat) : Bool :=
  match pos with
  | [] => true
  | p :: _ =>
    let nexts := pos.drop 1 ++ [p + 128]
    (List.zipWith (fun a c => c - a) pos nexts).all (fun d => decide (d ≤ gap))

/-- The requirements of an image on an ingress calendar: rules 2 and 3 of R56. -/
def Block.calImageOk (b : Block) (base : Nat) (im : List Byte) : Bool :=
  let man := imgManifest im
  let pos := (upTo 128).filter (fun i => (b.calEntry base i).1 = 0x20)
  manRecircMin man ≤ pos.length && (manRecircMin man = 0 || recircGapOk pos (manRecircGap man))

/-- The check of R56 on the calendar at `base` of frond `f`. -/
def Block.frdCalOk (b : Block) (f base : Nat) : Bool :=
  let es := (upTo 128).map (b.calEntry base)
  let kindOk (o : Nat) : Bool :=
    if f < 8 then o ≤ 0x21 || o = 0x3F else o = 0x21 || o = 0x22 || o = 0x3F
  es.all (fun e => kindOk e.1 && kindOk e.2)
    && (8 ≤ f ||
      ((upTo 32).all (fun p => entriesFor (b.lportSpeed (32 * f + p)) ≤ b.calPrimaries base p)
        && (upTo 2).all (fun n =>
          if b.bankState n = 2 || b.bankState n = 3 then b.calImageOk base (b.bankImage n) else true)))

/-- `FRDn.CAL_CTL.COMMIT`: the shadow is checked at the next wrap; the register holds the request (R57). An egress frond's calendar
paces its slice's departures from then on (R233). -/
def Block.frdCalCheck (b : Block) (f : Nat) : Block :=
  if !b.flag (FRD.CAL_CTL f) FRD.CAL_CTL_COMMIT then b
  else
    let b1 := b.setFld (FRD.CAL_CTL f) FRD.CAL_CTL_COMMIT 0
    if b.frdCalOk f (FRD.CAL_SHADOW f 0) then
      (if f < 8 then b1 else b1.setPace (f - 8) (b1.paceNow (f - 8))).calCopy (FRD.CAL_SHADOW f 0) (FRD.CAL_ACTIVE f 0)
    else (b1.setFld (FRD.CAL_CTL f) FRD.CAL_CTL_COMMIT_FAIL 1).intRaw (0x10 + f) 3

/-- What a source of R55 offers to a frond. -/
inductive Offer where
  | port (p : Nat) (k : Pkt)
  | recirc (k : Pkt)
  | inject (k : Pkt)
  | bridge (g : Nat) (c : Cell) (chunks : Nat)
deriving DecidableEq, Repr

/-- The cell that has arrived whole at the head of a crossing FIFO, with the number of its chunks (R21, R55). -/
def wholeCell (fifo : List Chunk) : Option (Cell × Nat) :=
  match fifo with
  | [] => none
  | h :: r =>
    match h.hdr with
    | none => none
    | some c =>
      if h.last then some (c, 1)
      else
        let body := r.takeWhile (fun x => x.hdr.isNone && !x.last)
        match r[body.length]? with
        | some x =>
          if x.hdr.isNone && x.last then
            some ({ c with pay := (body.map (fun y => y.bytes)).flatten ++ x.bytes }, body.length + 2)
          else none
        | none => none

/-- The offer of an owner to a frond, if it is ready (R55). Of the four wire groups of an egress frond the first ready
one from `prefer` on is taken.
DESIGN CHOICE, unsafe: log entry 39. -/
def Block.offer (b : Block) (f owner prefer : Nat) : Option Offer :=
  if owner < 0x20 && f < 8 then
    match (b.staged (32 * f + owner)).head? with
    | some s => if s.ready then some (.port (32 * f + owner) s.pkt) else none
    | none => none
  else if owner = 0x20 && f < 8 then ((b.recirc f).fifo.head?).map .recirc
  else if owner = 0x21 then ((b.frond f).inject.head?).map .inject
  else if owner = 0x22 && 8 ≤ f then
    let gs := (upTo 4).map (fun j => 4 * (f - 8) + (prefer + j) % 4)
    (gs.filterMap (fun g => match wholeCell (b.group 1 g).fifo with
      | some (c, n) => if c.sop then some (Offer.bridge g c n) else none
      | none => none)).head?
  else none

/-- The range comparators in force (R109). -/
def Block.comparator (b : Block) (i : Nat) : Nat × Nat × Nat × Bool :=
  (b.fld (PRS.RANGE_ACTIVE_LOHI i) PRS.RANGE_ACTIVE_LOHI_LO, b.fld (PRS.RANGE_ACTIVE_LOHI i) PRS.RANGE_ACTIVE_LOHI_HI,
   b.fld (PRS.RANGE_ACTIVE_SRC i) PRS.RANGE_ACTIVE_SRC_SOURCE, b.flag (PRS.RANGE_ACTIVE_SRC i) PRS.RANGE_ACTIVE_SRC_ENABLE)

/-- The patterns of a set, by rising index (R116). -/
def Block.patternSet (b : Block) (s : Nat) : List (Nat × List Word) :=
  (b.fd.patterns.filter (fun e => e.1 / 8192 = s)).map (fun e => (e.1 % 8192, e.2))

/-- The parse of a packet under the sets in force at its admission (R102, R110, R116). -/
def Block.parseOf (b : Block) (k : Pkt) : ParseOut :=
  parsePacket (imgGraph (b.bankImage k.bank)) k b.comparator (b.flag PAY.CTL PAY.CTL_ENABLE)
    (b.patternSet (b.fld PAY.CTL PAY.CTL_ACTIVE_SET))

/-- The packet of an offer as it would be admitted, stamped if its admission begins a run (R79). An egress packet from an inject ring
has had no ingress stamp: its INGRESS_EPOCH is 0 (R84).
DESIGN CHOICE, unsafe: log entry 182. -/
def Block.stampOffer (b : Block) (o : Offer) (act : Nat) : Pkt :=
  let e := b.fd.prog.epoch
  match o with
  | .port _ k => { k with stamped := true, bank := act, epoch := e, inEpoch := e }
  | .recirc k => k
  | .inject k => if k.egress then { k with stamped := true, bank := act, epoch := e }
                 else { k with stamped := true, bank := act, epoch := e, inEpoch := e }
  | .bridge _ c _ =>
    { bytes := c.pay, len := c.pktLen, metaW := c.metaW, stamped := true, bank := act, epoch := e, inEpoch := c.epoch
      recirc := c.recirc, egress := true, lport := c.arrival % 2 ^ 8, macPort := c.arrival / 2 ^ 8 % 2 ^ 8
      noLport := bitAt c.arrival 19 }

/-- 16-bit serial-number order: `a` is earlier than `c` (R84). -/
def earlier16 (a c : Nat) : Bool :=
  let d := (c + 2 ^ 16 - a % 2 ^ 16) % 2 ^ 16
  0 < d && d < 2 ^ 15

/-- A packet falls under the layout drop of R84. -/
def Block.layoutDrops (b : Block) (k : Pkt) : Bool :=
  k.egress && b.flag GLB.PROG_BREAK_EPOCH GLB.PROG_BREAK_EPOCH_VALID
    && earlier16 k.inEpoch (b.fld GLB.PROG_BREAK_EPOCH GLB.PROG_BREAK_EPOCH_EPOCH)

/-- A candidate whose stamp differs from the last admitted waits out the swap gap (R54, R83). -/
def Block.inGap (b : Block) (f : Nat) (k : Pkt) : Bool :=
  let x := b.frond f
  match x.lastBank with
  | none => false
  | some n => n ≠ k.bank && x.cycle - x.lastAt < swapGap (b.bankImage n) (b.bankImage k.bank) f + 1

/-- The credits that an egress packet's port gets back in full: on their way to the TD (R209). -/
def Block.refund (b : Block) (p n : Nat) : Block :=
  let e := NMap.get {} b.fd.egf p
  { b with fd := { b.fd with egf := NMap.set {} b.fd.egf p { e with owed := e.owed + n } } }

/-- Replace an entry of the FD egress packet store. -/
def Block.setStore (b : Block) (id : Nat) (e : Option EgPkt) : Block :=
  { b with fd := { b.fd with store := match e with
      | some x => NMap.put b.fd.store id x
      | none => NMap.del b.fd.store id } }

/-- The words of 32 bytes of an egress packet that have still to arrive (R209, R321). -/
def EgPkt.awaited (g : EgPkt) : Nat := if g.complete then 0 else ceilDiv g.len 32 - ceilDiv g.arrived 32

/-- An egress packet that writes no word, or no more, into its port's FIFO: the credits of the words that have come return at once,
the others as those words are discarded (R210, R212, R321). A punt copy still to be taken stays (R323). -/
def Block.discardEg (b : Block) (id : Nat) : Block :=
  match NMap.find? b.fd.store id with
  | none => b
  | some g =>
    let keep := min g.credits g.awaited
    let e : Option EgPkt := match g.fate with
      | .punt ring reason copy _ parser => some { g with fate := .punt ring reason copy false parser, credits := keep }
      | _ => if g.complete then none else some { g with fate := .drop, cells := [], credits := keep }
    (b.setStore id e).refund g.outLport (g.credits - keep)

/-- An egress packet ends without a word in its port's FIFO: its credits return in full (R209). -/
def Block.loseEg (b : Block) (id : Nat) : Block :=
  match NMap.find? b.fd.store id with
  | none => b
  | some g =>
    (b.setStore id (if g.complete then none else some { g with fate := .drop, cells := [], credits := 0 })).refund g.outLport g.credits

/-- Take chunks off the head of a crossing FIFO: the receiver then owes their credits (R23). -/
def Block.popChunks (b : Block) (d g n : Nat) : Block :=
  let x := b.group d g
  b.setGroup d g { x with fifo := x.fifo.drop n, owed := x.owed + n }

/-- An inject packet's descriptors go back once its frond has admitted it (R418). -/
def Block.returnInject (b : Block) (k : Pkt) : Block :=
  match k.descs with
  | none => b
  | some (r, n) => b.injectDone r n 0

/-- The cells that an egress packet from an inject ring has in the egress packet store, with rinds for their place there. -/
def injectCells (k : Pkt) : List Cell :=
  (cellPays k.bytes).zipIdx.map (fun e =>
    let c : Cell := { sop := decide (e.2 = 0), pktLen := k.len, idx := e.2, pay := e.1 }
    let p := Place.bridgeOut 0 e.2 32 0
    { c with rind := rindOf p (p.covered c) })

/-- Take an offered packet from its source. An egress packet opens an entry of the egress packet store, whose number the packet then
carries.
DESIGN CHOICE, unsafe: log entry 40. -/
def Block.takeOffer (b : Block) (f : Nat) (o : Offer) : Block × Option Nat :=
  match o with
  | .port p _ => (b.setStaged p ((b.staged p).drop 1), none)
  | .recirc _ => (b.setRecirc f { b.recirc f with fifo := (b.recirc f).fifo.drop 1 }, none)
  | .inject k =>
    let x := b.frond f
    let b1 := (b.setFrond f { x with inject := x.inject.drop 1 }).returnInject k
    if k.egress then
      let id := b1.fd.nextId
      let b2 := { b1 with fd := { b1.fd with nextId := id + 1 } }
      (b2.setStore id (some { frond := f, group := 32, tag := 0, queue := 0, len := k.len, cells := injectCells k
                              arrived := k.bytes.length, complete := true, outLport := k.outLport, outNone := k.outNone }), some id)
    else (b1, none)
  | .bridge g c n =>
    let b1 := b.popChunks 1 g n
    let id := b1.fd.nextId
    let x := b1.group 1 g
    let w := x.announced.headD (0xFF, true, 0)
    let b2 := b1.setGroup 1 g { x with rxTag := (x.rxTag + 1) % 2 ^ 16, announced := x.announced.drop 1 }
    let b3 := { b2 with fd := { b2.fd with nextId := id + 1 } }
    (b3.setStore id (some { frond := f, group := g, tag := x.rxTag, queue := c.queue, len := c.pktLen, cells := [c]
                            arrived := c.pay.length, complete := c.eop, outLport := w.1, outNone := w.2.1, credits := w.2.2 }),
     some id)

/-- Modes in which the frond cycles run and packets may be admitted (R41, R89). -/
def Block.frondsRun (b : Block) : Bool := dataRuns b.mode.mode && !b.quietHandover

/-- One admission cycle of a frond (R54): a pending calendar commit at position 0 (R57), then the owner that the calendar names, the swap
gap, or a bubble. -/
def Block.admitOne (b' : Block) (f prefer : Nat) : Block :=
  let b := if (b'.frond f).cycle % 128 = 0 then b'.frdCalCheck f else b'
  let x := b.frond f
  let e := b.calEntry (FRD.CAL_ACTIVE f 0) (x.cycle % 128)
  let b0 := b.setFrond f { x with cycle := x.cycle + 1 }
  let bubble := ((b0.frdCount f 1).pmc 1 f 0).pmc 2 f 1
  match b.bankIn 3 with
  | none => bubble
  | some act =>
    if !b.frondsRun || b.groupState (20 + f % 8) ≠ 0 then bubble
    else match (match b.offer f e.1 prefer with
        | some o => some o
        | none => b.offer f e.2 prefer) with
      | none => bubble
      | some o =>
        let k := b.stampOffer o act
        if b.inGap f k then bubble
        else
          let t := b0.takeOffer f o
          let out := match t.2.bind (fun id => NMap.find? t.1.fd.store id) with
            | some g => (g.outLport, g.outNone)
            | none => (k.outLport, k.outNone)
          let k1 := { k with store := t.2, sec := b.nowSec % 2 ^ 32, ns := b.nowNs, descs := none
                             outLport := out.1, outNone := out.2 }
          if b.layoutDrops k1 then
            let b2 := ((((t.1.frdCount f 7).intRaw (0x10 + f) 5).frdCount f 1).pmc 1 f 0).pmc 2 f 1
            match t.2 with
            | some id => b2.loseEg id
            | none => b2
          else
            let kind : PassKind := if k1.fcsOk then .runs else .badFcs
            let y := t.1.frond f
            let b2 := (t.1.setFrond f { y with lastBank := some k1.bank, lastAt := x.cycle
                                               parser := y.parser ++ [{ pkt := k1, parse := t.1.parseOf k1, kind := kind }] }).frdCount
              f 0
            let b2 := (b2.pmc 1 f 1).pmc 2 f 0
            if k1.fcsOk then b2 else b2.count (CHK.FCS_BAD_LO k1.lport) 3

/-- The disposition that a malformed packet gets, from the register as it stands at the parser exit (R107). -/
def Block.malAction (b : Block) (egress : Bool) (reason : Nat) : PassKind :=
  let a := PRS.MAL_ACTION reason
  let act := b.fld a (if egress then PRS.MAL_ACTION_ACT_EG else PRS.MAL_ACTION_ACT_IN)
  let ring := b.fld a (if egress then PRS.MAL_ACTION_RING_EG else PRS.MAL_ACTION_RING_IN)
  if act = 0 then .dropped else if act = 1 then .punted ring (0xC0 + reason) else .runs

/-- Count what the payload matcher found (R114, PAY registers). -/
def Block.countScan (b : Block) (pay : Option Nat) : Block :=
  match pay with
  | none => b
  | some v =>
    if bitAt v 15 then
      ((b.count PAY.SCANNED_LO 2).countIf (bitAt v 13) PAY.HITS_LO 2).countIf (bitAt v 14) PAY.MULTIS_LO 2
    else b

/-- The containers at frond entry (R67, R68): the intrinsic ones as the device writes them, and those that the parser
wrote. -/
def phvEntry (f : Nat) (p : Pass) : NMap Nat :=
  let k := p.pkt
  let base := p.parse.conts
  let put (m : NMap Nat) (e : Nat × Nat) : NMap Nat := NMap.set 0 m e.1 e.2
  [(0, k.metaW), (1, k.sec * 2 ^ 32 + k.ns),
   (32, k.lport + k.macPort * 2 ^ 8 + f % 8 * 2 ^ 16 + b2n k.noLport * 2 ^ 19),
   (33, k.len % 2 ^ 15), (34, p.parse.word),
   (35, k.epoch % 2 + k.recirc * 2 + b2n k.fromRecirc * 2 ^ 4 + b2n k.inject * 2 ^ 5 + b2n k.egress * 2 ^ 6
        + k.inEpoch * 2 ^ 16),
   (36, 0), (37, 0), (38, if k.egress then k.outLport + b2n k.outNone * 2 ^ 8 else 0), (39, 0)].foldl put base

/-- The parser exit of the oldest packet in a frond's parser: DEPTH_EXCEEDED and MALFORMED are counted, and the packet
enters the frond with what its program or R107 makes of it (R105 to R108).
DESIGN CHOICE, unsafe: log entry 173. -/
def Block.parserExit (b : Block) (f : Nat) : Block :=
  if b.mode.mode = .faultHold then b
  else
    let x := b.frond f
    match x.parser with
    | [] => b
    | p :: rest =>
      let eg := decide (8 ≤ f)
      let b1 := b.setFrond f { x with parser := rest }
      let go (y : Block) (k : PassKind) : Block :=
        let z := y.frond f
        y.setFrond f { z with pinnae := z.pinnae ++ [{ p with kind := k, since := z.cycle, phv := phvEntry f p }] }
      if p.kind ≠ .runs then go b1 p.kind
      else match p.parse.outcome with
        | 1 =>
          let lo := (if eg then PRS.DEPTH_EG_HDR_LO else PRS.DEPTH_IN_HDR_LO) + 8 * p.parse.limit
          go ((b1.count lo 0).countScan p.parse.pay) .runs
        | 2 =>
          let lo := (if eg then PRS.MAL_CNT_EG_LO p.parse.reason else PRS.MAL_CNT_IN_LO p.parse.reason)
          let k := b.malAction eg p.parse.reason
          let b2 := b1.count lo 0
          go (if k = .runs then b2.countScan p.parse.pay else b2) k
        | _ => go (b1.countScan p.parse.pay) .runs

/-- The bits that a program may change of an intrinsic container; all of any other (R67). -/
def rwBits (id : Nat) : Nat :=
  if id = 1 || (32 ≤ id && id ≤ 35) || id = 38 then 0
  else if id = 36 then 7 + (2 ^ 20 - 1) * 2 ^ 8
  else if id = 37 then 31 + 255 * 2 ^ 8
  else if id = 39 then 2 ^ 10 - 1
  else 2 ^ (8 * contBytes id) - 1

/-- The containers after the pinnae: a write reaches a container only through some pinna's WRITE_MASK, and there only the
bits that a program may change (R67, R512). -/
def phvAfter (ds : List (List Byte)) (phv writes : NMap Nat) : NMap Nat :=
  writes.foldl (fun m w =>
    if w.1 < 320 && ds.any (fun d => maskHas d w.1) then
      let old := NMap.get 0 m w.1
      NMap.set 0 m w.1 ((old &&& ((2 ^ (8 * contBytes w.1) - 1) - rwBits w.1)) ||| (w.2 &&& rwBits w.1))
    else m) phv

/-- A packet enters a slice's recirculation path (R85): its run goes on with its stamp. -/
def Block.toRecirc (b : Block) (k : Nat) (p : Pkt) : Block :=
  let r := b.recirc k
  b.setRecirc k { r with path := r.path ++ [p] }

/-- The store of the oldest packet in the path ends: it joins the FIFO, or a full FIFO drops it (R88). Its ARRIVAL rinds
are formed as it enters (R317).
DEDUCED, unsafe: log entry 34. -/
def Block.recircStore (b : Block) (k : Nat) : Block :=
  let r := b.recirc k
  if b.mode.mode = .faultHold then b
  else match r.path with
    | [] => b
    | p :: rest =>
      let held := r.fifo.foldl (fun n q => n + q.bytes.length) 0
      if 64 ≤ r.fifo.length || 0x40000 < held + p.bytes.length then
        (((b.setRecirc k { r with path := rest }).frdCount k 6).intRaw (0x10 + k) 2).drainCheck
      else
        b.setRecirc k { path := rest, fifo := r.fifo ++ [{ p with rinds := arrivalRinds p.lport p.bytes }] }

/-- Every pass of a frond stamped for a bank is to be dropped at hand-off (R82). -/
def Block.markExpired (b : Block) (f n : Nat) : Block :=
  let x := b.frond f
  let m (p : Pass) : Pass := if p.pkt.bank = n then { p with expired := true } else p
  b.setFrond f { x with parser := x.parser.map m, pinnae := x.pinnae.map m }

/-- An egress packet that waits for its later cells, or for its first word to be written, is dropped (R82). -/
def Block.expireStored (b : Block) (f id : Nat) (g : EgPkt) : Block :=
  let x := NMap.get {} b.fd.egf g.outLport
  let b1 := { b with fd := { b.fd with
    egf := NMap.set {} b.fd.egf g.outLport { x with coming := x.coming.filter (fun i => i ≠ id) }
    store := NMap.put b.fd.store id { g with fate := .drop } } }
  (b1.loseEg id).expire f

/-- Drop what is still stamped for a bank: at once in the recirculation path and FIFO of a frond's slice and in the egress packet
store, at hand-off in the frond (R82).
DEDUCED, unsafe: log entry 42. -/
def Block.expireFrond (b : Block) (n f : Nat) : Block :=
  let b1 := ((b.runStore f).filter (fun e => e.2.pass.any (fun p => p.bank = n))).foldl (fun y e => y.expireStored f e.1 e.2) b
  let r := b1.recirc f
  let gone := ((r.path ++ r.fifo).filter (fun p => p.bank = n)).length
  let b2 := if f < 8 then
      (upTo gone).foldl (fun y _ => y.expire f)
        (b1.setRecirc f { path := r.path.filter (fun p => p.bank ≠ n), fifo := r.fifo.filter (fun p => p.bank ≠ n) })
    else b1
  b2.markExpired f n

/-- Drop everything still stamped for a bank (R82, ACTIVATE). -/
def Block.expireBank (b : Block) (n : Nat) : Block := (upTo 16).foldl (fun x f => x.expireFrond n f) b

/-- The drain window closes with packets counted, DRAIN_WINDOW cycles after the swap (R82). -/
def Block.windowClose (b : Block) : Block :=
  match b.bankIn 4 with
  | none => b
  | some n =>
    if b.mode.mode = .faultHold || b.fd.prog.drainLeft ≠ 0 || b.drainTotal = 0 then b
    else (((b.setFld GLB.PROG_DRAIN GLB.PROG_DRAIN_EXPIRY_FIRED 1).event 0 1 6 []).expireBank n).drainCheck

end Sys2Proof.Machine
end

