-- ==== Sys2Proof/Machine/Egress.lean ====
section
/-! DEFINITION. The FD egress packet store and the port egress FIFO (R207 to R214, R286, R319 to R323). -/

namespace Sys2Proof.Machine

/-- One port egress FIFO. -/
def Block.egf (b : Block) (p : Nat) : Egf := NMap.get {} b.fd.egf p

/-- Replace a port egress FIFO. -/
def Block.setEgf (b : Block) (p : Nat) (x : Egf) : Block := { b with fd := { b.fd with egf := NMap.set {} b.fd.egf p x } }

/-- An entry of the egress packet store. -/
def Block.eg (b : Block) (id : Nat) : Option EgPkt := NMap.find? b.fd.store id

/-- Words of 32 bytes that a count of bytes takes. -/
def wordsOf (n : Nat) : Nat := ceilDiv n 32

/-- Bytes of a packet in a port egress FIFO so far. -/
def EgfPkt.bytes (e : EgfPkt) : List Byte := (e.spans.map (fun s => s.bytes)).flatten

/-- Words of a packet in the FIFO that have not left: whole words, and the last one once the packet is complete (R208). -/
def EgfPkt.words (e : EgfPkt) : Nat :=
  let n := e.bytes.length
  (if e.whole then wordsOf n else n / 32) - wordsOf e.sent

/-- Words in a port egress FIFO: packets being discarded hold none. -/
def Egf.words (x : Egf) : Nat := (x.pkts.filter (fun e => !e.discard)).foldl (fun n e => n + e.words) 0

/-- The place of a cell in the egress packet store. -/
def EgPkt.place (e : EgPkt) (idx : Nat) : Place := .bridgeOut e.queue idx e.group e.tag

/-- The verdict on cell `i` of a store entry as it is read (R312, R318). -/
def EgPkt.verdict (e : EgPkt) (i : Nat) (s : Seen) : Verdict :=
  match e.cells[i]? with
  | some c => verify (e.place i) c s
  | none => .clean

/-- The word credits that a packet of PKT_LEN bytes costs at departure (R209). -/
def creditNeed (len : Nat) : Nat := wordsOf len + 8

/-- Remove a packet from a port egress FIFO; what is still to come of it is discarded as it comes, with its credits (R209, R212,
R321). -/
def Block.egfEnd (b : Block) (p : Nat) (e : EgfPkt) : Block :=
  let x := b.egf p
  (b.setEgf p { x with pkts := x.pkts.filter (fun q => q.id ≠ e.id) }).discardEg e.id

/-- End the frame in transmission of a port with an inverted FCS over the bytes sent (R321). -/
def Block.stomp (b : Block) (p : Nat) (e : EgfPkt) : Block :=
  (b.emitOut (.frame p (e.bytes.take e.sent) false)).egfEnd p e

/-- The spans of a later cell as they are written to the FIFO: its payload unchanged, the rind moved (R313, R322). -/
def spanOf (g : EgPkt) (p tag i : Nat) (c : Cell) (failed : Bool) : Span :=
  let pl : Place := .egressFifo p i tag
  let r := c.rind ^^^ rindOf (g.place i) ((g.place i).covered c) ^^^ rindOf pl c.pay
  ⟨c.pay, if failed then ~~~r else r⟩

/-- The bytes of a span that find room in the FIFO; a word without room is a credit violation (R206, R207). -/
def Block.fitSpan (b : Block) (p : Nat) (s : Span) : Block × Span :=
  let x := b.egf p
  let room := x.share * 32 - x.words
  let w := wordsOf s.bytes.length
  if w ≤ room then (b, s)
  else
    let a := LIN.EGF_STS (p / 32) (p % 32)
    let b1 := ((b.setFld a LIN.EGF_STS_VIOL 1).countN (LIN.EGF_VIOL_LO (p / 32) (p % 32)) 19 (w - room)).intRaw
      (0x30 + p / 32) 18
    (b1, { s with bytes := s.bytes.take (32 * room) })

/-- Append a span to a packet of a port egress FIFO. -/
def Block.pushSpan (b : Block) (p id : Nat) (s : Span) (last : Bool) : Block :=
  let t := b.fitSpan p s
  let x := t.1.egf p
  t.1.setEgf p { x with pkts := x.pkts.map (fun e =>
    if e.id = id then { e with spans := e.spans ++ [t.2], whole := last } else e) }

/-- Cells of a packet that have arrived beyond those in the FIFO are written to it, each verified as it is read
(R319). A failing later cell discards the packet's words, or stomps a frame that has begun. -/
def Block.pushCells (b : Block) (p id : Nat) : Nat → Block
  | 0 => b
  | fuel + 1 =>
    match b.eg id, (b.egf p).pkts.find? (fun e => e.id = id) with
    | some g, some e =>
      if e.whole then b
      else match g.cells[e.spans.length]? with
        | none => b
        | some c =>
          let i := e.spans.length
          let v := g.verdict i {}
          if v.bad then
            let b1 := b.chkBridge 5 v g.queue i g.group
            if e.started then b1.stomp p e else b1.egfEnd p e
          else
            Block.pushCells (b.pushSpan p id (spanOf g p e.tag i c false)
              (g.complete && i + 1 = g.cells.length)) p id fuel
    | _, _ => b

/-- The bytes of an egress packet as its pass left them: the rewritten first cell, then the later cells (R210). -/
def EgPkt.rewritten (g : EgPkt) : List Byte := g.head ++ ((g.cells.drop 1).map (fun c => c.pay)).flatten

/-- The length of an egress packet after its pass, from its PKT_LEN and the growth of its first cell. -/
def EgPkt.newLen (g : EgPkt) : Nat :=
  match g.cells with
  | [] => g.head.length
  | c :: _ => g.len - c.pay.length + g.head.length

/-- What a PUNT descriptor says of an egress packet (R417). -/
def egressPunt (k : Pkt) (reason : Nat) (parser copy : Bool) : PuntInfo :=
  { reason := reason, egress := true, parser := parser, copy := copy, noLport := k.noLport, noOut := k.outNone
    lport := k.lport, outLport := k.outLport, epoch := k.epoch, metaW := k.metaW }

/-- The first cell of an entry that fails as it is read for a punt copy or for recirculation (R311, R323). -/
def EgPkt.firstBad (g : EgPkt) : Option (Nat × Verdict) :=
  ((upTo g.cells.length).filterMap (fun i =>
    let v := g.verdict i {}
    if v.bad then some (i, v) else none)).head?

/-- A punt, or a punt copy, of a packet that has arrived whole: every cell is verified as it is read (R323, R417). A packet that
goes to its port stays in the store for that. -/
def Block.settlePunt (b : Block) (id : Nat) (g : EgPkt) (ring reason : Nat) (copy forward parser : Bool) (k : Pkt) : Block :=
  let b1 := match g.firstBad with
    | some (i, v) => b.chkCount 7 v (leBytes 4 g.queue) i
    | none => b.punt ring (egressPunt k reason parser copy) g.rewritten
  b1.setStore id (if forward then some { g with fate := .port } else none)

/-- Carry out what a pass decided once the whole packet has arrived: a drop, a punt or a recirculation, whose later cells are verified
as they are read; a forwarded packet goes on by way of its port (R85, R209, R311, R323, R417). -/
def Block.settle (b : Block) (id : Nat) : Block :=
  match b.eg id with
  | none => b
  | some g =>
    match g.fate with
    | .running => b
    | .port => b.pushCells g.outLport id 64
    | .drop => b.discardEg id
    | .recirc slice =>
      if !g.complete then b
      else match g.pass with
        | none => b.setStore id none
        | some k =>
          match g.firstBad with
          | some (i, v) => (b.setStore id none).chkBridge 5 v g.queue i g.group
          | none => (b.setStore id none).toRecirc slice
              { k with bytes := g.rewritten, len := g.rewritten.length, egress := false, store := none }
    | .punt ring reason copy forward parser =>
      let b0 := if forward then b.pushCells g.outLport id 64 else b
      match b0.eg id, g.pass with
      | some h, some k =>
        if !h.complete then b0
        else b0.settlePunt id h ring reason copy (match h.fate with | .punt _ _ _ fw _ => fw | _ => false) parser k
      | _, _ => b0

/-- Cells of admitted packets at the head of a TD→FD crossing FIFO go to the egress packet store (R55): the packet of a
cell is the one of its group and queue that is still incomplete. -/
def Block.storeCells (b : Block) (g : Nat) : Nat → Block
  | 0 => b
  | fuel + 1 =>
    match wholeCell (b.group 1 g).fifo with
    | none => b
    | some (c, n) =>
      if c.sop then b
      else
        let b1 := b.popChunks 1 g n
        match List.find? (fun (e : Nat × EgPkt) => e.2.group = g && e.2.queue = c.queue && !e.2.complete) b1.fd.store with
        | none => Block.storeCells b1 g fuel
        | some (id, x) =>
          let x' := { x with cells := if x.fate = .drop then x.cells else x.cells ++ [c], complete := c.eop
                             arrived := x.arrived + c.pay.length }
          Block.storeCells ((b1.setStore id (some x')).settle id).drainCheck g fuel

/-- A logical port is down: it is not up, or it is held down (R286). -/
def Block.lportDown (b : Block) (p : Nat) : Bool :=
  b.portHeld p || !b.flag (LIN.LPORT_SPEED (p / 32) (p % 32)) LIN.LPORT_SPEED_UP

/-- The first word of the packet next in line for a port is written into its FIFO (R209, R210): a down port discards it,
growth beyond 256 bytes drops it, and credits that it does not need return. -/
def Block.egfFirstWord (b : Block) (p : Nat) : Block :=
  let x := b.egf p
  if b.mode.mode = .faultHold then b
  else match x.coming with
    | [] => b
    | id :: rest =>
      let b1 := b.setEgf p { x with coming := rest }
      match b1.eg id with
      | none => b1
      | some g =>
        if b1.lportDown p then ((b1.discardEg id).count (LIN.DOWN_DROP_LO (p / 32) (p % 32)) 3).drainCheck
        else if g.len + 256 < g.newLen then
          (((b1.discardEg id).count (LIN.EGF_GROWTH_LO (p / 32) (p % 32)) 19).intRaw (0x30 + p / 32) 17).drainCheck
        else
          let keep := min g.credits (wordsOf g.newLen)
          let b2 := (b1.setStore id (some { g with credits := keep })).refund p (g.credits - keep)
          let y := b2.egf p
          let whole := g.complete && g.cells.length ≤ 1
          let e : EgfPkt := { id := id, spans := [], whole := false, sent := 0, tag := y.tag, started := false
                              discard := false }
          let b3 := b2.setEgf p { y with pkts := y.pkts ++ [e], tag := (y.tag + 1) % 2 ^ 16 }
          let s : Span := ⟨g.head, rindOf (.egressFifo p 0 e.tag) g.head⟩
          ((b3.pushSpan p id s whole).settle id).drainCheck

/-- CUT is in force for a port: its MODE is CUT and the bridge runs at full width (R213). -/
def Block.ctActive (b : Block) (p : Nat) : Bool :=
  b.fld (LIN.EGF_CFG (p / 32) (p % 32)) LIN.EGF_CFG_MODE = 1 && !b.flag BRG.STS BRG.STS_HALF

/-- Transmission of the oldest packet of a port starts (R211). -/
def Block.egfStart (b : Block) (p : Nat) : Block :=
  let x := b.egf p
  if b.mode.mode = .faultHold then b
  else match x.pkts with
    | [] => b
    | e :: rest =>
      let ct := b.fld (LIN.EGF_CFG (p / 32) (p % 32)) LIN.EGF_CFG_CT_WORDS
      if e.started then b
      else if e.whole || (b.ctActive p && ct ≤ e.words) then
        b.setEgf p { x with pkts := { e with started := true } :: rest }
      else b

/-- Byte offsets at which the spans of a packet end. -/
def spanEnds : Nat → List Span → List Nat
  | _, [] => []
  | n, s :: r => (n + s.bytes.length) :: spanEnds (n + s.bytes.length) r

/-- The spans whose last byte lies in bytes `lo` to `hi - 1` of the packet, with their index. -/
def spansEnding (ss : List Span) (lo hi : Nat) : List (Nat × Span) :=
  ((ss.zip (spanEnds 0 ss)).zipIdx.filter (fun e => lo < e.1.2 && e.1.2 ≤ hi)).map (fun e => (e.2, e.1.1))

/-- The bytes of a span changed at packet offsets, as a word of it is read with errors. -/
def flipSpans (fl : List (Nat × Byte)) : Nat → List Span → List Span
  | _, [] => []
  | n, s :: r =>
    let here := (fl.filter (fun f => n ≤ f.1 && f.1 < n + s.bytes.length)).map (fun f => (f.1 - n, f.2))
    { s with bytes := flipBytes s.bytes here } :: flipSpans fl (n + s.bytes.length) r

/-- The verdict on a span as its last byte leaves (R318, R322). -/
def spanVerdict (p tag i : Nat) (s : Span) : Verdict :=
  let computed := rindOf (.egressFifo p i tag) s.bytes
  if s.rind = ~~~computed then .poisoned else if s.rind = computed then .clean else .misplaced

/-- A word of the packet in transmission leaves for the MAC (R209, R212, R322): its bytes may be read with errors. -/
def Block.egfWord (b : Block) (p : Nat) (flips : List (Nat × Byte)) : Block :=
  let x := b.egf p
  if b.mode.mode = .faultHold then b
  else match x.pkts with
    | [] => b
    | e :: rest =>
      if !e.started then b
      else
        let total := e.bytes.length
        if !e.whole && total < e.sent + 32 then
          ((b.stomp p e).count (LIN.EGF_UNDERRUN_LO (p / 32) (p % 32)) 19).intRaw (0x30 + p / 32) 16
        else
          let n := min 32 (total - e.sent)
          let fl := (flips.filter (fun f => f.1 < n)).map (fun f => (f.1 + e.sent, f.2))
          let e1 := { e with spans := flipSpans fl 0 e.spans, sent := e.sent + n }
          let b1 := (b.setEgf p { x with pkts := e1 :: rest }).pmc 4 p n
          let b2 := match b1.eg e.id with
            | some g => if 0 < g.credits
                then (b1.setStore e.id (some { g with credits := g.credits - 1 })).refund p 1 else b1
            | none => b1
          let bads := (spansEnding e1.spans e.sent e1.sent).filterMap (fun s =>
            let v := spanVerdict p e1.tag s.1 s.2
            if v.bad then some (s.1, v) else none)
          let b3 := match bads.head? with
            | some (i, v) => b2.chkCount 6 v [BitVec.ofNat 8 p] i
            | none => b2
          if e1.whole && e1.sent = total then
            (b3.emitOut (.frame p e1.bytes bads.isEmpty)).egfEnd p e1
          else if bads.isEmpty then b3
          else b3.stomp p e1

/-- Word credits reach the TD (R209), but in FAULT-HOLD, in which FIFOs and the scheduler freeze (R214, R242).
DESIGN CHOICE, safe: log entry 62. -/
def Block.creditReturn (b : Block) (p : Nat) : Block :=
  let x := b.egf p
  if b.mode.mode = .faultHold then b else b.setEgf p { x with tdCredits := x.tdCredits + x.owed, owed := 0 }

/-- A new SHARE takes effect when the port's FIFO is empty and no credit is outstanding (R208), but in FAULT-HOLD (R214). -/
def Block.shareApply (b : Block) (p : Nat) : Block :=
  let x := b.egf p
  let s := b.fld (LIN.EGF_CFG (p / 32) (p % 32)) LIN.EGF_CFG_SHARE
  if b.mode.mode ≠ .faultHold && x.pkts.isEmpty && x.coming.isEmpty && x.owed = 0 && x.tdCredits = 32 * x.share then
    b.setEgf p { x with share := s, tdCredits := 32 * s }
  else b

/-- A port goes down: a frame in transmission ends with an inverted FCS, and every packet in its FIFO is discarded and counted (R286).

DEDUCED, unsafe: log entry 89.-/
def Block.egfPortDown (b : Block) (p : Nat) : Block :=
  (b.egf p).pkts.foldl (fun y e =>
    (if e.started then y.stomp p e else y.egfEnd p e).count (LIN.DOWN_DROP_LO (p / 32) (p % 32)) 3) b

/-- A port's FIFO is emptied by a page soft reset (R214): the TD's credits return to the share. -/
def Block.egfReset (b : Block) (p : Nat) : Block :=
  let b1 := (b.egf p).pkts.foldl (fun y e => if e.started then y.stomp p e else y.egfEnd p e) b
  let b2 := (b1.egf p).coming.foldl (fun y id => y.discardEg id) b1
  let b3 := { b2 with fd := { b2.fd with store := b2.fd.store.map (fun (e : Nat × EgPkt) =>
    (e.1, if e.2.outLport = p && e.2.fate = Fate.drop then { e.2 with credits := 0 } else e.2)) } }
  let x := b3.egf p
  (b3.setEgf p { x with pkts := [], coming := [], owed := 0, tdCredits := 32 * x.share }).drainCheck

end Sys2Proof.Machine
end

