-- ==== Sys2Proof/Machine/Queues.lean ====
section
/-! DEFINITION. Queues across sward and peat: records, depth, pools and watermarks (R177 to R188, R203 to R205), and the three
tiers of a queue (R188 to R200). -/

namespace Sys2Proof.Machine

/-- One queue in storage. -/
def Block.queue (b : Block) (q : Nat) : Queue := NMap.get {} b.td.store.queues q

/-- Replace the storage side. -/
def Block.withStore (b : Block) (s : StoreSt) : Block := { b with td := { b.td with store := s } }

/-- Replace a queue in storage. -/
def Block.setQueue (b : Block) (q : Nat) (x : Queue) : Block :=
  b.withStore { b.td.store with queues := NMap.set {} b.td.store.queues q x }

/-- Queues below this number are VOQs (R177). -/
def Block.voqCount (b : Block) : Nat := b.fld QMG.QSPLIT QMG.QSPLIT_VOQ_COUNT

/-- Fields of a queue record: ENABLE, STORE_PROF, DROP_PROF, POOL (R179, R215). -/
def Block.qEnabled (b : Block) (q : Nat) : Bool := bitAt (NMap.get 0 b.td.store.records q) 0
def Block.qStoreProf (b : Block) (q : Nat) : Nat := NMap.get 0 b.td.store.records q / 2 ^ 2 % 2 ^ 8
def Block.qDropProf (b : Block) (q : Nat) : Nat := NMap.get 0 b.td.store.records q / 2 ^ 10 % 2 ^ 6
def Block.qPool (b : Block) (q : Nat) : Nat := NMap.get 0 b.td.store.records q / 2 ^ 16 % 2 ^ 3

/-- A storage profile at reset (R194). -/
def storeProfReset : List Nat := [64 + 64 * 2 ^ 16, 56 + 56 * 2 ^ 16, 0, 1, 0]

/-- A word of a storage profile. -/
def Block.spWord (b : Block) (i w : Nat) : Nat := (NMap.get storeProfReset b.td.store.storeProf i).getD w 0

/-- Fields of the storage profile of a queue (R194). -/
def Block.headCells (b : Block) (q : Nat) : Nat := b.spWord (b.qStoreProf q) 0 % 2 ^ 13
def Block.tailCells (b : Block) (q : Nat) : Nat := b.spWord (b.qStoreProf q) 0 / 2 ^ 16 % 2 ^ 13
def Block.peatEn (b : Block) (q : Nat) : Bool := bitAt (b.spWord (b.qStoreProf q) 0) 31
def Block.prefetchMark (b : Block) (q : Nat) : Nat := b.spWord (b.qStoreProf q) 1 % 2 ^ 13
def Block.spillMark (b : Block) (q : Nat) : Nat := b.spWord (b.qStoreProf q) 1 / 2 ^ 16 % 2 ^ 13
def Block.peatMax (b : Block) (q : Nat) : Nat := b.spWord (b.qStoreProf q) 2
def Block.wmCells (b : Block) (q : Nat) : Nat := b.spWord (b.qStoreProf q) 3
def Block.wmEn (b : Block) (q : Nat) : Bool := bitAt (b.spWord (b.qStoreProf q) 4) 0
def Block.wmFallEn (b : Block) (q : Nat) : Bool := bitAt (b.spWord (b.qStoreProf q) 4) 1

/-- A word of a drop profile. -/
def Block.dpWord (b : Block) (i w : Nat) : Nat := (NMap.get [0, 0, 0, 0, 0, 0, 0, 0] b.td.store.dropProf i).getD w 0

/-- Cells of a block being fetched. -/
def Fetching.count : Fetching → Nat
  | .read .. => 8
  | .relink _ cs _ => cs.length
  | .lost ms => ms.length

/-- Cells of a queue on their way to its head: reads in flight, relinks and lost blocks not yet reached. -/
def Queue.fetchCells (x : Queue) : Nat := x.fetching.foldl (fun n f => n + f.count) 0

/-- Cells of a queue being read from DDR5, which its pool already counts (R186). -/
def Queue.readCells (x : Queue) : Nat :=
  x.fetching.foldl (fun n f => match f with | .read .. => n + 8 | _ => n) 0

/-- Cells of a queue being relinked, which are still in the sward. -/
def Queue.relinkCells (x : Queue) : Nat :=
  x.fetching.foldl (fun n f => match f with | .relink _ cs _ => n + cs.length | _ => n) 0

/-- Cells of a queue being written to the peat. -/
def Queue.writeCells (x : Queue) : Nat := x.writing.foldl (fun n w => n + w.2.length) 0

/-- The depth of R185.
DEDUCED, unsafe: log entry 55. -/
def Queue.depth (x : Queue) : Nat :=
  x.head.length + x.fetchCells + 8 * x.middle.length + x.writeCells + x.tail.length + x.reserved

/-- A queue's cells on the die: the assembly contexts are counted apart. -/
def Queue.onDie (x : Queue) : Nat := x.head.length + x.tail.length + x.writeCells + x.relinkCells

/-- The assembly contexts that hold a packet. -/
def Block.assemblies (b : Block) : List Assembly := b.td.store.assembling.filterMap (fun e => e.2)

/-- A pool's use (R186): on-die cells, assembly contexts included, cells being read back, reserved cells not arrived,
and cells held for retention (R481). -/
def Block.poolUsed (b : Block) (p : Nat) : Nat :=
  let qs := b.td.store.queues.foldl (fun n e => if b.qPool e.1 = p then n + e.2.onDie + e.2.readCells else n) 0
  let held := if b.fld PWR.RET_CFG PWR.RET_CFG_RET_POOL = p then b.fld PWR.RET_USED PWR.RET_USED_CELLS else 0
  b.assemblies.foldl (fun n a => if a.pool = p then n + a.addrs.length + a.left else n) (qs + held)

/-- The register that holds a pool's LIMIT (R186). -/
def poolLimitAddr (p : Nat) : Nat := 0x800200 + 0x10 * p

/-- A pool's LIMIT in cells. -/
def Block.poolLimit (b : Block) (p : Nat) : Nat := b.fld (poolLimitAddr p) QMG.POOL_LIMIT_A_LIMIT

/-- A pool's free cells. -/
def Block.poolFree (b : Block) (p : Nat) : Nat := b.poolLimit p - b.poolUsed p

/-- A pool is under pressure (R187). -/
def Block.pressure (b : Block) (p : Nat) : Bool :=
  b.poolFree p < b.fld (QMG.POOL_PRESS p) QMG.POOL_PRESS_PRESS_FREE

/-- The state of a pool follows a change of its use: PRESSURE, and the watermark of R205. -/
def Block.poolCheck (b : Block) (p : Nat) : Block :=
  let a := QMG.POOL_STS p
  let was := b.flag a QMG.POOL_STS_PRESSURE
  let pr := b.pressure p
  let b1 := (b.setFld a QMG.POOL_STS_PRESSURE (b2n pr)).intRawIf (pr && !was) 0x80 2
  if !b1.flag (QMG.POOL_WM p) QMG.POOL_WM_EN then b1
  else
    let up := b1.fld (QMG.POOL_WM p) QMG.POOL_WM_WM ≤ b1.poolUsed p
    let lvl := b1.flag a QMG.POOL_STS_LEVEL_NOW
    if up && !lvl then
      let b2 := b1.setFld a QMG.POOL_STS_LEVEL_NOW 1
      if b2.flag a QMG.POOL_STS_CROSSED then b2
      else
        let b3 := (b2.setFld a QMG.POOL_STS_CROSSED 1).intRaw 0x80 3
        (b3.withStore { b3.td.store with poolFell := bitOff b3.td.store.poolFell p }).event 0x80 4 3 [BitVec.ofNat 8 p]
    else if !up && lvl then
      let b2 := b1.setFld a QMG.POOL_STS_LEVEL_NOW 0
      if b2.flag (QMG.POOL_WM p) QMG.POOL_WM_FALL_EN && !bitAt b2.td.store.poolFell p
          && b2.flag a QMG.POOL_STS_CROSSED then
        (b2.withStore { b2.td.store with poolFell := bitOn b2.td.store.poolFell p }).event 0x80 4 4 [BitVec.ofNat 8 p]
      else b2
    else b1

/-- The pools follow a change of what they hold (R187, R205). -/
def Block.poolsCheck (b : Block) : Block := (upTo 8).foldl (fun y p => y.poolCheck p) b

/-- The watermark of a queue follows a change of its depth (R203). -/
def Block.wmCheck (b : Block) (q : Nat) : Block :=
  let x := b.queue q
  if !b.wmEn q then b
  else
    let up := b.wmCells q ≤ x.depth
    if up && !x.level then
      if x.crossed then b.setQueue q { x with level := true }
      else (b.setQueue q { x with level := true, crossed := true, fellTold := false }).event 0x80 4 1 (leBytes 4 q)
    else if !up && x.level then
      if b.wmFallEn q && x.crossed && !x.fellTold then
        (b.setQueue q { x with level := false, fellTold := true }).event 0x80 4 2 (leBytes 4 q)
      else b.setQueue q { x with level := false }
    else b

/-- A VOQ beside its destination record (R237). -/
def Block.voq (b : Block) (q : Nat) : Voq := NMap.get {} b.td.sched.voqs q

/-- Replace a VOQ. -/
def Block.setVoq (b : Block) (q : Nat) (v : Voq) : Block :=
  b.withSched { b.td.sched with voqs := NMap.set {} b.td.sched.voqs q v }

/-- A VOQ's destination record: DEST_DEV, DEST_PORT, DEST_CLASS (R237, R243). -/
def Block.voqDev (b : Block) (q : Nat) : Nat := NMap.get 0 b.td.sched.voqRec q % 2 ^ 11
def Block.voqPort (b : Block) (q : Nat) : Nat := NMap.get 0 b.td.sched.voqRec q / 2 ^ 16 % 2 ^ 8
def Block.voqClass (b : Block) (q : Nat) : Nat := NMap.get 0 b.td.sched.voqRec q / 2 ^ 24 % 2 ^ 3

/-- A control message joins those that wait for a destination (R266). -/
def Block.sendControl (b : Block) (dest msg : Nat) : Block :=
  let c := b.td.fab.control
  { b with td := { b.td with fab := { b.td.fab with
      control := NMap.set [] c dest (NMap.get [] c dest ++ [(msg, b.time.elapsed)]) } } }

/-- The request message of a VOQ (R272). -/
def Block.requestMsg (b : Block) (q st : Nat) : Nat :=
  1 * 2 ^ 124 + b.fld KCL.CTL KCL.CTL_DEV_ID * 2 ^ 113 + q * 2 ^ 93 + b.voqPort q * 2 ^ 85 + b.voqClass q * 2 ^ 82
    + st * 2 ^ 80

/-- The request state that a VOQ's NEED calls for (R238). -/
def Block.voqWants (b : Block) (q : Nat) : Nat :=
  let need : Int := (b.queue q).depth * 256 - (b.voq q).balance
  if need ≤ 0 then 0 else if need < b.fld SCH.CREDIT_CFG SCH.CREDIT_CFG_FAST_UNITS * 1024 then 1 else 2

/-- A VOQ notes when its depth becomes 0 (R237), and sends a request at each change of its state (R238). -/
def Block.voqCheck (b0 : Block) (q : Nat) : Block :=
  let v0 := b0.voq q
  let empty := if (b0.queue q).depth = 0 then some (v0.emptyAt.getD b0.ticks) else none
  let b := if empty = v0.emptyAt then b0 else b0.setVoq q { v0 with emptyAt := empty }
  let st := b.voqWants q
  if st = v0.state then b
  else (b.setVoq q { b.voq q with state := st, sentAt := b.ticks }).sendControl (b.voqDev q) (b.requestMsg q st)

/-- Every VOQ's request state follows a change of FAST_UNITS (R238). -/
def Block.voqsCheck (b : Block) : Block :=
  let qs := b.td.store.queues.map (fun e => e.1) ++ b.td.sched.voqs.map (fun e => e.1)
  (qs.eraseDups.filter (· < b.voqCount)).foldl (fun y q => y.voqCheck q) b

/-- The depth of a LINE port: the depths of every egress queue whose path ends at its node (R241). -/
def Block.portDepth (b : Block) (p : Nat) : Nat :=
  b.td.store.queues.foldl (fun n e => if b.voqCount ≤ e.1 && b.pathEnd e.1 = p then n + e.2.depth else n) 0

/-- A grant generator stops and restarts with the depth of its port (R241). -/
def Block.stopCheck (b : Block) (p : Nat) : Block :=
  let g := b.grant p
  let d := b.portDepth p
  if !g.stopped && 64 * b.grantStop p < d then b.setGrant p { g with stopped := true }
  else if g.stopped && d < 64 * b.grantStart p then b.setGrant p { g with stopped := false }
  else b

/-- The grant generators of every port to which a queue in storage leads, or whose generator has run, follow a change of the paths
(R241). -/
def Block.stopChecks (b : Block) : Block :=
  let ps := b.td.store.queues.map (fun e => b.pathEnd e.1) ++ b.td.sched.grants.map (fun e => e.1)
  (ps.eraseDups.filter (· < 256)).foldl (fun y p => y.stopCheck p) b

/-- What follows a change of a queue: A is 0 at depth 0 (R202), the watermarks (R203, R205), a VOQ's request (R238), and the
grants of an egress queue's port (R241). -/
def Block.touch (b : Block) (q : Nat) : Block :=
  let x := b.queue q
  let b1 := if x.depth = 0 && x.avg ≠ 0 then b.setQueue q { x with avg := 0 } else b
  let b2 := (b1.wmCheck q).poolCheck (b1.qPool q)
  if q < b2.voqCount then b2.voqCheck q
  else if b2.pathEnd q < 256 then b2.stopCheck (b2.pathEnd q) else b2

/-- A queue's drop count, 48 bits with a sticky WRAP (R183). -/
def Block.qDrops (b : Block) (q n : Nat) : Block :=
  let x := b.queue q
  b.setQueue q { x with drops := (x.drops + n) % 2 ^ 48, dropWrap := x.dropWrap || decide (2 ^ 48 ≤ x.drops + n) }

/-- The lowest number from `k` on that is not a key of a rising list.
DESIGN CHOICE, unsafe: log entry 56. -/
def firstGap : List Nat → Nat → Nat
  | [], k => k
  | j :: r, k => if j < k then firstGap r k else if j = k then firstGap r (k + 1) else k

/-- The lowest free sward address (the choice of a free cell is the model's). -/
def Block.freeAddr (b : Block) : Nat := firstGap (b.td.store.sward.map (fun e => e.1)) 0

/-- Store a cell in the sward. -/
def Block.swardPut (b : Block) (a : Nat) (c : Cell) : Block :=
  b.withStore { b.td.store with sward := NMap.put b.td.store.sward a c }

/-- Free a sward cell. -/
def Block.swardFree (b : Block) (a : Nat) : Block :=
  b.withStore { b.td.store with sward := NMap.del b.td.store.sward a }

/-- The cell at a sward address. -/
def Block.swardAt (b : Block) (a : Nat) : Cell := (NMap.find? b.td.store.sward a).getD {}

/-- Free several sward cells. -/
def Block.freeSlots (b : Block) (ss : List Slot) : Block := ss.foldl (fun x s => x.swardFree s.addr) b

/-- Free blocks of the peat: those of the channels that have any to give (R195, R356, R363). -/
def Block.peatFree (b : Block) : Nat :=
  let m : List (Nat × List Cell) := b.td.store.peat
  ((upTo 16).filter b.chanGives).foldl (fun s l =>
    s + ((b.peatBlocks + 15 - l) / 16 - (m.filter (fun e => e.1 % 16 = l)).length)) 0

/-- FULL follows the number of free blocks (R199). -/
def Block.peatFullCheck (b : Block) : Block :=
  let full := decide (b.peatFree = 0)
  let was := b.flag PEAT.STS PEAT.STS_FULL
  (b.setFld PEAT.STS PEAT.STS_FULL (b2n full)).intRawIf (full && !was) 0x81 1

/-- The state of a physical channel changes, and with it what the peat can give and what retention takes (R186, R199, R481). -/
def Block.d5Shift (b : Block) (k st : Nat) : Block := ((b.d5To k st).poolsCheck).peatFullCheck

/-- The lowest free block of a logical channel, if it has one: block b lies in channel b mod 16 (R341). -/
def Block.freeBlock (b : Block) (ch : Nat) : Option Nat :=
  let used := (b.td.store.peat.filter (fun e => e.1 % 16 = ch)).map (fun e => e.1 / 16)
  let n := 16 * firstGap used 0 + ch
  if n < b.peatBlocks && b.chanGives ch then some n else none

/-- The next block of a queue: from the first active channel after that of its previous block (R197). -/
def Block.nextBlock (b : Block) (last : Nat) : Option Nat :=
  ((upTo 16).filterMap (fun j => b.freeBlock ((last + 1 + j) % 16))).head?

/-- Put cells into a block of the peat, or free the block. -/
def Block.setPeat (b : Block) (n : Nat) (cs : Option (List Cell)) : Block :=
  (b.withStore { b.td.store with peat := match cs with
    | some l => NMap.put b.td.store.peat n l
    | none => NMap.del b.td.store.peat n }).peatFullCheck

/-- One cell on its way into a queue's head: its marks, its place in the sward if it is there, whether it takes its packet
with it, and whether it is lost with its block (R200, R319). -/
structure HeadCell where
  sop : Bool
  eop : Bool
  slot : Option Slot
  bad : Bool
  lost : Bool
deriving DecidableEq, Repr

/-- A head that empties while the middle holds cells is counted (R192). -/
def Block.starveCheck (b : Block) (q : Nat) : Block :=
  let x := b.queue q
  if x.head.isEmpty && !x.middle.isEmpty then (b.count PEAT.HEAD_STARVE_LO 0).intRaw 0x81 3 else b

/-- The cells of the packet that has begun at the end of a head and not ended: those after its last EOP. -/
def Block.openPart (b : Block) (l : List Slot) : List Slot :=
  (l.reverse.takeWhile (fun s => !(b.swardAt s.addr).eop)).reverse

/-- The part of the packet that has begun in a queue's head is freed at once, the packet counted in the drop count, and its later cells
are freed as they reach the head (R200, R319). -/
def Block.doomOpen (b : Block) (q : Nat) : Block :=
  let x := b.queue q
  let part := b.openPart x.head
  let b1 := (b.freeSlots part).setQueue q { x with head := x.head.take (x.head.length - part.length), dooming := true }
  (if part.isEmpty then b1 else b1.starveCheck q).qDrops q 1

/-- A cell reaches the head; the first of a packet that takes it with it counts the drop (R190, R200, R319).
DEDUCED, unsafe: log entry 192. -/
def Block.reachHead (b : Block) (q : Nat) (h : HeadCell) : Block :=
  let x := b.queue q
  let drop1 (y : Queue) : Queue := { y with packets := if h.eop then y.packets - 1 else y.packets, dooming := !h.eop }
  if x.dooming && !h.sop then
    (match h.slot with
      | some s => b.swardFree s.addr
      | none => b).setQueue q (drop1 x)
  else if h.bad then
    let b1 := if h.sop then b.qDrops q 1 else b.doomOpen q
    let b2 := (match h.slot with
      | some s => b1.swardFree s.addr
      | none => b1).setQueue q (drop1 (b1.queue q))
    if h.lost then b2.count QMG.C_LOST_LO 0 else b2
  else match h.slot with
    | some s => b.setQueue q { x with head := x.head ++ [s], dooming := false }
    | none => b

/-- Relinked and lost blocks at the front of those being fetched go to the head as soon as their turn comes (R190). -/
def Block.flushFetch (b : Block) (q : Nat) : Nat → Block
  | 0 => b
  | fuel + 1 =>
    let x := b.queue q
    match x.fetching with
    | .relink n cs true :: rest =>
      let b1 := (b.setQueue q { x with fetching := rest }).setPeat n none
      let b2 := cs.foldl (fun y s =>
        let c := y.swardAt s.addr
        y.reachHead q ⟨c.sop, c.eop, some s, c.marked, false⟩) (b1.count PEAT.SHORTCUT_LO 0)
      Block.flushFetch b2 q fuel
    | .lost ms :: rest =>
      let b1 := b.setQueue q { x with fetching := rest }
      Block.flushFetch (ms.foldl (fun y m => y.reachHead q ⟨m.1, m.2, none, true, true⟩) b1) q fuel
    | _ => b

/-- With nothing in flight or in the peat, head and tail join and the queue is ONDIE: the tail's cells reach the head (R191). -/
def Block.rejoin (b : Block) (q : Nat) : Block :=
  let x := b.queue q
  if x.spilling && x.fetching.isEmpty && x.middle.isEmpty && x.writing.isEmpty then
    x.tail.foldl (fun y s =>
      let c := y.swardAt s.addr
      y.reachHead q ⟨c.sop, c.eop, some s, c.marked, false⟩) (b.setQueue q { x with spilling := false, tail := [] })
  else b

/-- The head and tail lists of a queue as a spill sees them: an ONDIE queue's list is cut after HEAD_CELLS (R188). -/
def Block.spillView (b : Block) (q : Nat) : List Slot × List Slot :=
  let x := b.queue q
  if x.spilling then (x.head, x.tail) else (x.head.take (b.headCells q), x.head.drop (b.headCells q))

/-- The conditions on which the oldest 8 tail cells are written to the peat, but for a free block (R187, R189). -/
def Block.mustSpill (b : Block) (q : Nat) : Bool :=
  let x := b.queue q
  let mark := if b.pressure (b.qPool q) then 8 else b.spillMark q
  let peatCells := 8 * x.middle.length + x.writeCells + x.fetchCells
  mark ≤ (b.spillView q).2.length && 8 ≤ (b.spillView q).2.length && b.peatEn q
    && (b.peatMax q = 0 || peatCells < b.peatMax q)

/-- Read the cells of a spill from the sward, verify them and form their rinds for the peat; a cell that fails is marked and
written poisoned, and what discards a packet counts once for it (R311, R313, R318, R319). `was` says that the packet of the next cell
has failed; the answer says it of the cell after the last. -/
def Block.spillCells (b : Block) (q blk : Nat) : Nat → Bool → List Slot → List Seen → Block × List Cell × Bool
  | _, was, [], _ => (b, [], was)
  | i, was, s :: ss, seens =>
    let c := b.swardAt s.addr
    let p := Place.sward q s.cseq s.addr
    let v := verify p c (seens.headD {})
    let known := (was && !c.sop) || c.marked
    let c' := { c with marked := c.marked || v.bad }
    let c'' := { c' with rind := rindMove p (.peat q s.cseq i blk) c c' v.bad }
    let b1 := if v.bad && known then b else b.chkCount 2 v (leBytes 4 q) c.idx
    let r := Block.spillCells (b1.swardPut s.addr c') q blk (i + 1) ((known || v.bad) && !c.eop) ss (seens.drop 1)
    (r.1, c'' :: r.2.1, r.2.2)

/-- The SOP and EOP marks of a queue's cells between its head and its tail, oldest first (R188, R196). -/
def Block.midMarks (b : Block) (q : Nat) : List (Bool × Bool) :=
  let x := b.queue q
  let peat (n : Nat) : List (Bool × Bool) := ((NMap.find? b.td.store.peat n).getD []).map (fun c => (c.sop, c.eop))
  let onDie (cs : List Slot) : List (Bool × Bool) := cs.map (fun s => let c := b.swardAt s.addr; (c.sop, c.eop))
  x.fetching.flatMap (fun f => match f with
    | .read n _ => peat n
    | .relink _ cs _ => onDie cs
    | .lost ms => ms) ++ x.middle.flatMap (fun m => peat m.1) ++ x.writing.flatMap (fun w => onDie w.2)

/-- After a spill of `out` from a queue: if a cell failed of the packet that has begun in the head and goes on through every cell in
between, the packet's cells in the head are freed at once (R319). -/
def Block.spillDoom (b : Block) (q : Nat) (between : List (Bool × Bool)) (out : List Slot) : Block :=
  let cs := out.map (fun s => b.swardAt s.addr)
  let first := (cs.takeWhile (fun c => !c.sop))
  let same := match first.findIdx? (fun c => c.eop) with
    | some i => first.take (i + 1)
    | none => first
  if !(b.queue q).dooming && !between.any (fun m => m.2) && same.any (fun c => c.marked)
      && !(b.openPart (b.queue q).head).isEmpty then b.doomOpen q
  else b

/-- The ns that a block's payload takes of a budget in Gbit/s (R195, R198). -/
def budgetGap (gbit : Nat) : Nat := ceilDiv 16384 gbit

/-- Whether a request of queue `q` may go now by a budget, where those of `waits` wait before it: it is the oldest, and the budget has
room for its block (R198).
DESIGN CHOICE, unsafe: log entry 193. -/
def Block.budgetTurn (b : Block) (gbit start : Nat) (waits : List Nat) (q : Nat) : Bool :=
  waits.headD q = q && 0 < gbit && start ≤ b.time.elapsed

/-- The queues whose spill write still waits for the write budget, oldest request first (R198). -/
def Block.writeWaits (b : Block) : List Nat := b.td.store.writeWait.filter b.mustSpill

/-- Blocks after block `n` in the middle that holds it. -/
def Queue.after (x : Queue) (n : Nat) : List Nat :=
  let reads := x.fetching.filterMap (fun f => match f with | .read m _ => some m | _ => none)
  let mids := x.middle.map (fun m => m.1)
  if mids.contains n then (mids.dropWhile (fun m => m ≠ n)).drop 1
  else if reads.contains n then mids else []

/-- Blocks resting in middles are marked lost (R200): LOST_BLOCKS counts them, and the event carries the channel and how many. -/
def Block.markLost (b : Block) (ch : Nat) (blocks : List Nat) : Block :=
  let fresh := blocks.filter (fun n => !b.td.store.lost.contains n)
  if fresh.isEmpty then b
  else
    let b1 := b.withStore { b.td.store with lost := b.td.store.lost ++ fresh }
    let b2 := (b1.countN PEAT.LOST_BLOCKS_LO 0 fresh.length).intRaw 0x81 2
    (b2.setFld PEAT.STS PEAT.STS_LOST_SEEN 1).event 0x80 4 6 ([BitVec.ofNat 8 ch] ++ leBytes 4 fresh.length)

/-- The link-table word of a block answers with an error mark: every block after it in its middle is lost (R347). -/
def Block.linkLost (b : Block) (n : Nat) : Block :=
  let gone := b.td.store.queues.flatMap (fun e => e.2.after n)
  b.markLost (gone.headD 0 % 16) gone

/-- The same of the word at a DDR5 address, where that lies in the link table. -/
def Block.linkWordLost (b : Block) (a : Nat) : Block :=
  if b.linkBase ≤ a && a < b.linkBase + 8 * b.peatBlocks then b.linkLost ((a - b.linkBase) / 8) else b

/-- The link-table word of a block is read when prefetch comes to the block (R196, R347).
DEDUCED, unsafe: log entry 208. -/
def Block.linkRead (b : Block) (n : Nat) : Block :=
  let r := b.d5Seen (b.linkAt n) 8
  if r.2.isEmpty then r.1 else r.1.linkLost n

/-- The link-table word of a block is written, once for its marks and again when a block follows it (R196, R347). -/
def Block.linkWrite (b : Block) (n : Nat) : Block := b.d5Reach (b.linkAt n) 8

/-- A block write begins (R189), or waits for its budget (R198) or a free block (R199): the first moves an ONDIE queue to SPILLING. -/
def Block.spillWrite (b : Block) (q : Nat) (seens : List Seen) : Block :=
  if b.mode.mode = .faultHold || !b.mustSpill q then b
  else
    let ws := b.writeWaits
    let x := b.queue q
    if !b.budgetTurn b.effWrite b.td.store.writeFrom ws q then
      b.withStore { b.td.store with writeWait := if ws.contains q then ws else ws ++ [q] }
    else match b.nextBlock x.lastChan with
    | none => (b.peatFullCheck).eventOnce 0x0405FF 0x80 4 5 []
    | some n =>
      let v := b.spillView q
      let out := v.2.take 8
      let between := b.midMarks q
      let r := b.spillCells q n 0 x.spillBad out seens
      let y := r.1.queue q
      let b1 := r.1.setQueue q { y with spilling := true, head := v.1, tail := v.2.drop 8, spillBad := r.2.2
                                        writing := y.writing ++ [(n, out)], lastChan := n % 16 }
      let b2 := b1.withStore { b1.td.store with writeWait := ws.filter (· ≠ q)
                                                writeFrom := b.time.elapsed + budgetGap b.effWrite }
      ((((b2.setPeat n (some r.2.1)).peatWritten n).linkWrite n).pmc 7 0 1).spillDoom q between out |>.touch q

/-- A block write that had to leave its channel and has found no free block yet is known by a number from here on (R200). -/
def noBlock : Nat := 2 ^ 32

/-- The block number in a write that has not completed, changed where it is `n`. -/
def Queue.renumber (x : Queue) (n n' : Nat) : Queue :=
  { x with writing := x.writing.map (fun w => if w.1 = n then (n', w.2) else w)
           fetching := x.fetching.map (fun f => match f with
             | .relink m cs false => if m = n then .relink n' cs false else f
             | _ => f) }

/-- The block writes of a queue that have not completed, oldest first. -/
def Queue.pendingWrites (x : Queue) : List (Nat × List Slot) :=
  x.fetching.filterMap (fun f => match f with | .relink n cs false => some (n, cs) | _ => none) ++ x.writing

/-- A block write is issued again to a free block of another channel, or waits where there is none (R199, R200). -/
def Block.rewrite (b : Block) (q : Nat) (w : Nat × List Slot) : Block :=
  let b0 := b.setPeat w.1 none
  match b0.nextBlock (w.1 % 16) with
  | none => b0.setQueue q ((b0.queue q).renumber w.1 (if noBlock ≤ w.1 then w.1 else noBlock + w.1))
  | some n =>
    let r := b0.spillCells q n 0 false w.2 []
    let b1 := (r.1.setPeat n (some r.2.1)).setQueue q { (r.1.queue q).renumber w.1 n with lastChan := n % 16 }
    (b1.peatWritten n).linkWrite n

/-- The first relink in a list whose write has not completed is completed. -/
def completeRelink : List Fetching → Option (List Fetching)
  | [] => none
  | .relink n cs false :: r => some (.relink n cs true :: r)
  | f :: r => (completeRelink r).map (fun l => f :: l)

/-- The oldest block write of a queue completes (R189, R190): its sward cells are freed, or relinked onto the head if the
block has been asked for. One that still waits for a block is issued where there is one (R200).
DEDUCED, unsafe: log entry 57. -/
def Block.spillComplete (b : Block) (q : Nat) : Block :=
  let x := b.queue q
  let oldest := x.pendingWrites.headD (0, [])
  if b.mode.mode = .faultHold then b
  else if noBlock ≤ oldest.1 then b.rewrite q oldest
  else
    match completeRelink x.fetching with
    | some l =>
      let b1 := (b.setQueue q { x with fetching := l }).count PEAT.SPILLED_LO 0
      ((b1.flushFetch q (l.length + 1)).rejoin q).touch q
    | none =>
      match x.writing with
      | [] => b
      | (n, cs) :: rest =>
        let first := (cs.headD ⟨0, 0⟩).cseq
        let b1 := b.setQueue q { x with writing := rest, middle := x.middle ++ [(n, first)] }
        let b2 := match x.middle.getLast? with
          | some m => b1.linkWrite m.1
          | none => b1
        ((b2.freeSlots cs).count PEAT.SPILLED_LO 0).touch q

/-- The conditions on which the oldest block is asked for (R190). -/
def Block.mustPrefetch (b : Block) (q : Nat) : Bool :=
  let x := b.queue q
  x.spilling && x.head.length + x.fetchCells ≤ b.prefetchMark q
    && (!x.middle.isEmpty || !x.writing.isEmpty) && 8 ≤ b.poolFree (b.qPool q)

/-- The queues whose read still waits for the read budget, oldest request first (R198). -/
def Block.readWaits (b : Block) : List Nat :=
  b.td.store.readWait.filter (fun q => b.mustPrefetch q && (match (b.queue q).middle with
    | (n, _) :: _ => !b.td.store.lost.contains n && !b.chanHeld (n % 16)
    | [] => false))

/-- A block is asked for (R190, R200): read when the read budget has room (R198), relinked when its write completes, or passed over if
lost. -/
def Block.prefetch (b : Block) (q : Nat) : Block :=
  if b.mode.mode = .faultHold || !b.mustPrefetch q then b
  else
    let x := b.queue q
    match x.middle with
    | (n, c0) :: rest =>
      if b.td.store.lost.contains n then
        let cs := (NMap.find? b.td.store.peat n).getD []
        let b1 := (b.linkRead n).setQueue q { x with middle := rest
                                                     fetching := x.fetching ++ [.lost (cs.map (fun c => (c.sop, c.eop)))] }
        let b2 := (b1.withStore { b1.td.store with lost := b1.td.store.lost.filter (fun m => m ≠ n) }).setPeat n none
        ((b2.flushFetch q (x.fetching.length + 2)).rejoin q).touch q
      else if b.chanHeld (n % 16) then b
      else
        let ws := b.readWaits
        if !b.budgetTurn b.effRead b.td.store.readFrom ws q then
          b.withStore { b.td.store with readWait := if ws.contains q then ws else ws ++ [q] }
        else
          let b1 := b.setQueue q { x with middle := rest, fetching := x.fetching ++ [.read n c0] }
          ((b1.withStore { b1.td.store with readWait := ws.filter (· ≠ q)
                                            readFrom := b.time.elapsed + budgetGap b.effRead }).linkRead n).touch q
    | [] =>
      match x.writing with
      | (n, cs) :: rest => (b.setQueue q { x with writing := rest, fetching := x.fetching ++ [.relink n cs false] }).touch q
      | [] => b

/-- Cells read back from a block go to the head one by one, each verified in its place; what discards a packet counts once for it
(R311, R318, R319). -/
def Block.readCells (b : Block) (q blk : Nat) : Nat → Nat → List Cell → List Seen → Block
  | _, _, [], _ => b
  | i, cs, c :: r, seens =>
    let p := Place.peat q (cs % 2 ^ 16) i blk
    let v := verify p c (seens.headD {})
    let known := (b.queue q).readBad && !c.sop
    let b0 := if v.bad && known then b else b.chkCount 3 v (leBytes 4 q) c.idx
    let b1 := b0.setQueue q { b0.queue q with readBad := (known || v.bad) && !c.eop }
    let a := b1.freeAddr
    let b2 :=
      if v.bad then b1.reachHead q ⟨c.sop, c.eop, none, true, false⟩
      else
        let c' := { c with rind := rindMove p (.sward q (cs % 2 ^ 16) a) c c false }
        (b1.swardPut a c').reachHead q ⟨c.sop, c.eop, some ⟨a, cs % 2 ^ 16⟩, c.marked, false⟩
    Block.readCells b2 q blk (i + 1) (cs + 1) r (seens.drop 1)

/-- The oldest block read of a queue returns (R190). -/
def Block.readComplete (b : Block) (q : Nat) (seens : List Seen) : Block :=
  if b.mode.mode = .faultHold then b
  else
    let x := b.queue q
    match x.fetching with
    | .read n c0 :: rest =>
      if b.chanHeld (n % 16) then b else
      let cells := (NMap.find? b.td.store.peat n).getD []
      let b1 := ((b.setQueue q { x with fetching := rest }).peatRead n).pmc 8 0 1
      let b2 := ((b1.readCells q n 0 c0 cells seens).setPeat n none).count PEAT.FETCHED_LO 0
      ((b2.flushFetch q (x.fetching.length + 1)).rejoin q).touch q
    | _ => b

/-- Block writes of a queue in flight to a lost channel are issued again to another channel (R200). -/
def Block.reissue (b : Block) (ch q : Nat) : Block :=
  (((b.queue q).pendingWrites).filter (fun w => w.1 % 16 = ch)).foldl (fun y w => y.rewrite q w) b

/-- The blocks of a channel that rest in a queue's middle. -/
def Queue.middleOf (x : Queue) (ch : Nat) : List Nat := (x.middle.map (fun m => m.1)).filter (fun n => n % 16 = ch)

/-- A read in flight from a lost channel answers nothing: its block is a lost one in the place where it was asked for. -/
def Block.lostReads (b : Block) (ch q : Nat) : Block :=
  let x := b.queue q
  let f : Fetching → Fetching := fun f => match f with
    | .read n c => if n % 16 = ch then .lost (((NMap.find? b.td.store.peat n).getD []).map (fun y => (y.sop, y.eop))) else .read n c
    | g => g
  let gone := x.fetching.filterMap (fun f => match f with | .read n _ => if n % 16 = ch then some n else none | _ => none)
  if gone.isEmpty then b
  else
    let b1 := gone.foldl (fun y n => y.setPeat n none) (b.setQueue q { x with fetching := x.fetching.map f })
    (((b1.countN PEAT.LOST_BLOCKS_LO 0 gone.length).flushFetch q (x.fetching.length + 1)).rejoin q).touch q

/-- The peat contents of a logical channel are lost (R200): blocks resting in middles are lost, reads in flight answer nothing,
and block writes in flight to it go to another channel. The caller has taken the channel out of use. -/
def Block.losePeat (b : Block) (ch : Nat) : Block :=
  let mids := b.td.store.queues.flatMap (fun e => e.2.middleOf ch)
  let b1 := b.td.store.queues.foldl (fun y e => y.reissue ch e.1) b
  let b2 := b1.td.store.queues.foldl (fun y e => (y.lostReads ch e.1)) b1
  (b2.markLost ch mids).peatFullCheck

/-- The cells of the packet at the head of a queue, up to and with its EOP cell; none if its EOP is not in the head
(R193). -/
def Block.headPacket (b : Block) (q : Nat) : Option (List Slot) :=
  let h := (b.queue q).head
  let body := h.takeWhile (fun s => !(b.swardAt s.addr).eop)
  if body.length < h.length then some (h.take (body.length + 1)) else none


/-- The packet at the head of a queue is dropped whole and counted in the queue's drop count (R319). -/
def Block.dropHeadPacket (b : Block) (q : Nat) : Block :=
  match b.headPacket q with
  | none => b
  | some ss =>
    let x := b.queue q
    let b1 := (b.setQueue q { x with head := x.head.drop ss.length, packets := x.packets - 1, sending := false }).freeSlots ss
    ((b1.qDrops q 1).starveCheck q).touch q

/-- A packet of a queue that has been chosen and of which no cell has left departs no more: its credits come back (R209). -/
def Block.undepart (b : Block) (q : Nat) : Block :=
  (upTo 32).foldl (fun y g =>
    let x := y.group 1 g
    match x.departing.find? (fun d => d.queue = q && d.idx = 0) with
    | none => y
    | some d =>
      let z := y.setGroup 1 g { x with departing := x.departing.filter (fun e => !(e.queue = q && e.idx = 0)) }
      if d.outNone then z else z.refund d.outLport d.credits) b

/-- Every packet and reservation of a queue is discarded, its blocks freed, with its packets counted in its drop count or
not (R42, R214). A packet of which a cell has left has left the queue: the rest of it still departs. -/
def Block.purgeQueue (b0 : Block) (q : Nat) (counts : Bool) : Block :=
  let b := b0.undepart q
  let x := b.queue q
  let leaving := (upTo 32).foldl (fun n g => (b.group 1 g).departing.foldl (fun m d => if d.queue = q then d.left else m) n) 0
  let kept := x.head.take leaving
  let slots := x.head.drop leaving ++ x.tail ++ (x.writing.map (fun w => w.2)).flatten
    ++ (x.fetching.map (fun f => match f with | .relink _ cs _ => cs | _ => [])).flatten
  let blocks := x.middle.map (fun m => m.1) ++ x.writing.map (fun w => w.1)
    ++ x.fetching.filterMap (fun f => match f with
      | .read n _ => some n
      | .relink n _ _ => some n
      | .lost _ => none)
  let rest := b2n (!kept.isEmpty)
  let n := x.packets - rest
  let b1 := (b.freeSlots slots).setQueue q { x with
    spilling := false, head := kept, tail := [], fetching := [], middle := [], writing := [], packets := rest
    sending := !kept.isEmpty, dooming := false, spillBad := false, readBad := false }
  let b2 := blocks.foldl (fun y k => y.setPeat k none) b1
  let b3 := b2.withStore { b2.td.store with lost := b2.td.store.lost.filter (fun m => !blocks.contains m) }
  ((if counts then b3.qDrops q n else b3)).touch q

end Sys2Proof.Machine
end

