-- ==== Sys2Proof/Machine/PmcPass.lean ====
section
/-! DEFINITION. The performance counters as time passes (R437, R438): the cycles of each source's clock, and the sources that offer a
level. -/

namespace Sys2Proof.Machine

/-- The clock of an event's source in MHz (R438): FD core, TD core, a channel's controller at one eighth of its data rate
(R335), or the auxiliary island. -/
def Block.pmcClock (b : Block) (ev : Nat) : Nat :=
  match ev with
  | 0x05 | 0x06 | 0x07 | 0x08 | 0x0B | 0x0D => 1600
  | 0x09 | 0x0A => 600 + 100 * b.d5Cfg D5M.CFG_RATE
  | 0x0E => 100
  | _ => 1350

/-- The level that one instance offers (R438). -/
def Block.pmcAt (b : Block) (ev inst : Nat) : Nat :=
  match ev with
  | 0x05 => (b.queue inst).depth
  | 0x06 => b.poolUsed inst
  | 0x0E => b.groupState inst
  | _ => 0

/-- What the source of counter `n` offers while nothing happens: the level of its instance or the sum over all, and 0 for a
source of happenings (R437, R438). -/
def Block.pmcLevelNow (b : Block) (n : Nat) : Nat :=
  let ev := b.fld (PMC.CFG n) PMC.CFG_EVENT
  if !pmcLevel ev then 0
  else if b.flag (PMC.CFG n) PMC.CFG_ALL then
    match ev with
    | 0x05 => b.td.store.queues.foldl (fun s e => s + e.2.depth) 0
    | 0x06 => (upTo 8).foldl (fun s p => s + b.poolUsed p) 0
    | _ => (upTo 46).foldl (fun s g => s + b.pmcAt ev g) 0
  else b.pmcAt ev (b.fld (PMC.INST n) PMC.INST_INSTANCE)

/-- The cycles of a clock of `f` MHz in the next `n` ns. -/
def Block.cyclesIn (b : Block) (f n : Nat) : Nat := f * (b.time.elapsed + n) / 1000 - f * b.time.elapsed / 1000

/-- `n` ns pass for the performance counters.
DEDUCED, unsafe: log entry 118. -/
def Block.pmcPass (b : Block) (n : Nat) : Block :=
  if b.pmcRuns then
    (upTo 64).foldl (fun x k =>
      let ev := x.fld (PMC.CFG k) PMC.CFG_EVENT
      if x.flag (PMC.CFG k) PMC.CFG_ENABLE && 0 < ev && ev < 0x10 then x.pmcCycles k (x.pmcLevelNow k) (x.cyclesIn (x.pmcClock ev) n)
      else x) b
  else b

/-- A write of `PMCn.CFG`, `INST` or `THRESH`: the count becomes 0, OVF stays, and counting starts anew from what the source
offers (R439). -/
def effPmc (n : Nat) (_w : WriteOut) (_old : Word) (b : Block) : Block :=
  let b1 := (b.setReg (PMC.CNT_LO n) 0#32).setFld (PMC.CNT_HI n) PMC.CNT_HI_CNT 0
  { b1 with cnt := { b1.cnt with prev := NMap.set 0 b1.cnt.prev n (b1.pmcLevelNow n) } }

/-- At T every performance counter is copied into its SNAP pair, OVF included (R435). -/
def Block.pmcSnap (b : Block) : Block :=
  (upTo 64).foldl (fun x n =>
    (x.setReg (PMC.SNAP_LO n) (x.reg (PMC.CNT_LO n))).setReg (PMC.SNAP_HI n) (x.reg (PMC.CNT_HI n))) b

/-- A page soft reset of PMC: counts, OVF bits and SNAP pairs clear; settings stay (R444). -/
def Block.pmcPageReset (b : Block) : Block :=
  let b1 := (upTo 64).foldl (fun x n =>
    (((x.clearReg (PMC.CNT_LO n)).clearReg (PMC.CNT_HI n)).clearReg (PMC.SNAP_LO n)).clearReg (PMC.SNAP_HI n)) b
  { b1 with cnt := { b1.cnt with prev := [] } }

end Sys2Proof.Machine
end

