-- ==== Sys2Proof/Machine/Tick.lean ====
section
/-! DEFINITION. The passing of network time and the tick (R35, R36, R368). -/

namespace Sys2Proof.Machine

/-- One tick in units of 10⁻¹² ns. -/
def tickUnits : Nat := 125000 * 10 ^ 12

/-- FREQ_ADJ as a number (R368). -/
def Block.freqAdj (b : Block) : Int := toSigned 32 (b.reg TMB.FREQ_ADJ).toNat

/-- The share of a slew that `n` domain-45 cycles apply: 100 ppm of each, until nothing remains (R370). -/
def slewShare (left : Int) (n : Nat) : Int := clampInt (-(n * 10 ^ 8 : Nat)) (n * 10 ^ 8 : Nat) left

/-- The drain window runs: 1.35 FD core cycles each ns, but not in FAULT-HOLD, which freezes the pipelines (R82, R43). -/
def Block.drainPass (b : Block) (n : Nat) : Block :=
  if b.fd.prog.drainLeft = 0 || b.mode.mode = .faultHold then b
  else { b with fd := { b.fd with prog := { b.fd.prog with drainLeft := b.fd.prog.drainLeft - 135 * n } } }

/-- `n` domain-45 cycles pass: each adds 1 ns × (1 + FREQ_ADJ × 10⁻¹²) and the share of a slew (R368), and the fabric lanes
go on sending.
DESIGN CHOICE, unsafe: log entry 5.
DESIGN CHOICE, unsafe: log entry 175. -/
def Block.advance (b : Block) (n : Nat) : Block :=
  let sh := slewShare b.time.slewLeft n
  let b := ((b.pmcPass n).d5Pass n).drainPass n
  { b with time := { b.time with
      t := (b.time.t + n * (10 ^ 12 + b.freqAdj) + sh).toNat % (2 ^ 48 * 10 ^ 21)
      slewLeft := b.time.slewLeft - sh
      elapsed := b.time.elapsed + n
      sinceEdge := b.time.sinceEdge.map (· + n) } }.fabPass n

/-- The domain-45 cycles after which network time first reaches `d` units more: the slewed cycles first. -/
def Block.cyclesFor (b : Block) (d : Nat) : Nat :=
  let rate := (10 ^ 12 + b.freqAdj).toNat
  let k := ceilDiv b.time.slewLeft.natAbs (10 ^ 8)
  let fast := if 0 ≤ b.time.slewLeft then rate + 10 ^ 8 else rate - 10 ^ 8
  if d ≤ k * fast then ceilDiv d fast
  else k + ceilDiv (d - (Int.toNat ((k * rate : Nat) + b.time.slewLeft))) rate

/-- The units left to the next tick boundary, strictly after now (R35). -/
def Block.toBoundary (b : Block) : Nat := tickUnits - b.time.t % tickUnits

/-- The TD's follower of network time is corrected: it differs from the master by 2 ns at most (R34). -/
def Block.followerCorrect (b : Block) : Block :=
  { b with td := { b.td with skew := clampInt (-2 * 10 ^ 12) (2 * 10 ^ 12) (Config.followerError b.draws) } }.drawn

/-- The network time, in units, at which an entry of a type comes due: SHAPER_COMMIT executes on the TD, by the follower's time
(R377, R379). -/
def Block.dueAt (b : Block) (type ns : Nat) : Nat :=
  if type = 3 then ((ns * 10 ^ 12 : Nat) - b.td.skew).toNat else ns * 10 ^ 12

/-- Network time reaches `target` by counting, unless a tick boundary lies on the way or the stamp has passed. -/
def Block.reachStamp (b : Block) (target : Nat) : Block :=
  if target ≤ b.time.t then b
  else if b.toBoundary ≤ target - b.time.t then b
  else b.advance (b.cyclesFor (target - b.time.t))

/-- PPS_OUT rises as NS passes 0, for WIDTH × 10 ns, while it is enabled (R375). -/
def Block.ppsOut (b : Block) : Block :=
  if b.flag TMB.PPS_OUT TMB.PPS_OUT_ENABLE then b.emitOut (.ppsPulse (10 * b.fld TMB.PPS_OUT TMB.PPS_OUT_WIDTH)) else b

/-- The measures taken once a tick start anew: reports made once a tick, table moves, rind failures of the bridge and CRC
failures of the fabric lanes (R35). -/
def Block.measuresAnew (b : Block) : Block :=
  let bridge := { b.fd.bridge with rindFails := 0 }
  let b1 := { b with told := [], tbl := { b.tbl with moves := [] }, fd := { b.fd with bridge := bridge } }
  b1.td.fab.lanes.foldl (fun y e => if e.2.crcTick = 0 then y else y.setLane e.1 { e.2 with crcTick := 0 }) b1

/-- What a tick does beyond moving time: TICKS counts it, every per-tick measure starts anew (R35), and the TD's follower is
corrected (R34).
DEDUCED, unsafe: log entry 16. -/
def Block.tickFire (b : Block) : Block :=
  { b.measuresAnew with time := { b.time with fired := b.time.fired + 1 } }.followerCorrect.count TMB.TICKS_LO 3

end Sys2Proof.Machine
end

