-- ==== Sys2Proof/Machine/Timebase.lean ====
section
/-! DEFINITION. The time base: steps and slews (R36, R370), the 1PPS servo and time of day (R371 to R374), and SyncE
outputs (R376). -/

namespace Sys2Proof.Machine

/-- The codes of TMB.STS.STATE (R373). -/
def stFreerun : Nat := 0
def stAcquire : Nat := 1
def stLocked : Nat := 2
def stHoldover : Nat := 3
def stHost : Nat := 4
def stFollow : Nat := 5
def stFollowHold : Nat := 6

/-- The servo's state. -/
def Block.servo (b : Block) : Nat := b.fld TMB.STS TMB.STS_STATE

/-- The servo changes state: `INT_RAW` bit 0 of TMB. -/
def Block.setServo (b : Block) (st : Nat) : Block :=
  if b.servo = st then b
  else
    let b1 := (b.setFld TMB.STS TMB.STS_STATE st).intRaw 4 0
    { b1 with time := { b1.time with goodRun := 0, badRun := 0, bigErrs := [] } }

/-- Store FREQ_ADJ, held within ±1,000,000,000 (R368), and remember it among the last 64 values (R373). -/
def Block.setFreq (b : Block) (adj : Int) : Block :=
  let a := clampInt (-1000000000) 1000000000 adj
  let b1 := b.setReg TMB.FREQ_ADJ (BitVec.ofNat 32 (ofSigned 32 a))
  { b1 with time := { b1.time with adjHist := (a :: b1.time.adjHist).take 64 } }

/-- The mean of the last `n` values of FREQ_ADJ, rounded toward minus infinity. -/
def Block.meanAdj (b : Block) (n : Nat) : Int :=
  let l := b.time.adjHist.take n
  if l.length = 0 then b.freqAdj else l.foldl (· + ·) 0 / (l.length : Int)

/-- Start a slew of `s` ns: it replaces what remains of the one before (R370). -/
def Block.startSlew (b : Block) (s : Int) : Block :=
  { b with time := { b.time with slewLeft := s * 10 ^ 12 } }

/-- The slew in progress has been applied whole: its cycles pass with it, unless a tick boundary lies among them, where the
tick comes first (R35, R370). -/
def Block.slewEnd (b : Block) : Block :=
  if b.time.slewLeft = 0 then b
  else
    let n := ceilDiv b.time.slewLeft.natAbs (10 ^ 8)
    if b.cyclesFor b.toBoundary ≤ n then b
    else b.advance n

/-- The waiting entries of the anchor queue over a step: a forward one marks each stamp it goes past, a backward one makes
an entry wait again (R382). -/
def stepAnchors (t t' : Nat) (l : List Anchor) : List Anchor :=
  l.map (fun e =>
    let u := (e.stampSec * 10 ^ 9 + e.stampNs) * 10 ^ 12
    if t < u && u < t' then { e with passed := true }
    else if t' < u then { e with passed := false }
    else e)

/-- A step of network time to `t'` units: counted, TIME_SET, and one tick at most (R36, R370). Every bucket is brought up to
date on both sides of it (R229).
DEDUCED, unsafe: log entry 149. -/
def Block.stepTo (b : Block) (t' : Nat) : Block :=
  let fires := b.time.t / tickUnits < t' / tickUnits
  let b0 := b.bucketsUp
  let b1 := { b0 with time := { b0.time with t := t' }
                      anchors := stepAnchors b0.time.t t' b0.anchors }.bucketsUp
  let b2 := ((b1.count TMB.STEPS_LO 3).setFld TMB.STS TMB.STS_TIME_SET 1).intRaw 4 1
  if fires then b2.tickFire else b2

/-- A step by a signed number of ns; a time before 0 or past the largest is held at the bound. -/
def Block.stepBy (b : Block) (d : Int) : Block :=
  b.stepTo (clampInt 0 (2 ^ 48 * 10 ^ 21 - 1) ((b.time.t : Int) + d * 10 ^ 12)).toNat

/-- The step that TMB.CTL.STEP asks for, or none where R370 refuses it. -/
def Block.stepTarget (b : Block) : Option Nat :=
  let ns := b.fld TMB.STEP_NS TMB.STEP_NS_NS
  let sec := (b.reg TMB.STEP_SEC_LO).toNat + b.fld TMB.STEP_SEC_HI TMB.STEP_SEC_HI_SEC * 2 ^ 32
  let mag : Int := ((sec * 10 ^ 9 + ns : Nat) : Int) * 10 ^ 12
  let v : Int :=
    if b.flag TMB.CTL TMB.CTL_STEP_REL then
      (b.time.t : Int) + (if b.flag TMB.STEP_SEC_HI TMB.STEP_SEC_HI_SIGN then -mag else mag)
    else mag
  if 10 ^ 9 ≤ ns then none
  else if v < 0 || (2 ^ 48 * 10 ^ 21 : Nat) ≤ v then none
  else some v.toNat

/-- TMB.CTL.STEP (R370): ignored in FOLLOW and FOLLOW_HOLD; a refused step is captured in TMB under R11. -/
def Block.stepCmd (b : Block) (src : Source) : Block :=
  let b1 := b.setFld TMB.CTL TMB.CTL_STEP 0
  if b1.servo = stFollow || b1.servo = stFollowHold then b1
  else match b1.stepTarget with
    | none => b1.captureAt TMB.CTL src 2 1
    | some t' => b1.stepTo t'

/-- The servo follows SERVO_EN: 0 holds HOST, 1 leaves HOST for FREERUN; a following member stays (R373). -/
def Block.servoEn (b : Block) : Block :=
  if b.servo = stFollow || b.servo = stFollowHold then b
  else if b.flag TMB.CTL TMB.CTL_SERVO_EN then (if b.servo = stHost then b.setServo stFreerun else b)
  else b.setServo stHost

/-- Arm the time of day (R372). -/
def Block.todArm (b : Block) : Block := { b with time := { b.time with armedAt := some b.time.elapsed } }

/-- TOD_ARMED clears. -/
def Block.todClear (b : Block) : Block :=
  { b with time := { b.time with armedAt := none } }.setFld TMB.CTL TMB.CTL_TOD_ARM 0

/-- The effect of a write of TMB.CTL: the servo enable, then arming, then a step (R370, R372, R373). -/
def effTmbCtl (src : Source) (w : WriteOut) (_old : Word) (b : Block) : Block :=
  let b1 := b.servoEn
  let b2 := if fldGet TMB.CTL_TOD_ARM w.took = 1 then b1.todArm else b1
  if fldGet TMB.CTL_STEP w.took = 1 then b2.stepCmd src else b2

/-- The effect of a write of SLEW_NS (R370). -/
def effSlew (w : WriteOut) (_old : Word) (b : Block) : Block :=
  if w.codeLsb = none then b.startSlew (toSigned 32 w.took.toNat) else b

/-- The effect of a write of FREQ_ADJ, which only HOST accepts (R373).
DEDUCED, unsafe: log entry 148. -/
def effFreq (w : WriteOut) (_old : Word) (b : Block) : Block :=
  if w.codeLsb = none then b.setFreq (toSigned 32 w.took.toNat) else b

/-- Two seconds have passed since the arming without an edge (R372). -/
def Block.todTimeout (b : Block) : Block :=
  match b.time.armedAt with
  | none => b
  | some t => if t + 2000000000 ≤ b.time.elapsed then ((b.todClear).setFld TMB.STS TMB.STS_TOD_TIMEOUT 1).intRaw 4 2 else b

/-- Fold an error into the range −500,000,000 to +499,999,999 ns (R371). -/
def foldErr (e : Int) : Int := (e + 500000000) % 1000000000 - 500000000

/-- The threshold between a slew and a step, in ns: STEP_THRESH × 100 ns (R374). -/
def Block.stepThresh (b : Block) : Nat := 100 * b.fld TMB.SERVO TMB.SERVO_STEP_THRESH

/-- Slew by −e and correct the rate (R374). -/
def Block.servoApply (b : Block) (e : Int) : Block :=
  (b.startSlew (-e)).setFreq (b.freqAdj - (1000 * e) / (2 ^ b.fld TMB.SERVO TMB.SERVO_KI_SHIFT : Nat))

/-- An accepted edge: counted, its error shown, and the interval since it starts anew (R371). -/
def Block.ppsAccept (b : Block) (e : Int) : Block :=
  let b1 := (b.count TMB.PPS_ACCEPTED_LO 3).setReg TMB.PPS_ERR (BitVec.ofNat 32 (ofSigned 32 e))
  { b1 with time := { b1.time with sinceEdge := some 0, bigErrs := [] } }

/-- A rejected edge is counted (R371). -/
def Block.ppsReject (b : Block) : Block := b.count TMB.PPS_REJECTED_LO 3

/-- Four accepted edges in a row within, or beyond, LOCK_NS change ACQUIRE and LOCKED (R373). -/
def Block.lockRun (b : Block) (e : Int) : Block :=
  let near := e.natAbs ≤ b.fld TMB.SERVO TMB.SERVO_LOCK_NS
  let g := if near then b.time.goodRun + 1 else 0
  let d := if near then 0 else b.time.badRun + 1
  let b1 := { b with time := { b.time with goodRun := g, badRun := d } }
  if b1.servo = stAcquire && 4 ≤ g then b1.setServo stLocked
  else if b1.servo = stLocked && 4 ≤ d then b1.setServo stAcquire
  else b1

/-- Three rejected big errors in a row that agree within 1 µs, the newest given (R374). -/
def agree3 (e : Int) (prev : List Int) : Bool :=
  match prev with
  | p :: q :: _ =>
    (max e (max p q) - min e (min p q)) ≤ 1000
  | _ => false

/-- An edge that no time-of-day load takes, by the servo's state (R373, R374). -/
def Block.ppsServo (b : Block) (e : Int) : Block :=
  let big := b.stepThresh < e.natAbs
  let st := b.servo
  if st = stAcquire then
    if big then ((b.ppsAccept e).stepBy (-e)).lockRun e else ((b.ppsAccept e).servoApply e).lockRun e
  else if st = stLocked || st = stHoldover then
    if big then
      if agree3 e b.time.bigErrs then ((b.ppsAccept e).setServo stAcquire).stepBy (-e)
      else
        let b1 := b.ppsReject
        { b1 with time := { b1.time with bigErrs := (e :: b1.time.bigErrs).take 2 } }
    else
      let b1 := (b.ppsAccept e).servoApply e
      if st = stHoldover then (b1.setServo stAcquire).lockRun e else b1.lockRun e
  else b.ppsAccept e

/-- An accepted edge loads the armed time of day, or finds that it agrees (R372): FREERUN and HOLDOVER go to ACQUIRE (R373). -/
def Block.todEdge (b : Block) (e : Int) (sec delay : Nat) : Block :=
  let armed := (b.reg TMB.TOD_SEC_LO).toNat + b.fld TMB.TOD_SEC_HI TMB.TOD_SEC_HI_SEC * 2 ^ 32
  let b2 := (b.ppsAccept e).todClear
  let b3 := if sec ≠ armed || b.stepThresh < e.natAbs then b2.stepTo ((armed * 10 ^ 9 + delay) * 10 ^ 12) else b2
  let b4 := { b3 with time := { b3.time with todLoaded := true } }.setFld TMB.STS TMB.STS_TIME_SET 1
  if b4.servo = stFreerun || b4.servo = stHoldover then b4.setServo stAcquire else b4

/-- A rising edge of PPS_IN (R371, R372, R374). A member captures its edges and applies none (R389).
DEDUCED, unsafe: log entry 210. -/
def Block.ppsEdge (b : Block) : Block :=
  if !coreOn b.mode.mode then b else
  let ns := b.nowNs
  let sec := b.nowSec
  let b1 := ((b.setReg TMB.PPS_CAP_NS (BitVec.ofNat 32 ns)).setReg TMB.PPS_CAP_SEC_LO (BitVec.ofNat 32 sec)).setReg
    TMB.PPS_CAP_SEC_HI (BitVec.ofNat 32 (sec / 2 ^ 32))
  let early := match b1.time.sinceEdge with
    | none => false
    | some n => n < 900000000
  if early then b1.ppsReject
  else
    let delay := b1.fld TMB.PPS_DELAY TMB.PPS_DELAY_NS
    let e := foldErr ((ns : Int) - delay)
    if b1.time.armedAt.isSome && b1.servo ≠ stFollow && b1.servo ≠ stFollowHold then b1.todEdge e sec delay else b1.ppsServo e

/-- No edge accepted for 2.5 s: ACQUIRE and LOCKED hold over at the mean of the last 16 values (R373). -/
def Block.holdoverEntry (b : Block) : Block :=
  let long := match b.time.sinceEdge with
    | some n => decide (2500000000 ≤ n)
    | none => false
  if long && (b.servo = stAcquire || b.servo = stLocked) then (b.setFreq (b.meanAdj 16)).setServo stHoldover else b

end Sys2Proof.Machine
end

