-- ==== Sys2Proof/Machine/Anchor.lean ====
section
/-! DEFINITION. The anchor queue (R377 to R382) and its coordinated entries (R390), up to the effect of a type. -/

namespace Sys2Proof.Machine

/-- An entry's stamp in whole ns. -/
def Anchor.stamp (e : Anchor) : Nat := e.stampSec * 10 ^ 9 + e.stampNs

/-- The result codes of ANC.STS.RESULT (R378). -/
def ancPosted : Nat := 1
def ancBadEntry : Nat := 2
def ancNotMaster : Nat := 3
def ancTooLate : Nat := 4
def ancFull : Nat := 5
def ancDuplicate : Nat := 6
def ancNoImage : Nat := 7
def ancCancelled : Nat := 8
def ancNotFound : Nat := 9
def ancConfirmed : Nat := 10

/-- The words POST_W0 to W4 as an entry, and whether a reserved bit is set. -/
def Block.postWords (b : Block) : Anchor × Bool :=
  let w0 := (b.reg (ANC.POST_W 0)).toNat
  let w1 := (b.reg (ANC.POST_W 1)).toNat
  let w2 := (b.reg (ANC.POST_W 2)).toNat
  let w3 := (b.reg (ANC.POST_W 3)).toNat
  let w4 := (b.reg (ANC.POST_W 4)).toNat
  ({ stampNs := w0, stampSec := w1 + w2 % 2 ^ 16 * 2 ^ 32, type := w2 / 2 ^ 16 % 16, coord := bitAt w2 20,
     operand := w3, tag := w4 % 2 ^ 16, state := .pending, accepted := 0, needed := 0 },
   w2 / 2 ^ 21 ≠ 0 || w4 / 2 ^ 16 ≠ 0)

/-- A reserved TYPE, an out-of-range stamp, a swap that is not tick-aligned, or an OPERAND with reserved bits (R377, R378). -/
def Anchor.badEntry (e : Anchor) (reservedBits : Bool) : Bool :=
  reservedBits || e.type = 0 || 6 ≤ e.type || 10 ^ 9 ≤ e.stampNs
    || (e.type = 1 && e.stampNs % 125000 ≠ 0)
    || ((e.type = 2 || e.type = 4) && e.operand / 2 ^ 16 ≠ 0)
    || (e.type = 3 && e.operand ≠ 0)

/-- A bank in VERIFIED (2) or RETIRED (5) holds an image: PROG_BANK_STS and PROG_IMAGE_ID show it (R80). -/
def Block.imageHeld (b : Block) (id : Nat) : Bool :=
  let ok (st : Nat) := st = 2 || st = 5
  (ok (b.fld GLB.PROG_BANK_STS GLB.PROG_BANK_STS_BANK0) && (b.reg GLB.PROG_IMAGE_ID0).toNat = id)
    || (ok (b.fld GLB.PROG_BANK_STS GLB.PROG_BANK_STS_BANK1) && (b.reg GLB.PROG_IMAGE_ID1).toNat = id)

/-- The checks of R378 in code order; `asMember` skips NOT_MASTER and takes the lead of 1 µs (R390). -/
def Block.ancCheck (b : Block) (e : Anchor) (reservedBits asMember : Bool) : Nat :=
  let coord := e.coord && !asMember
  let lead := if coord then 1000000 else 1000
  if e.badEntry reservedBits then ancBadEntry
  else if coord && b.mode.role ≠ 1 then ancNotMaster
  else if e.stamp ≤ b.nowTotal + lead then ancTooLate
  else if 256 ≤ b.anchors.length then ancFull
  else if b.anchors.any (fun x => x.tag = e.tag)
      || ((e.type = 1 || e.type = 3) && b.anchors.any (fun x => x.type = e.type))
      || (e.type = 3 && b.flag SCH.SHP_CTL SCH.SHP_CTL_COMMIT) then ancDuplicate
  else if e.type = 1 && !b.imageHeld e.operand then ancNoImage
  else ancPosted

/-- The pending entry with the earliest stamp, ties in TYPE order and then in posting order (R380). -/
def earliest : List Anchor → Option Anchor
  | [] => none
  | e :: r =>
    match earliest r with
    | none => if e.state = .pending then some e else none
    | some m =>
      if e.state = .pending && (e.stamp < m.stamp || (e.stamp = m.stamp && e.type ≤ m.type)) then some e else some m

/-- ANC.STS and NEXT_TAG show the queue as it stands. -/
def Block.ancShow (b : Block) : Block :=
  let b1 := b.setFld ANC.STS ANC.STS_HELD b.anchors.length
  match earliest b.anchors with
  | none => b1.setReg ANC.NEXT_TAG 0#32
  | some e => b1.setReg ANC.NEXT_TAG (BitVec.ofNat 32 (2 ^ 31 + e.tag))

/-- Add an entry at the end of the posting order. -/
def Block.ancAdd (b : Block) (e : Anchor) : Block := { b with anchors := b.anchors ++ [e] }.ancShow

/-- Take an entry out by its TAG. -/
def Block.ancDrop (b : Block) (tag : Nat) : Block :=
  { b with anchors := b.anchors.filter (fun e => e.tag ≠ tag) }.ancShow

/-- ANC.STS.RESULT. -/
def Block.ancResult (b : Block) (r : Nat) : Block := b.setFld ANC.STS ANC.STS_RESULT r

/-- The entry with a TAG. -/
def Block.ancFind (b : Block) (tag : Nat) : Option Anchor := b.anchors.find? (fun e => e.tag = tag)

/-- The pending entry that executes next, where it is of one TYPE: entries execute in stamp order, and those of one stamp in TYPE order
(R380, R382). SHAPER_COMMIT executes on the TD by the follower's time, apart from the others (R379).
DEDUCED, unsafe: log entry 212. -/
def Block.ancDue (b : Block) (type : Nat) : Option Anchor :=
  (earliest (b.anchors.filter (fun e => (e.type = 3) = (type = 3)))).filter (fun e => e.type = type)

/-- LATE of an entry that executes now: more than 1 µs after its stamp, or a forward step went past it (R379, R382). -/
def Block.ancLate (b : Block) (e : Anchor) : Bool := e.passed || e.stamp + 1000 < b.nowTotal

/-- An entry has executed with its block's result: it leaves the queue, counts and sends event 0x01 (R379). -/
def Block.ancExecuted (b : Block) (e : Anchor) (result : Nat) : Block :=
  let late := b.ancLate e
  let b1 := ((b.ancDrop e.tag).count ANC.EXECUTED_LO 3).intRaw 5 0
  let b2 := if late then (b1.count ANC.LATE_LO 3).intRaw 5 1 else b1
  b2.event 5 0x0A 0x01 (leBytes 2 e.tag ++ leBytes 1 e.type ++ leBytes 1 result ++ [BitVec.ofNat 8 (b2n late)])

/-- A type's entry comes due: network time reaches its stamp; in FAULT-HOLD the queue is frozen (R379). `act` is the
block's effect and answers its result. -/
def Block.ancExec (b : Block) (type : Nat) (act : Anchor → Block → Block × Nat) : Block :=
  if b.mode.mode = .faultHold then b
  else
    match b.ancDue type with
    | none => b
    | some e =>
      let due := b.dueAt type e.stamp
      let b1 := b.reachStamp due
      if due ≤ b1.time.t then
        let r := act e b1
        r.1.ancExecuted e r.2
      else b1

/-- MARKER: an ANCHOR event 0x05 and nothing else (R377).
DEDUCED, unsafe: log entry 150. -/
def Block.marker (b : Block) : Block :=
  if b.mode.mode = .faultHold then b
  else
    match b.ancDue 5 with
    | none => b
    | some e =>
      let b1 := b.reachStamp (e.stamp * 10 ^ 12)
      if e.stamp * 10 ^ 12 ≤ b1.time.t then
        let late := b1.ancLate e
        let b2 := ((b1.ancDrop e.tag).count ANC.EXECUTED_LO 3).intRaw 5 0
        let b3 := if late then (b2.count ANC.LATE_LO 3).intRaw 5 1 else b2
        b3.event 5 0x0A 0x05 (leBytes 2 e.tag ++ leBytes 4 e.operand)
      else b1

end Sys2Proof.Machine
end

