-- ==== Sys2Proof/Machine/CushionLink.lean ====
section
/-! DEFINITION. The cascade links: message words (R384), sending and resending, link state (R383), and the device's role
(R385, R386). -/

namespace Sys2Proof.Machine

/-- The link to the device at position `j` (R383). -/
def CscSt.link (c : CscSt) (j : Nat) : CLink :=
  match j with
  | 0 => c.link0
  | 1 => c.link1
  | 2 => c.link2
  | _ => c.link3

/-- Replace a link's state. -/
def CscSt.setLink (c : CscSt) (j : Nat) (l : CLink) : CscSt :=
  match j with
  | 0 => { c with link0 := l }
  | 1 => { c with link1 := l }
  | 2 => { c with link2 := l }
  | _ => { c with link3 := l }

/-- Replace a link's state in the device. -/
def Block.setCLink (b : Block) (j : Nat) (l : CLink) : Block := { b with csc := b.csc.setLink j l }

/-- The TYPE code of a message (R384). -/
def CMsg.type : CMsg → Nat
  | .hello .. => 1
  | .timeSync _ => 2
  | .delayReq _ => 3
  | .delayResp .. => 4
  | .prepare .. => 5
  | .accept _ => 6
  | .refuse .. => 7
  | .confirm _ => 8
  | .abandon _ => 9
  | .learn .. => 10
  | .bad t => t.toNat

/-- A time of day as the low 80 bits of a payload. -/
def stampBits (s : Stamp) : Nat := s.sec.toNat * 2 ^ 32 + s.ns.toNat

/-- The payload field of a message, bits 215:0 (R384). -/
def CMsg.payload : CMsg → Nat
  | .hello e m p s => b2n e * 2 ^ 213 + b2n m * 2 ^ 212 + b2n p * 2 ^ 211 + s.toNat * 2 ^ 207
  | .timeSync t => stampBits t
  | .delayReq t => stampBits t
  | .delayResp t l => stampBits t + l.toNat * 2 ^ 80
  | .prepare t ty op tag => stampBits t + ty.toNat * 2 ^ 80 + op.toNat * 2 ^ 84 + tag.toNat * 2 ^ 116
  | .accept tag => tag.toNat
  | .refuse tag r => tag.toNat + r.toNat * 2 ^ 16
  | .confirm tag => tag.toNat
  | .abandon tag => tag.toNat
  | .learn s k v t a => s.toNat + k.toNat * 2 ^ 32 + v.toNat * 2 ^ 96 + t.toNat * 2 ^ 116 + b2n a * 2 ^ 119
  | .bad _ => 0

/-- The 32 bytes of a message, network byte order (R384). -/
def cascadeBytes (src dst lseq ack : Nat) (m : CMsg) : List Byte :=
  beBytes 32 (m.type * 2 ^ 252 + src * 2 ^ 250 + dst * 2 ^ 248 + lseq * 2 ^ 232 + ack * 2 ^ 216 + m.payload)

/-- Network time as a stamp of a message. -/
def Block.nowStamp (b : Block) : Stamp := ⟨BitVec.ofNat 48 b.nowSec, BitVec.ofNat 32 b.nowNs⟩

/-- A stamp in whole ns. -/
def Stamp.total (s : Stamp) : Nat := s.sec.toNat * 10 ^ 9 + s.ns.toNat

/-- This device's cushion position. -/
def Block.myPos (b : Block) : Nat := b.fld CSC.CTL CSC.CTL_POS

/-- The cascade macro runs: the core is on and the mode is not FAULT-HOLD (R387). -/
def Block.cascadeOn (b : Block) : Bool := coreOn b.mode.mode && decide (b.mode.mode ≠ .faultHold)

/-- Put a message of given LSEQ on a link: messages alternate between its up lanes (R384). -/
def Block.cscOut (b : Block) (j lseq : Nat) (m : CMsg) : Block :=
  let l := b.csc.link j
  let up := b.fld (CSC.LINK_STS j) CSC.LINK_STS_LANES_UP
  let lane := if up = 1 then 0 else if up = 2 then 1 else l.turn
  (b.setCLink j { l with turn := 1 - lane }).emitOut (.cascade j lane (cascadeBytes b.myPos j lseq ((l.nextIn + 65535) % 65536) m))

/-- Send a message: it takes the link's next LSEQ and is kept until acknowledged (R384). -/
def Block.cscSend (b : Block) (j : Nat) (m : CMsg) : Block :=
  if b.cascadeOn && 0 < b.fld (CSC.LINK_STS j) CSC.LINK_STS_LANES_UP then
    let l := b.csc.link j
    (b.setCLink j { l with nextOut := (l.nextOut + 1) % 65536,
                           window := l.window ++ [⟨l.nextOut, j, m, 0, b.time.elapsed⟩] }).cscOut j l.nextOut m
  else b

/-- An acknowledgement releases every kept message up to it, in the 16-bit order of LSEQ (R384). -/
def CLink.acked (l : CLink) (ack : Nat) : CLink :=
  { l with window := l.window.filter (fun m => 32768 ≤ (ack + 65536 - m.lseq) % 65536) }

/-- The positions linked, as SEEN bits. -/
def Block.seen (b : Block) : Nat := b.fld CSC.STS CSC.STS_SEEN

/-- A link's UP follows its lanes and its HELLO; a change shows in SEEN and sends CASCADE event 0x02 (R383). A link that
goes down forgets what it sent and restarts its sequence. -/
def Block.linkShow (b : Block) (j : Nat) : Block :=
  let up := 0 < b.fld (CSC.LINK_STS j) CSC.LINK_STS_LANES_UP && b.flag (CSC.LINK_STS j) CSC.LINK_STS_HELLO_SEEN
  if up = b.flag (CSC.LINK_STS j) CSC.LINK_STS_UP then b
  else
    let b1 := (b.setFld (CSC.LINK_STS j) CSC.LINK_STS_UP (b2n up)).setFld CSC.STS CSC.STS_SEEN
      (if up then bitOn b.seen j else bitOff b.seen j)
    let b2 := if up then b1 else b1.setCLink j {}
    (b2.intRaw 6 1).event 6 0x0B 0x02 [BitVec.ofNat 8 j]

/-- Take a link down: no HELLO counts as seen until the next one. -/
def Block.linkDown (b : Block) (j : Nat) : Block :=
  (b.setFld (CSC.LINK_STS j) CSC.LINK_STS_HELLO_SEEN 0).linkShow j

/-- Resend the message that has waited longest for its acknowledgement, 4 µs or more; the 16th resend of one takes the link down
(R384). -/
def Block.cscResend (b : Block) (j : Nat) : Block :=
  if !b.cascadeOn then b
  else
    match (b.csc.link j).window with
    | [] => b
    | m0 :: r0 =>
      let m := r0.foldl (fun x y => if y.sentAt < x.sentAt then y else x) m0
      if b.time.elapsed < m.sentAt + 4000 || b.fld (CSC.LINK_STS j) CSC.LINK_STS_LANES_UP = 0 then b
      else
        let b1 := b.count CSC.RETRANSMIT_LO 5
        let l := b1.csc.link j
        let m' := { m with resends := m.resends + 1, sentAt := b.time.elapsed }
        let b2 := (b1.setCLink j { l with window := l.window.map (fun x => if x.lseq = m.lseq then m' else x) }).cscOut j m.lseq m.msg
        if 16 ≤ m.resends + 1 then (b2.count CSC.LINK_DOWN_LO 5).linkDown j else b2

/-- The codes of AUX.MODE_STS.CASCADE_ROLE. -/
def roleStandalone : Nat := 0
def roleMaster : Nat := 1
def roleMember : Nat := 2

/-- The device's role changes: CASCADE event 0x01 and cause 0 of CSC; a device that stops following goes back to HOST or
FREERUN (R373, R385). -/
def Block.setRole (b : Block) (r : Nat) : Block :=
  if b.mode.role = r then b
  else
    let b1 := { b with mode := { b.mode with role := r } }
    let b2 := (b1.intRaw 6 0).event 6 0x0B 0x01 [BitVec.ofNat 8 r]
    if r = roleMember then b2
    else if b2.servo = stFollow || b2.servo = stFollowHold then
      b2.setServo (if b2.flag TMB.CTL TMB.CTL_SERVO_EN then stFreerun else stHost)
    else b2

/-- The master is present at position `j`: a member follows it, or holds over while it shows PAUSED (R373, R386). -/
def Block.masterSeen (b : Block) (j : Nat) (paused : Bool) : Block :=
  let b1 := { b with csc := { b.csc with masterPos := some j } }
  let b2 := (b1.setFld CSC.STS CSC.STS_MASTER_VALID 1).setFld CSC.STS CSC.STS_PAUSED (b2n paused)
  if b2.mode.role = roleMember then
    if paused then
      if b2.servo = stFollowHold then b2 else (b2.setFreq (b2.meanAdj 64)).setServo stFollowHold
    else b2.setServo stFollow
  else b2

/-- A write of CSC.CTL (R385): without JOIN the device is standalone; with JOIN it is a member once an UP link shows a
master. -/
def Block.joinWrite (b : Block) : Block :=
  if !b.flag CSC.CTL CSC.CTL_JOIN then
    ({ b with csc := { b.csc with masterPos := none, joinAt := none } }.setFld CSC.STS CSC.STS_MASTER_VALID 0).setRole roleStandalone
  else
    match (List.range 4).find? (fun j => b.flag (CSC.LINK_STS j) CSC.LINK_STS_UP && (b.csc.link j).farMaster) with
    | some j => (b.setRole roleMember).masterSeen j (b.csc.link j).farPaused
    | none => { b with csc := { b.csc with joinAt := some b.time.elapsed } }

/-- A linked device at a lower position is ELIGIBLE (R385). -/
def Block.lowerEligible (b : Block) : Bool :=
  (List.range 4).any (fun j => j < b.myPos && b.flag (CSC.LINK_STS j) CSC.LINK_STS_UP && (b.csc.link j).farEligible)

/-- With no master in sight: master if ELIGIBLE and lowest, else a member without a master, whose rate is held (R373, R385). -/
def Block.elect (b : Block) : Block :=
  if !b.flag CSC.CTL CSC.CTL_JOIN || b.csc.masterPos.isSome || b.mode.role = roleMaster then b
  else if b.flag CSC.CTL CSC.CTL_ELIGIBLE && !b.lowerEligible then
    ({ b with csc := { b.csc with nextSeq := ((b.reg CSC.SYNC_SEQ).toNat + 1) % 2 ^ 32 } }.setFld
      CSC.STS CSC.STS_MASTER_VALID 1).setRole roleMaster
  else
    let b1 := b.setRole roleMember
    (if b1.servo = stFollowHold then b1 else b1.setFreq (b1.meanAdj 64)).setServo stFollowHold

/-- Two ms after JOIN (R385).
DEDUCED, unsafe: log entry 211. -/
def Block.election (b : Block) : Block :=
  match b.csc.joinAt with
  | some t => if t + 2000000 ≤ b.time.elapsed then { b with csc := { b.csc with joinAt := none } }.elect else b
  | none => b

/-- No HELLO with MASTER = 1 for 1 ms, or PAUSED for more than 10 s (R386). -/
def CLink.masterGone (l : CLink) (now : Nat) : Bool :=
  l.masterAt + 1000000 ≤ now || (match l.pausedFrom with
    | some t => decide (t + 10000000000 < now)
    | none => false)

/-- The member's master is lost (R386): hold over, and the lowest ELIGIBLE device still linked becomes master. A linked
device that still sees the lost master shows that the cushion has split. -/
def Block.masterLoss (b : Block) : Block :=
  match b.csc.masterPos with
  | none => b
  | some p =>
    if b.mode.role ≠ roleMember || !(b.csc.link p).masterGone b.time.elapsed then b
    else
      let l := b.csc.link p
      let b1 := { b with csc := { b.csc with masterPos := none }.setLink p { l with farMaster := false } }
      let b2 := ((b1.setFld CSC.STS CSC.STS_MASTER_VALID 0).setFld CSC.STS CSC.STS_PAUSED 0).intRaw 6 2
      let b3 := b2.event 6 0x0B 0x03 [BitVec.ofNat 8 p]
      let split := (List.range 4).any (fun j => j ≠ p && b3.flag (CSC.LINK_STS j) CSC.LINK_STS_UP
        && bitAt (b3.csc.link j).farSeen p)
      let b4 := if split then
          ((b3.setFld CSC.STS CSC.STS_SPLIT 1).intRaw 6 3).event 6 0x0B 0x04 [BitVec.ofNat 8 b3.seen]
        else b3
      let b5 := (if b4.servo = stFollowHold then b4 else b4.setFreq (b4.meanAdj 64)).setServo stFollowHold
      b5.elect

/-- A lane of a cascade link comes up or goes down: the link now has `lanes` up (R383). -/
def Block.cscLanes (b : Block) (j lanes : Nat) : Block :=
  if b.cascadeOn then (b.setFld (CSC.LINK_STS j) CSC.LINK_STS_LANES_UP lanes).linkShow j else b

/-- Every 10 µs a HELLO goes out on a link, while it has a lane up (R384, R387). -/
def Block.cscHello (b0 : Block) (j : Nat) : Block :=
  let l := b0.csc.link j
  let early := match l.helloAt with
    | some t => decide (b0.time.elapsed < t + 10000)
    | none => false
  if early || !b0.cascadeOn then b0
  else
  let b := b0.setCLink j { l with helloAt := some b0.time.elapsed }
  b.cscSend j (.hello (b.flag CSC.CTL CSC.CTL_ELIGIBLE) (b.mode.role = roleMaster)
    (b.mode.role = roleMaster && decide (b.mode.mode = .handover)) (BitVec.ofNat 4 b.seen))

/-- Send one message to each linked position other than this one. -/
def Block.cscToAll (b : Block) (m : CMsg) : Block :=
  (List.range 4).foldl (fun b j => if bitAt b.seen j && j ≠ b.myPos then b.cscSend j m else b) b

/-- The master's duties run: role master, and not HANDOVER (R387, R471). -/
def Block.masterRuns (b : Block) : Bool := b.mode.role = roleMaster && decide (b.mode.mode ≠ .handover) && b.cascadeOn

/-- At every tick the master sends TIME_SYNC to each member (R388). -/
def Block.timeSyncSend (b : Block) : Block :=
  if b.masterRuns && b.csc.syncTick ≠ some b.ticks then
    { b with csc := { b.csc with syncTick := some b.ticks } }.cscToAll (.timeSync b.nowStamp)
  else b

/-- TIME_SYNC arrives at a member: keep t1 and t2, and answer with DELAY_REQ (R388). -/
def Block.onTimeSync (b : Block) (j : Nat) (t1 : Stamp) : Block :=
  if b.mode.role = roleMember && b.csc.masterPos = some j then
    let b1 := { b with csc := { b.csc with t1 := t1.total, t2 := b.nowTotal, t3 := b.nowTotal,
                                           reqSeq := (b.csc.link j).nextOut } }
    b1.cscSend j (.delayReq b.nowStamp)
  else b

/-- DELAY_REQ arrives at the master: return its arrival time (R388). -/
def Block.onDelayReq (b : Block) (j : Nat) (lseq : BitVec 16) : Block :=
  if b.masterRuns then b.cscSend j (.delayResp b.nowStamp lseq) else b

/-- TIME_OK follows 64 good ticks, and 8 bad ones clear it (R389). -/
def Block.timeOk (b : Block) (th : Int) : Block :=
  let near := th.natAbs ≤ 10
  let g := if near then b.csc.goodTicks + 1 else 0
  let d := if near then 0 else b.csc.badTicks + 1
  let b1 := { b with csc := { b.csc with goodTicks := g, badTicks := d } }
  if 64 ≤ g then b1.setFld CSC.STS CSC.STS_TIME_OK 1
  else if 8 ≤ d then b1.setFld CSC.STS CSC.STS_TIME_OK 0
  else b1

/-- DELAY_RESP arrives: the member computes θ and steps, or slews and corrects its rate (R388). -/
def Block.onDelayResp (b : Block) (j : Nat) (t4 : Stamp) (lseq : BitVec 16) : Block :=
  if b.mode.role = roleMember && b.csc.masterPos = some j && lseq.toNat = b.csc.reqSeq then
    let c := b.csc
    let th : Int := (((c.t2 : Int) - c.t1) - ((t4.total : Int) - c.t3)
      - toSigned 32 (b.reg (CSC.ASYM j)).toNat) / 2
    let b1 := (b.setReg CSC.OFFSET (BitVec.ofNat 32 (ofSigned 32 th))).timeOk th
    if 1000 < th.natAbs then (b1.stepBy (-th)).event 6 0x0B 0x06 (leBytes 4 (ofSigned 32 th))
    else (b1.startSlew (-th)).setFreq
      (b1.freqAdj - (8000000 * th) / (2 ^ b1.fld CSC.CTL CSC.CTL_FOLLOW_SHIFT : Nat))
  else b

/-- Replace the state and acceptances of the entry with a TAG. -/
def Block.ancUpdate (b : Block) (tag : Nat) (f : Anchor → Anchor) : Block :=
  { b with anchors := b.anchors.map (fun (e : Anchor) => if e.tag = tag then f e else e) }.ancShow

/-- The message that carries an entry to the members (R390). -/
def prepareMsg (e : Anchor) : CMsg :=
  .prepare ⟨BitVec.ofNat 48 e.stampSec, BitVec.ofNat 32 e.stampNs⟩ (BitVec.ofNat 4 e.type)
    (BitVec.ofNat 32 e.operand) (BitVec.ofNat 16 e.tag)

/-- Every member has accepted: CONFIRM to each, and the master's own entry is pending (R390). -/
def Block.confirmIfAll (b : Block) (tag : Nat) : Block :=
  match b.ancFind tag with
  | none => b
  | some e =>
    if e.state = .held && b.masterRuns && e.accepted &&& e.needed = e.needed then
      (b.cscToAll (.confirm (BitVec.ofNat 16 tag))).ancUpdate tag (fun x => { x with state := .pending })
    else b

/-- The master abandons a coordinated entry: ABANDON to each, and ANCHOR event 0x03 names the position (R390). -/
def Block.abandonEntry (b : Block) (tag pos : Nat) : Block :=
  let b1 := (b.cscToAll (.abandon (BitVec.ofNat 16 tag))).ancDrop tag
  let b2 := ((b1.count ANC.ABANDONED_LO 3).count CSC.ABANDONED_LO 5).intRaw 5 2
  b2.event 5 0x0A 0x03 (leBytes 2 tag ++ leBytes 1 pos)

/-- POST (R378, R390). -/
def Block.ancPost (b : Block) : Block :=
  let b0 := b.setFld ANC.CMD ANC.CMD_POST 0
  let pw := b0.postWords
  let e := pw.1
  let r := b0.ancCheck e pw.2 false
  let b1 := b0.ancResult r
  if r ≠ ancPosted then b1
  else if !e.coord then b1.ancAdd e
  else
    let b2 := b1.ancAdd { e with state := .held, needed := bitOff b1.seen b1.myPos }
    (if b2.masterRuns then b2.cscToAll (prepareMsg e) else b2).confirmIfAll e.tag

/-- CANCEL (R378, R381): a waiting entry ends with event 0x02; a coordinated entry can be withdrawn only on the master
and only while it is held. -/
def Block.ancCancel (b : Block) : Block :=
  let tag := (b.reg (ANC.POST_W 4)).toNat % 2 ^ 16
  let b0 := b.setFld ANC.CMD ANC.CMD_CANCEL 0
  match b0.ancFind tag with
  | none => b0.ancResult ancNotFound
  | some e =>
    if e.coord && !(e.state = .held && b0.mode.role = roleMaster) then b0.ancResult ancConfirmed
    else
      let b1 := if e.coord then b0.cscToAll (.abandon (BitVec.ofNat 16 tag)) else b0
      (((b1.ancDrop tag).count ANC.CANCELLED_LO 3).ancResult ancCancelled).event 5 0x0A 0x02 (leBytes 2 tag)

/-- The effect of a write of ANC.CMD: POST, then CANCEL.
DEDUCED, unsafe: log entry 151. -/
def effAncCmd (w : WriteOut) (_old : Word) (b : Block) : Block :=
  let b1 := if fldGet ANC.CMD_POST w.took = 1 then b.ancPost else b
  if fldGet ANC.CMD_CANCEL w.took = 1 then b1.ancCancel else b1

/-- PREPARE arrives at a member: checked as a post of its own, held, and answered (R390). -/
def Block.onPrepare (b : Block) (j : Nat) (t : Stamp) (type operand tag : Nat) : Block :=
  if b.mode.role ≠ roleMember then b
  else
    let e : Anchor := { stampNs := t.ns.toNat, stampSec := t.sec.toNat, type := type, coord := true,
                        operand := operand, tag := tag, state := .held, accepted := 0, needed := 0 }
    let r := b.ancCheck e false true
    if r = ancPosted then (b.ancAdd e).cscSend j (.accept (BitVec.ofNat 16 tag))
    else b.cscSend j (.refuse (BitVec.ofNat 16 tag) (BitVec.ofNat 8 r))

/-- ACCEPT arrives at the master (R390). -/
def Block.onAccept (b : Block) (j tag : Nat) : Block :=
  if b.masterRuns then
    (b.ancUpdate tag (fun e => { e with accepted := bitOn e.accepted j })).confirmIfAll tag
  else b

/-- REFUSE arrives at the master (R390). -/
def Block.onRefuse (b : Block) (j tag : Nat) : Block :=
  match b.ancFind tag with
  | none => b
  | some e => if b.masterRuns && e.state = .held then b.abandonEntry tag j else b

/-- CONFIRM arrives at a member: its entry is pending (R390). -/
def Block.onConfirm (b : Block) (tag : Nat) : Block :=
  if b.mode.role = roleMember then b.ancUpdate tag (fun e => { e with state := .pending }) else b

/-- ABANDON arrives at a member: a held entry goes (R390). -/
def Block.onAbandon (b : Block) (tag : Nat) : Block :=
  match b.ancFind tag with
  | none => b
  | some e => if e.state = .held then b.ancDrop tag else b

/-- The acceptances are not complete by the stamp − 500 µs (R390). -/
def Block.coordDeadline (b : Block) (tag : Nat) : Block :=
  match b.ancFind tag with
  | none => b
  | some e =>
    if e.state = .held && b.mode.role = roleMaster && b.mode.mode ≠ .faultHold && e.stamp ≤ b.nowTotal + 500000 then
      match (List.range 4).find? (fun j => bitAt e.needed j && !bitAt e.accepted j) with
      | some j => b.abandonEntry tag j
      | none => b
    else b

/-- A member's entry that is not confirmed is removed (R390). -/
def Block.unconfirm (b : Block) (tag : Nat) : Block :=
  match b.ancFind tag with
  | none => b
  | some e =>
    if e.state = .held && b.mode.role ≠ roleMaster then
      ((b.ancDrop tag).intRaw 5 2).event 5 0x0A 0x04 (leBytes 2 tag)
    else b

/-- A member still holds an unconfirmed entry at the stamp − 250 µs (R390); in FAULT-HOLD the queue is frozen (R393). -/
def Block.unconfirmed (b : Block) (tag : Nat) : Block :=
  match b.ancFind tag with
  | none => b
  | some e => if b.mode.mode ≠ .faultHold && e.stamp ≤ b.nowTotal + 250000 then b.unconfirm tag else b

end Sys2Proof.Machine
end

