-- ==== Sys2Proof/Machine/Tables.lean ====
section
/-! DEFINITION. The table SRAM (R118 to R122): the partition, the regions of an image, the words of a table, exact-match
buckets (R128 to R131), and every write of the table engine with its shadow digest (R132, R144). -/

namespace Sys2Proof.Machine

/-- Replace the state of the table SRAM and its engines. -/
def Block.withTbl (b : Block) (t : TblSt) : Block := { b with tbl := t }

/-- A TABLE_REGIONS record (R121), with its index. -/
structure Region where
  idx : Nat
  id : Nat
  kind : Nat
  copy : Nat
  level : Nat
  quad : Nat
  first : Nat
  len : Nat
  layout : Nat
  /-- the reserved bits of the record -/
  res : Nat
deriving DecidableEq, Repr

/-- Read a TABLE_REGIONS record (R121). -/
def region (i : Nat) (r : List Byte) : Region :=
  let cl := leAt r 2 1
  let pl := leAt r 3 1
  let base := leAt r 4 4
  let ln := leAt r 8 4
  ⟨i, leAt r 0 2, cl % 8, pl % 4, pl / 4 % 32, base % 64, base / 2 ^ 8 % 2 ^ 15, ln % 2 ^ 15, leAt r 12 4,
   cl / 8 + pl / 2 ^ 7 + base / 64 % 4 + base / 2 ^ 23 + ln / 2 ^ 15⟩

/-- The regions that an image declares, in section order.
DEDUCED, unsafe: log entry 169. -/
def imgTables (im : List Byte) : List Region := (imgRegions im).zipIdx.map (fun e => region e.2 e.1)

/-- The regions of one table. -/
def tableOf (im : List Byte) (id : Nat) : List Region := (imgTables im).filter (fun r => r.id = id)

/-- The regions of one copy, in section order. -/
def copyOf (rs : List Region) (c : Nat) : List Region := rs.filter (fun r => r.copy = c)

/-- The copies that a table has. -/
def copiesOf (rs : List Region) : List Nat := (upTo 4).filter (fun c => rs.any (fun r => r.copy = c))

/-- The words that regions hold (R121). -/
def regionWords (rs : List Region) : Nat := rs.foldl (fun n r => n + 4 * r.len) 0

/-- Where region word `w` lies: bank × 24,576 + bank address (R121). -/
def Region.word (r : Region) (w : Nat) : Nat := (4 * r.quad + w % 4) * 24576 + r.first + w / 4

/-- The region word at a place of the table SRAM, if the region holds it. -/
def Region.find (r : Region) (a : Nat) : Option Nat :=
  let bank := a / 24576
  let x := a % 24576
  if bank / 4 = r.quad && r.first ≤ x && x < r.first + r.len then some (4 * (x - r.first) + bank % 4) else none

/-- Word `w` of a sequence of regions, taken in order. -/
def seqWord : List Region → Nat → Option Nat
  | [], _ => none
  | r :: rs, w => if w < 4 * r.len then some (r.word w) else seqWord rs (w - 4 * r.len)

/-- The position of a place within a sequence of regions. -/
def seqFind : List Region → Nat → Option Nat
  | [], _ => none
  | r :: rs, a =>
    match r.find a with
    | some w => some w
    | none => (seqFind rs a).map (· + 4 * r.len)

/-- The class of a partition unit in the map at `base` (R118, R120): 0 DIRECT, 1 LPM, 2 EM, 3 COUNTER. -/
def Block.unitClass (b : Block) (base u : Nat) : Nat := (b.reg (base + 4 * (u / 16))).toNat >>> (2 * (u % 16)) % 4

/-- The partition unit of a place of the table SRAM (R118). -/
def unitOf (a : Nat) : Nat := 3 * (a / 24576 / 4) + a % 24576 / 8192

/-- The class of a place under the map in force. -/
def Block.classOf (b : Block) (a : Nat) : Nat := b.unitClass (LKP.PART_ACTIVE_0 0) (unitOf a)

/-- The units that a region touches. -/
def Region.units (r : Region) : List Nat :=
  (upTo 3).filterMap (fun s =>
    if r.first < 8192 * (s + 1) && 8192 * s < r.first + r.len then some (3 * r.quad + s) else none)

/-- The class that a KIND needs (R121). -/
def kindClass (k : Nat) : Nat := if k = 1 || k = 2 then 1 else if k = 3 || k = 4 then 2 else 0

/-- The image that an operation selects (R136): the active one, or that of the other bank.
DESIGN CHOICE, unsafe: log entry 190. -/
def Block.opImage (b : Block) (other : Bool) : Option (List Byte) :=
  if other then
    let n := match b.bankIn 3 with
      | some a => 1 - a
      | none => (b.bankIn 2).getD 0
    if b.bankState n = 2 || b.bankState n = 4 || b.bankState n = 5 then some (b.bankImage n) else none
  else (b.bankIn 3).map b.bankImage

/-- The table of an ID in the selected image, empty where there is none. -/
def Block.opTable (b : Block) (other : Bool) (id : Nat) : List Region :=
  match b.opImage other with
  | some im => tableOf im id
  | none => []

/-- A word as the SRAM holds it. -/
def Block.sram (b : Block) (a : Nat) : TWord := NMap.get 0 b.tbl.sram a

/-- The kind of an exact-match table: whether its entries are wide, or none where it is of another kind. -/
def emKind (rs : List Region) : Option Bool :=
  match rs with
  | [] => none
  | r :: _ => if r.kind = 3 then some false else if r.kind = 4 then some true else none

/-- The value of a slot of a word (R128). -/
def slotGet (wide : Bool) (w : TWord) (s : Nat) : Nat := if wide then w.toNat else w.toNat >>> (128 * s) % 2 ^ 128

/-- A word with a slot replaced (R128).
DESIGN CHOICE, unsafe: log entry 92. -/
def slotPut (wide : Bool) (w : TWord) (s v : Nat) : TWord :=
  if wide then BitVec.ofNat 256 v
  else BitVec.ofNat 256 (if s = 0 then w.toNat / 2 ^ 128 * 2 ^ 128 + v else w.toNat % 2 ^ 128 + v * 2 ^ 128)

/-- The fields of an entry (R128). -/
def emValid (wide : Bool) (v : Nat) : Bool := bitAt v (if wide then 255 else 127)
def emStatic (wide : Bool) (v : Nat) : Bool := bitAt v (if wide then 254 else 126)
def emKey (wide : Bool) (v : Nat) : Nat := if wide then v / 2 ^ 64 % 2 ^ 184 else v / 2 ^ 40 % 2 ^ 80
def emData (wide : Bool) (v : Nat) : Nat := if wide then v % 2 ^ 64 else v % 2 ^ 40

/-- The key bits that an entry of a kind holds (R128). -/
def emKeyOf (wide : Bool) (key : Nat) : Nat := if wide then key % 2 ^ 184 else key % 2 ^ 80

/-- A valid entry (R128). -/
def emPack (wide static : Bool) (key data : Nat) : Nat :=
  if wide then 2 ^ 255 + b2n static * 2 ^ 254 + key % 2 ^ 184 * 2 ^ 64 + data % 2 ^ 64
  else 2 ^ 127 + b2n static * 2 ^ 126 + key % 2 ^ 80 * 2 ^ 40 + data % 2 ^ 40

/-- The hashes of a key (R129): the CRC-32C of its bytes, most significant first, seeded with LAYOUT_ID or its NOT.
DESIGN CHOICE, unsafe: log entry 91. -/
def emHash (wide : Bool) (layout way key : Nat) : Nat :=
  let seed := BitVec.ofNat 32 layout
  (crc32cRaw (if way = 0 then seed else ~~~seed) (beBytes (if wide then 23 else 10) key)).toNat

/-- The region and local bucket of global bucket `g` (R129). -/
def bucketAt : List Region → Nat → Option (Region × Nat)
  | [], _ => none
  | r :: rs, g => if g < r.len then some (r, g) else bucketAt rs (g - r.len)

/-- The slots of a key's bucket in one way, as place and slot (R128, R129). -/
def emBucket (wide : Bool) (rs : List Region) (way key : Nat) : List (Nat × Nat) :=
  let n := rs.foldl (fun s r => s + r.len) 0
  let layout := match rs with
    | [] => 0
    | r :: _ => r.layout
  match bucketAt rs (emHash wide layout way key * n / 2 ^ 32) with
  | none => []
  | some (r, k) =>
    let w := 4 * k + 2 * way
    if wide then [(r.word w, 0), (r.word (w + 1), 0)]
    else [(r.word w, 0), (r.word w, 1), (r.word (w + 1), 0), (r.word (w + 1), 1)]

/-- The candidate slots of a key: way 0, then way 1. -/
def emSlots (wide : Bool) (rs : List Region) (key : Nat) : List (Nat × Nat) :=
  emBucket wide rs 0 key ++ emBucket wide rs 1 key

/-- The value of a slot. -/
def Block.slot (b : Block) (wide : Bool) (p : Nat × Nat) : Nat := slotGet wide (b.sram p.1) p.2

/-- A slot is valid and holds a key. -/
def Block.slotHolds (b : Block) (wide : Bool) (key : Nat) (p : Nat × Nat) : Bool :=
  let v := b.slot wide p
  emValid wide v && emKey wide v = key

/-- The slots of one copy that hold a key: one, or two in the window of a move (R130). -/
def Block.emFinds (b : Block) (wide : Bool) (rs : List Region) (key : Nat) : List (Nat × Nat) :=
  (emSlots wide rs key).filter (b.slotHolds wide key)

/-- The slot of one copy that holds a key (R130). -/
def Block.emFind (b : Block) (wide : Bool) (rs : List Region) (key : Nat) : Option (Nat × Nat) :=
  (emSlots wide rs key).find? (b.slotHolds wide key)

/-- The valid entries of a copy: place, slot and value. -/
def Block.emEntries (b : Block) (wide : Bool) (rs : List Region) : List (Nat × Nat × Nat) :=
  let ws : List (Nat × TWord) := b.tbl.sram
  (ws.filter (fun e => rs.any (fun r => (r.find e.1).isSome))).flatMap (fun e =>
    (if wide then [0] else [0, 1]).filterMap (fun s =>
      let v := slotGet wide e.2 s
      if emValid wide v then some (e.1, s, v) else none))

/-- The dynamic entries of a copy. -/
def Block.emDynamic (b : Block) (wide : Bool) (rs : List Region) : Nat :=
  ((b.emEntries wide rs).filter (fun e => !emStatic wide e.2.2)).length

/-- One round of the breadth-first search for a free slot (R131): paths whose last slot is occupied, each continued into
the other bucket of its resident. Answers the first path that ends in a free slot.
DESIGN CHOICE, unsafe: log entry 189. -/
def Block.emSearch (b : Block) (wide : Bool) (rs : List Region) : Nat → List (List (Nat × Nat)) → Option (List (Nat × Nat))
  | 0, _ => none
  | fuel + 1, paths =>
    let next := paths.flatMap (fun path =>
      match path.getLast? with
      | none => []
      | some p =>
        let k := emKey wide (b.slot wide p)
        let other := if (emBucket wide rs 0 k).contains p then emBucket wide rs 1 k else emBucket wide rs 0 k
        (other.filter (fun q => !path.contains q)).map (fun q => path ++ [q]))
    match next.find? (fun path => match path.getLast? with
        | some q => !emValid wide (b.slot wide q)
        | none => false) with
    | some path => some path
    | none => Block.emSearch b wide rs fuel next

/-- Where a new key goes (R131): the path from its slot to a free one, alone if its slot is free; none if there is no room. -/
def Block.emPlan (b : Block) (wide : Bool) (rs : List Region) (key : Nat) : Option (List (Nat × Nat)) :=
  let cs := emSlots wide rs key
  match cs.find? (fun p => !emValid wide (b.slot wide p)) with
  | some p => some [p]
  | none => b.emSearch wide rs 4 (cs.map (fun p => [p]))

/-- The writes of an insert along a path: the residents move from its far end, each old slot being zeroed before the next
write into it, and the new entry comes last (R132), with its hit bit as `hit` says. -/
def Block.emWrites (b : Block) (wide : Bool) (entry : Nat) (hit : Bool) (path : List (Nat × Nat)) : List SlotWrite :=
  let pairs := (path.zip (path.drop 1)).reverse
  pairs.flatMap (fun e => [{ word := e.2.1, slot := e.2.2, wide := wide, val := b.slot wide e.1 },
      { word := e.1.1, slot := e.1.2, wide := wide, val := 0 }])
    ++ (match path.head? with
      | some p => [{ word := p.1, slot := p.2, wide := wide, val := entry, hit := hit }]
      | none => [])

/-- The tables that `SHD.TBLm` enables, with their regions in the active image (R144).
DEDUCED, unsafe: log entry 191. -/
def Block.shdTable (b : Block) (m : Nat) : List Region :=
  if b.flag (SHD.TBL m) SHD.TBL_ENABLE then b.opTable false (b.fld (SHD.TBL m) SHD.TBL_TABLE_ID) else []

/-- The blocks of one copy: 256 words each. -/
def blocksOf (rs : List Region) (c : Nat) : Nat := ceilDiv (regionWords (copyOf rs c)) 256

/-- The blocks of a table. -/
def tableBlocks (rs : List Region) : Nat := (copiesOf rs).foldl (fun n c => n + blocksOf rs c) 0

/-- The DDR5 address of a block's digests (R144): tables in the order of `SHD.TBLm`, then copies, then blocks.
DESIGN CHOICE, unsafe: log entry 103. -/
def Block.digestAddr (b : Block) (m c k : Nat) : Nat :=
  let rs := b.shdTable m
  let before := (upTo m).foldl (fun n j => n + tableBlocks (b.shdTable j)) 0
  let mine := ((copiesOf rs).filter (· < c)).foldl (fun n j => n + blocksOf rs j) 0
  b.fld SHD.AREA_BASE_HI SHD.AREA_BASE_HI_ADDR * 2 ^ 32 + (b.reg SHD.AREA_BASE_LO).toNat + 16 * (before + mine + k)

/-- The shadow digest of 256 words: their CRC-32C, with initial value 0 and no final XOR (R144). -/
def digestOf (ws : List TWord) : Word := crc32cRaw 0 (ws.flatMap (fun w => leBytes 32 w.toNat))

/-- What a difference in the word at a position changes of its block's digest. -/
def digestDiff (pos : Nat) (d : TWord) : Word := digestOf (d :: List.replicate (255 - pos) 0)

/-- A word as a digest takes it: with EXCLUDE_DYNAMIC, dynamic entries as zeros (R144). -/
def digestWord (rs : List Region) (exclude : Bool) (w : TWord) : TWord :=
  match emKind rs, exclude with
  | some wide, true =>
    (if wide then [0] else [0, 1]).foldl (fun x s =>
      let v := slotGet wide w s
      if emValid wide v && !emStatic wide v then slotPut wide x s 0 else x) w
  | _, _ => w

/-- EXPECTED takes a new value before a write lands, PRIOR the old one, and the write is stamped; the clock of the cycle
stamp is not given, so the stamp is a free value (R144). -/
def Block.digestStep (b : Block) (m c k : Nat) (d : Word) : Block :=
  let a := b.digestAddr m c k
  let t := b.d5Take a 4
  let old := t.2
  let new := BitVec.ofNat 32 (leNat old) ^^^ d
  ((t.1.d5Write a (leBytes 4 new.toNat ++ old)).d5Write (a + 12) (leBytes 4 (Config.freeValue t.1.draws).toNat)).drawn

/-- The digests that follow a write of one word from `old` to `new` (R144). -/
def Block.digestFollow (b : Block) (a : Nat) (old new : TWord) : Block :=
  (upTo 16).foldl (fun x m =>
    let rs := x.shdTable m
    (copiesOf rs).foldl (fun y c =>
      match seqFind (copyOf rs c) a with
      | none => y
      | some w =>
        let ex := y.flag (SHD.TBL m) SHD.TBL_EXCLUDE_DYNAMIC
        y.digestStep m c (w / 256) (digestDiff (w % 256) (digestWord rs ex old ^^^ digestWord rs ex new))) x) b

/-- Store a word of the table SRAM. -/
def Block.setSram (b : Block) (a : Nat) (v : TWord) : Block := b.withTbl { b.tbl with sram := NMap.set 0 b.tbl.sram a v }

/-- A write of one word by the table engine (R132, R144). -/
def Block.tblWrite (b : Block) (a : Nat) (v : TWord) : Block := (b.digestFollow a (b.sram a) v).setSram a v

/-- Set or clear a slot's hit bit. -/
def Block.setHit (b : Block) (wide : Bool) (p : Nat × Nat) (on : Bool) : Block :=
  b.withTbl { b.tbl with hits := NMap.set false b.tbl.hits (2 * p.1 + (if wide then 0 else p.2)) on }

/-- A slot's hit bit. -/
def Block.hitBit (b : Block) (wide : Bool) (p : Nat × Nat) : Bool :=
  NMap.get false b.tbl.hits (2 * p.1 + (if wide then 0 else p.2))

/-- A write of one slot by the table engine, which clears its hit bit, or sets it with an entry just learned (R138). -/
def Block.slotWrite (b : Block) (w : SlotWrite) : Block :=
  (b.tblWrite w.word (slotPut w.wide (b.sram w.word) w.slot w.val)).setHit w.wide (w.word, w.slot) w.hit

end Sys2Proof.Machine
end

