-- ==== Sys2Proof/Machine/Lpm.lean ====
section
/-! DEFINITION. Longest-prefix match tables (R123 to R127): the canonical trie of a route set, where its words lie and what they
hold, how a change is written (R132), the walk, result codes, and adding, removing and reading routes. -/

namespace Sys2Proof.Machine

/-- A table of an LPM kind: whether it is IPv6 (R121). -/
def lpmKind (rs : List Region) : Option Bool :=
  if rs.any (fun r => r.kind = 1) then some false else if rs.any (fun r => r.kind = 2) then some true else none

/-- The regions of one level of one copy of an LPM table: 0 root, 1 to 19 nodes, 31 leaves. -/
def lpmLevel (rs : List Region) (c level : Nat) : List Region :=
  rs.filter (fun r => r.copy = c && (r.kind = 1 || r.kind = 2) && r.level = level)

/-- The RESULT regions of one copy. -/
def lpmResults (rs : List Region) (c : Nat) : List Region := rs.filter (fun r => r.copy = c && r.kind = 6)

/-- What identifies an LPM table: the place of its root in its first copy, which two images share or do not (R122).
DESIGN CHOICE, unsafe: log entry 96. -/
def lpmId (rs : List Region) : Nat :=
  match copiesOf rs with
  | [] => 0
  | c :: _ => match lpmLevel rs c 0 with
    | [] => 0
    | r :: _ => r.word 0

/-- The node levels of a table (R123). -/
def lpmDepth (rs : List Region) : Nat :=
  if lpmKind rs = some false then 3
  else (upTo 20).foldl (fun m k => if rs.any (fun r => r.kind = 2 && r.level = k) then max m k else m) 0

/-- The address bits that lie above node level `k`, and its stride (R123). -/
def lpmOffset (k : Nat) : Nat := 16 + 6 * (k - 1)
def lpmStride (v6 : Bool) (k : Nat) : Nat := if v6 then (if k = 19 then 4 else 6) else if k = 3 then 4 else 6

/-- Address bits of a kind. -/
def addrBits (v6 : Bool) : Nat := if v6 then 128 else 32

/-- A route: length and prefix bits. -/
abbrev Route := Nat × Nat

/-- The routes of a table with their results. -/
def Lpm.all (x : Lpm) : List (Route × Nat) :=
  let rs : List (Nat × Nat) := x.routes
  rs.map (fun e => ((e.1 / 2 ^ 128, e.1 % 2 ^ 128), e.2))

/-- A route covers the first `n` bits `p` of an address.
DEDUCED, unsafe: log entry 93. -/
def routeCovers (r : Route) (n p : Nat) : Bool := r.1 ≤ n && p >>> (n - r.1) = r.2

/-- A route is longer than `n` bits and begins with the `n` bits `p`. -/
def routeBelow (r : Route) (n p : Nat) : Bool := n < r.1 && r.2 >>> (r.1 - n) = p

/-- The nodes of level `k`: where a route longer than the node's depth covers part of its stride (R125). -/
def lpmNodes (rs : List (Route × Nat)) (k : Nat) : List Nat :=
  let d := lpmOffset k
  ((rs.filter (fun r => d < r.1.1)).map (fun r => r.1.2 >>> (r.1.1 - d))).eraseDups

/-- The result of the longest route that covers `n` bits. -/
def lpmBest (rs : List (Route × Nat)) (n p : Nat) : Option Nat :=
  ((rs.filter (fun r => routeCovers r.1 n p)).foldl
    (fun m r => match m with
      | none => some (r.1.1, r.2)
      | some x => if x.1 ≤ r.1.1 then some (r.1.1, r.2) else some x) (none : Option (Nat × Nat))).map (·.2)

/-- The stride values of a node that continue into children (R124). -/
def lpmChildren (rs : List (Route × Nat)) (v6 : Bool) (k p : Nat) : List Nat :=
  let s := lpmStride v6 k
  let d := lpmOffset k + s
  (upTo (2 ^ s)).filter (fun i => rs.any (fun r => routeBelow r.1 d (p * 2 ^ s + i)))

/-- The leaves of a node: where each starts and its result; one starts only where the result differs from that of the
leaf value before it (R124, R125).
DESIGN CHOICE, unsafe: log entry 94. -/
def lpmLeaves (rs : List (Route × Nat)) (v6 : Bool) (k p : Nat) : List (Nat × Option Nat) :=
  let s := lpmStride v6 k
  let d := lpmOffset k + s
  let kids := lpmChildren rs v6 k p
  (upTo (2 ^ s)).foldl (fun acc i =>
    if kids.contains i then acc
    else
      let v := lpmBest rs d (p * 2 ^ s + i)
      match acc.getLast? with
      | none => [(i, v)]
      | some l => if l.2 = v then acc else acc ++ [(i, v)]) []

/-- Sum over the node levels of a table. -/
def overLevels (d : Nat) (f : Nat → Nat) : Nat := (upTo d).foldl (fun n k => n + f (k + 1)) 0

/-- The words of one level that a route set's canonical trie takes in one copy: 31 for leaves (R125). -/
def lpmWords (rs : List (Route × Nat)) (v6 : Bool) (depth level : Nat) : Nat :=
  if level = 31 then
    overLevels depth (fun k => (lpmNodes rs k).foldl (fun n p => n + ceilDiv (lpmLeaves rs v6 k p).length 16) 0)
  else (lpmNodes rs level).length

/-- The levels whose room is counted. -/
def lpmLevels (depth : Nat) : List Nat := (upTo depth).map (· + 1) ++ [31]

/-- One LPM table's routes. -/
def Block.lpm (b : Block) (rs : List Region) : Lpm := NMap.get {} b.tbl.lpm (lpmId rs)

/-- Replace one LPM table's routes. -/
def Block.setLpm (b : Block) (rs : List Region) (x : Lpm) : Block :=
  b.withTbl { b.tbl with lpm := NMap.set {} b.tbl.lpm (lpmId rs) x }


/-- The word at a place, as a read finds it (R121, R409). -/
def Block.wordAt (b : Block) (a : Nat) : TWord := NMap.get 0 b.tbl.trie a ^^^ b.sram a

/-- The words of a block of a copy, as they stand; zeros past its end. -/
def Block.blockWords (b : Block) (rs : List Region) (c k : Nat) : List TWord :=
  (upTo 256).map (fun i => match seqWord (copyOf rs c) (256 * k + i) with
    | some a => b.wordAt a
    | none => 0)

/-- The digest of a block as it stands (R144). -/
def Block.blockDigest (b : Block) (rs : List Region) (ex : Bool) (c k : Nat) : Word :=
  digestOf ((b.blockWords rs c k).map (digestWord rs ex))

/-- The owner of a run: the children, or the leaves, of the node of level `k` with the address bits `p` above it. -/
def runKey (leaf : Bool) (k p : Nat) : Nat := (2 * k + b2n leaf) * 2 ^ 128 + p

/-- The LEVEL in which a run lies. -/
def runLevel (key : Nat) : Nat := if key / 2 ^ 128 % 2 = 1 then 31 else key / 2 ^ 129 + 1

/-- A change of a trie as it is built (R132): the table so far, the words to write in their order (LEVEL, word of the level, value),
the runs that it replaces, the next draw, and whether a level lacked room. -/
structure Build where
  lpm : Lpm
  writes : List (Nat × Nat × TWord) := []
  freed : List Grace := []
  draws : Nat
  failed : Bool := false
deriving DecidableEq, Repr

/-- Words `pos` to `pos + n - 1` of a level lie in one region and are free: in no run, and not in grace. -/
def Build.free (d : Build) (rs : List Region) (c level pos n : Nat) : Bool :=
  let inOne := match bucketAt ((lpmLevel rs c level).map (fun r => { r with len := 4 * r.len })) pos with
    | some (r, o) => decide (o + n ≤ r.len)
    | none => false
  let apart (q m : Nat) : Bool := pos + n ≤ q || q + m ≤ pos
  inOne && List.all (d.lpm.runs : List (Nat × (Nat × Nat))) (fun e => runLevel e.1 ≠ level || apart e.2.1 e.2.2)
    && (d.lpm.grace ++ d.freed).all (fun g => g.level ≠ level || apart g.pos g.words)

/-- The first of `fuel` places from `pos` on, around a level of `total` words, at which `n` words are free. -/
def Build.scan (d : Build) (rs : List Region) (c level total n : Nat) : Nat → Nat → Option Nat
  | 0, _ => none
  | fuel + 1, pos => if d.free rs c level (pos % total) n then some (pos % total)
      else Build.scan d rs c level total n fuel (pos + 1)

/-- A run is placed in free words of its level: which ones is open (R125). -/
def Build.place (d : Build) (rs : List Region) (key n : Nat) : Build × Nat :=
  let c := (copiesOf rs).headD 0
  let total := regionWords (lpmLevel rs c (runLevel key))
  match d.scan rs c (runLevel key) total n total (Config.lpmPick d.draws) with
  | none => ({ d with failed := true }, 0)
  | some pos => ({ d with lpm := { d.lpm with runs := NMap.put d.lpm.runs key (pos, n) }, draws := d.draws + 1 }, pos)

/-- The run of an owner. -/
def Build.run (d : Build) (key : Nat) : Option (Nat × Nat) := NMap.find? d.lpm.runs key

/-- A run is replaced: its words wait for two tick boundaries (R132). -/
def Build.drop (d : Build) (now key : Nat) : Build :=
  match d.run key with
  | none => d
  | some (pos, n) => { d with lpm := { d.lpm with runs := NMap.del d.lpm.runs key }
                              freed := d.freed ++ [⟨now, runLevel key, pos, n⟩] }

/-- A word is written. -/
def Build.write (d : Build) (level pos : Nat) (v : TWord) : Build := { d with writes := d.writes ++ [(level, pos, v)] }

/-- A pointer to word `pos` of a level: the region's ordinal and the word offset in it (R124). -/
def lpmPointer (rs : List Region) (level pos : Nat) : Nat × Nat :=
  let mine := lpmLevel rs ((copiesOf rs).headD 0) level
  match bucketAt (mine.map (fun r => { r with len := 4 * r.len })) pos with
  | some (r, o) => ((mine.findIdx? (fun q => q.idx = r.idx)).getD 0, o)
  | none => (0, 0)

/-- A pointer field of a node word (R124); one that points at nothing is open but for its bits [25:17]. -/
def nodePointer (rs : List Region) (level : Nat) (pos : Option Nat) (draw : Nat) : Nat :=
  match pos with
  | some p => let x := lpmPointer rs level p; x.1 * 2 ^ 26 + x.2 % 2 ^ 17
  | none => let v := (Config.freeValue draw).toNat; v / 2 ^ 26 * 2 ^ 26 + v % 2 ^ 17

/-- A map of stride values as bits (R124). -/
def strideMap (l : List Nat) : Nat := l.foldl bitOn 0

/-- Two route sets call for the same subtree at a node (R125); `fuel` bounds the levels. -/
def lpmSame (old new : List (Route × Nat)) (v6 : Bool) : Nat → Nat → Nat → Bool
  | 0, _, _ => true
  | fuel + 1, k, p =>
    let kids := lpmChildren new v6 k p
    (lpmNodes old k).contains p && (lpmNodes new k).contains p && lpmChildren old v6 k p = kids
      && lpmLeaves old v6 k p = lpmLeaves new v6 k p
      && kids.all (fun i => lpmSame old new v6 fuel (k + 1) (p * 2 ^ lpmStride v6 k + i))

/-- The 16 result codes of leaf word `i` of a node's leaves, those past the last leaf open (R123, R124). -/
def leafWord (codes : NMap Nat) (ls : List (Nat × Option Nat)) (i draw : Nat) : TWord :=
  let code (v : Nat) : Nat := ((List.find? (fun (e : Nat × Nat) => e.2 = v) codes).map (fun e => e.1)).getD 0
  BitVec.ofNat 256 ((upTo 16).foldl (fun n s =>
    n + (match ls[16 * i + s]? with
      | some (_, some v) => code v
      | some (_, none) => 0
      | none => (Config.freeValue (draw + s)).toNat % 2 ^ 16) * 2 ^ (16 * s)) 0)

/-- The leaves of a node, kept where both route sets call for the same ones, else built in free words: their first word. -/
def Build.leaves (d : Build) (rs : List Region) (old new : List (Route × Nat)) (now k p : Nat) : Build × Option Nat :=
  let key := runKey true k p
  let ls := lpmLeaves new d.lpm.v6 k p
  if (lpmNodes old k).contains p && lpmLeaves old d.lpm.v6 k p = ls then (d, (d.run key).map (fun r => r.1))
  else
    let d1 := d.drop now key
    if ls.isEmpty then (d1, none)
    else
      let n := ceilDiv ls.length 16
      let t := d1.place rs key n
      let d2 := (upTo n).foldl (fun y i => y.write 31 (t.2 + i) (leafWord d.lpm.codes ls i t.1.draws)) t.1
      ({ d2 with draws := d2.draws + 16 }, some t.2)

/-- The word of a node, its leaves and children built beneath it in free words where they change (R124, R132); `fuel` bounds the
levels. -/
def Build.node (rs : List Region) (old new : List (Route × Nat)) (now : Nat) : Nat → Build → Nat → Nat → Build × TWord
  | 0, d, _, _ => (d, 0)
  | fuel + 1, d, k, p =>
    let v6 := d.lpm.v6
    let s := lpmStride v6 k
    let kids := lpmChildren new v6 k p
    let was := if (lpmNodes old k).contains p then lpmChildren old v6 k p else []
    let keep := was = kids && kids.all (fun i => lpmSame old new v6 20 (k + 1) (p * 2 ^ s + i))
    let key := runKey false k p
    let t : Build × Option Nat :=
      if keep then (d, (d.run key).map (fun r => r.1))
      else
        let d1 := d.drop now key
        if kids.isEmpty then (d1, none)
        else
          let q := d1.place rs key kids.length
          let d2 := kids.zipIdx.foldl (fun y e =>
            let w := Build.node rs old new now fuel y (k + 1) (p * 2 ^ s + e.1)
            w.1.write (k + 1) (q.2 + e.2) w.2) q.1
          (d2, some q.2)
    let l := t.1.leaves rs old new now k p
    let word := strideMap kids + strideMap ((lpmLeaves new v6 k p).map (fun e => e.1)) * 2 ^ 64
      + nodePointer rs (k + 1) t.2 l.1.draws * 2 ^ 128 + nodePointer rs 31 l.2 (l.1.draws + 1) * 2 ^ 160
    ({ l.1 with draws := l.1.draws + 2 }, BitVec.ofNat 256 word)

/-- Nodes that vanish give up their runs (R132); `fuel` bounds the levels. -/
def Build.prune (old new : List (Route × Nat)) (now : Nat) : Nat → Build → Nat → Nat → Build
  | 0, d, _, _ => d
  | fuel + 1, d, k, p =>
    let s := lpmStride d.lpm.v6 k
    let d1 := if (lpmNodes new k).contains p then d else (d.drop now (runKey true k p)).drop now (runKey false k p)
    (lpmChildren old d.lpm.v6 k p).foldl (fun y i => Build.prune old new now fuel y (k + 1) (p * 2 ^ s + i)) d1

/-- A node that stays, at word `pos` of its level: the change is committed by one word, the deepest node's beneath which everything
that changes lies (R132); `fuel` bounds the levels. -/
def Build.change (rs : List Region) (old new : List (Route × Nat)) (now : Nat) : Nat → Build → Nat → Nat → Nat → Build
  | 0, d, _, _, _ => d
  | fuel + 1, d, k, p, pos =>
    let v6 := d.lpm.v6
    let s := lpmStride v6 k
    let kids := lpmChildren new v6 k p
    let moved := kids.zipIdx.filter (fun e => !lpmSame old new v6 20 (k + 1) (p * 2 ^ s + e.1))
    match decide (lpmChildren old v6 k p = kids) && decide (lpmLeaves old v6 k p = lpmLeaves new v6 k p), moved with
    | true, [] => d
    | true, [e] => Build.change rs old new now fuel d (k + 1) (p * 2 ^ s + e.1)
        (((d.run (runKey false k p)).map (fun r => r.1)).getD 0 + e.2)
    | _, _ => let w := Build.node rs old new now 20 d k p; w.1.write k pos w.2

/-- The root entry of the top 16 address bits `e` (R123): a result code, or a pointer to a node of level 1. -/
def rootEntry (rs : List Region) (codes : NMap Nat) (new : List (Route × Nat)) (e : Nat) (child : Option Nat) : Nat :=
  match child with
  | some pos => let x := lpmPointer rs 1 pos; 2 ^ 31 + x.1 * 2 ^ 25 + x.2 % 2 ^ 17
  | none => match lpmBest new 16 e with
    | some v => ((List.find? (fun (c : Nat × Nat) => c.2 = v) codes).map (fun c => c.1)).getD 0
    | none => 0

/-- The root word that holds the entry of the top 16 address bits `e`, as the engine wrote it last. -/
def Build.rootWord (d : Build) (trie : NMap TWord) (rs : List Region) (w : Nat) : TWord :=
  match (d.writes.reverse).find? (fun x => x.1 = 0 && x.2.1 = w) with
  | some x => x.2.2
  | none => match seqWord (lpmLevel rs ((copiesOf rs).headD 0) 0) w with
    | some a => NMap.get 0 trie a
    | none => 0

/-- What a change of routes does under one root entry (R132): new nodes and leaves first, and then the word that commits. -/
def Build.root (trie : NMap TWord) (rs : List Region) (old new : List (Route × Nat)) (now : Nat) (d : Build) (e : Nat) : Build :=
  let was := (lpmNodes old 1).contains e
  let is_ := (lpmNodes new 1).contains e
  let put (y : Build) (child : Option Nat) : Build :=
    let w := (y.rootWord trie rs (e / 8)).toNat
    let sh := 32 * (e % 8)
    let v := rootEntry rs y.lpm.codes new e child
    if w >>> sh % 2 ^ 32 = v then y
    else y.write 0 (e / 8) (BitVec.ofNat 256 (w - (w >>> sh % 2 ^ 32) <<< sh + v <<< sh))
  match was, is_ with
  | true, true => Build.prune old new now 20 (Build.change rs old new now 20 d 1 e
      (((d.run (runKey false 0 e)).map (fun r => r.1)).getD 0)) 1 e
  | false, true =>
    let t := d.place rs (runKey false 0 e) 1
    let w := Build.node rs old new now 20 t.1 1 e
    put (w.1.write 1 t.2 w.2) (some t.2)
  | true, false => Build.prune old new now 20 ((put d none).drop now (runKey false 0 e)) 1 e
  | false, false => put d none

/-- The root entries that a route covers or lies under. -/
def rootsOf (r : Route) : List Nat :=
  if 16 ≤ r.1 then [r.2 >>> (r.1 - 16)] else (upTo (2 ^ (16 - r.1))).map (fun i => r.2 <<< (16 - r.1) + i)

/-- The change of a table from the routes it holds to those of `x`, root entry by root entry; `changed` are the routes that differ. -/
def Block.lpmBuild (b : Block) (rs : List Region) (x : Lpm) (changed : List Route) : Build :=
  let old := (b.lpm rs).all
  let new := x.all
  ((changed.flatMap rootsOf).eraseDups).foldl (fun d e => Build.root b.tbl.trie rs old new b.ticks d e) { lpm := x, draws := b.draws }

/-- The new route set fits level by level, with the words in grace and those that its change replaces (R127). -/
def lpmFits (rs : List Region) (d : Build) : Bool :=
  let c := (copiesOf rs).headD 0
  !d.failed && (lpmLevels (lpmDepth rs)).all (fun l =>
    let inUse := List.foldl (fun n (e : Nat × (Nat × Nat)) => if runLevel e.1 = l then n + e.2.2 else n) 0 d.lpm.runs
    let held := (d.lpm.grace ++ d.freed).foldl (fun n g => if g.level = l then n + g.words else n) 0
    inUse + held ≤ regionWords (lpmLevel rs c l))

/-- One word of a trie is written in every copy, copy 0 first (R132, R133, R144). -/
def Block.trieWrite (b : Block) (rs : List Region) (level pos : Nat) (v : TWord) : Block :=
  (copiesOf rs).foldl (fun y c => match seqWord (lpmLevel rs c level) pos with
    | none => y
    | some a =>
      let z := (y.digestFollow a (y.wordAt a) v).setSram a 0
      z.withTbl { z.tbl with trie := NMap.set 0 z.tbl.trie a v }) b

/-- The engine makes a change: its words in their order, and the words replaced begin their grace period (R132). -/
def Block.lpmApply (b : Block) (rs : List Region) (d : Build) : Block :=
  let b1 := { b with draws := d.draws }
  (d.writes.foldl (fun y w => y.trieWrite rs w.1 w.2.1 w.2.2) b1).setLpm rs { d.lpm with grace := d.lpm.grace ++ d.freed }

/-- The regions of a LEVEL of a copy in their order: 32 is RESULT (R121, R123). -/
def walkRegions (rs : List Region) (c level : Nat) : List Region := if level = 32 then lpmResults rs c else lpmLevel rs c level

/-- The ordinal of the region and the offset in it of word `pos` of a LEVEL of a copy. -/
def walkPlace (rs : List Region) (c level pos : Nat) : Nat × Nat :=
  let mine := walkRegions rs c level
  match bucketAt (mine.map (fun r => { r with len := 4 * r.len })) pos with
  | some (r, o) => ((mine.findIdx? (fun q => q.idx = r.idx)).getD mine.length, o)
  | none => (mine.length, 0)

/-- A walk of an address begins at its root entry (R123). -/
def walkStart (rs : List Region) (table c : Nat) (v6 : Bool) (key : Nat) : Walk :=
  let n := addrBits v6
  let e := key % 2 ^ n >>> (n - 16)
  let x := walkPlace rs c 0 (e / 8)
  { table := table, copy := c, addr := key % 2 ^ n, level := 0, ord := x.1, off := x.2, sub := e % 8, left := n - 16 }

/-- A walk goes on to the RESULT entry of a code (R123). -/
def Walk.toResult (w : Walk) (rs : List Region) (code : Nat) : Walk :=
  let x := walkPlace rs w.copy 32 (code / 4)
  { w with level := 32, ord := x.1, off := x.2, sub := code % 4 }

/-- Where a walk goes on from the word of a root, node or leaf that it has read (R123, R124).
DESIGN CHOICE, unsafe: log entry 2. -/
def Walk.step (w : Walk) (rs : List Region) (v6 : Bool) (word : Nat) : Walk :=
  if w.level = 0 then
    let e := word >>> (32 * w.sub) % 2 ^ 32
    if bitAt e 31 then { w with level := 1, ord := e / 2 ^ 25 % 2 ^ 6, off := e % 2 ^ 17, sub := 0 }
    else w.toResult rs (e % 2 ^ 16)
  else if w.level = 31 then w.toResult rs (word >>> (16 * w.sub) % 2 ^ 16)
  else
    let s := lpmStride v6 w.level
    let i := w.addr >>> (w.left - s) % 2 ^ s
    let kids := word % 2 ^ 64
    if bitAt kids i then
      let x := word / 2 ^ 128 % 2 ^ 32
      { w with level := w.level + 1, ord := x / 2 ^ 26, off := x % 2 ^ 17 + popcount i (kids % 2 ^ i), left := w.left - s }
    else
      let leaves := word / 2 ^ 64 % 2 ^ 64 &&& (2 ^ 64 - 1 - kids)
      let n := popcount (i + 1) (leaves % 2 ^ (i + 1)) - 1
      let x := word / 2 ^ 160 % 2 ^ 32
      { w with level := 31, ord := x / 2 ^ 26, off := x % 2 ^ 17 + n / 16, sub := n % 16 }

/-- The code that a result takes: its own, or the lowest free one (R126).
DESIGN CHOICE, unsafe: log entry 95. -/
def lpmCode (codes : NMap Nat) (result : Nat) : Nat :=
  let cs : List (Nat × Nat) := codes
  match cs.find? (fun e => e.2 = result) with
  | some e => e.1
  | none => ((upTo 65536).find? (fun c => 0 < c && (NMap.find? codes c).isNone)).getD 0

/-- The codes of a new route set: those no route uses are freed, and a new result takes one (R126). -/
def lpmCodes (codes : NMap Nat) (new : List (Route × Nat)) (result : Option Nat) : NMap Nat :=
  let kept : NMap Nat := codes.filter (fun e => new.any (fun r => r.2 = e.2))
  match result with
  | none => kept
  | some v =>
    let c := lpmCode codes v
    NMap.put kept (if c = 0 then lpmCode kept v else c) v

/-- Write the RESULT entry of a code in every copy (R123, R132). -/
def Block.resultWrite (b : Block) (rs : List Region) (code result : Nat) : Block :=
  (copiesOf rs).foldl (fun x c =>
    match seqWord (lpmResults rs c) (code / 4) with
    | none => x
    | some a =>
      let s := 64 * (code % 4)
      let old := (x.sram a).toNat
      x.tblWrite a (BitVec.ofNat 256 (old - (old >>> s % 2 ^ 64) <<< s + result <<< s))) b

/-- The key of a route in the route map. -/
def routeKey (r : Route) : Nat := r.1 * 2 ^ 128 + r.2

/-- The prefix of an operation: the top PREFIX_LEN bits of the address in KEY (R136). -/
def routeOf (v6 : Bool) (plen key : Nat) : Route := (plen, key % 2 ^ addrBits v6 >>> (addrBits v6 - plen))

/-- The longest route a table accepts (R126). -/
def lpmMax (rs : List Region) (v6 : Bool) : Nat := if v6 then min 128 (16 + 6 * lpmDepth rs) else 32

/-- Routes of the device, by kind (R127). -/
def Block.routeCount (b : Block) (v6 : Bool) : Nat :=
  let ts : List (Nat × Lpm) := b.tbl.lpm
  (ts.filter (fun e => e.2.v6 = v6)).foldl (fun n e => n + e.2.routes.length) 0

/-- ROUTE_ADD (R126, R127): the block after it, and its result code. -/
def Block.routeAdd (b : Block) (rs : List Region) (plen key result : Nat) : Block × Nat :=
  match lpmKind rs with
  | none => (b, 6)
  | some v6 =>
    let x := b.lpm rs
    let r := routeOf v6 plen key
    let routes := NMap.put x.routes (routeKey r) result
    let fresh := b2n ((NMap.find? x.routes (routeKey r)).isNone)
    let n4 := b.routeCount false + (if v6 then 0 else fresh)
    let n6 := b.routeCount true + (if v6 then fresh else 0)
    let y : Lpm := { x with routes := routes, v6 := v6 }
    let new := y.all
    let codes := lpmCodes x.codes new (some result)
    if lpmMax rs v6 < plen then (b, 5)
    else if 12000000 < n4 || 6000000 < n6 || 16000000 < n4 + n6 then (b, 8)
    else if 65535 < (new.map (·.2)).eraseDups.length then (b, 4)
    else
      let d := b.lpmBuild rs { y with codes := codes } [r]
      if !lpmFits rs d || regionWords (lpmResults rs ((copiesOf rs).headD 0)) ≤ lpmCode codes result / 4 then (b, 3)
      else ((b.resultWrite rs (lpmCode codes result) result).lpmApply rs d, 0)

/-- ROUTE_DELETE (R132): the trie without the route; what it needs anew is built first, and where a level lacks the room for that,
the route stays.
DEDUCED, unsafe: log entry 180. -/
def Block.routeDelete (b : Block) (rs : List Region) (plen key : Nat) : Block × Nat :=
  match lpmKind rs with
  | none => (b, 6)
  | some v6 =>
    let x := b.lpm rs
    let r := routeOf v6 plen key
    if lpmMax rs v6 < plen then (b, 5)
    else if (NMap.find? x.routes (routeKey r)).isNone then (b, 2)
    else
      let y : Lpm := { x with routes := NMap.del x.routes (routeKey r) }
      let d := b.lpmBuild rs { y with codes := lpmCodes x.codes y.all none } [r]
      if d.failed then (b, 3) else (b.lpmApply rs d, 0)

/-- ROUTE_READ: the result of exactly the prefix (R136). -/
def Block.routeRead (b : Block) (rs : List Region) (plen key : Nat) : Nat × Option Nat :=
  match lpmKind rs with
  | none => (6, none)
  | some v6 =>
    if lpmMax rs v6 < plen then (5, none)
    else match NMap.find? (b.lpm rs).routes (routeKey (routeOf v6 plen key)) with
      | none => (2, none)
      | some v => (0, some v)

/-- Every route of a table goes (R136). -/
def Block.routeClear (b : Block) (rs : List Region) : Block :=
  let x := b.lpm rs
  b.lpmApply rs (b.lpmBuild rs { x with routes := [], codes := [] } (x.all.map (fun e => e.1)))

/-- Words replaced return to the free pool after two tick boundaries (R132). -/
def Block.freedReturn (b : Block) : Block :=
  let ts : List (Nat × Lpm) := b.tbl.lpm
  let kept : List (Nat × Lpm) := ts.map (fun e => (e.1, { e.2 with grace := e.2.grace.filter (fun g => b.ticks < g.at_ + 2) }))
  b.withTbl { b.tbl with lpm := kept.filter (fun e => e.2 ≠ {}) }

end Sys2Proof.Machine
end

