-- ==== Sys2Proof/Machine/PrsPay.lean ====
section
/-! DEFINITION. The range comparators (R110, R111), the pattern sets of the payload matcher (R116, R117), the staging shares
(R93), and the entry calendars' commits (R57). -/

namespace Sys2Proof.Machine

/-- The blocks of the frond die take commands with the core on, but for the frozen FAULT-HOLD. -/
def Block.fdLive (b : Block) : Bool := coreOn b.mode.mode && decide (b.mode.mode ≠ .faultHold)

/-- A write that is discarded because a commit is pending: the register keeps its value and the access is captured. -/
def Block.discardWrite (b : Block) (a : Nat) (src : Source) (old : Word) (code : Nat) : Block :=
  (b.setReg a old).captureAt a src 0xFF code

/-- The effect of a write of `PRS.RANGE_SHADOW` at address `a` (R111). -/
def effRangeShadow (a : Nat) (src : Source) (_w : WriteOut) (old : Word) (b : Block) : Block :=
  if b.flag PRS.RANGE_CTL PRS.RANGE_CTL_COMMIT then b.discardWrite a src old 3 else b

/-- The tick boundary with a range commit pending (R110). -/
def Block.rangeApply (b : Block) : Block :=
  if !b.fdLive || !b.flag PRS.RANGE_CTL PRS.RANGE_CTL_COMMIT then b
  else
    let lo := PRS.RANGE_SHADOW_LOHI 0
    let hi := PRS.RANGE_ACTIVE_LOHI 0
    let b1 := (upTo 128).foldl (fun x i => x.setReg (hi + 4 * i) (b.reg (lo + 4 * i))) b
    (b1.setFld PRS.RANGE_CTL PRS.RANGE_CTL_COMMIT 0).intRaw 0x20 3

/-- The shadow pattern set (R116). -/
def Block.payShadow (b : Block) : Nat := 1 - b.fld PAY.CTL PAY.CTL_ACTIVE_SET

/-- The fields of W0 of a pattern: LEN, VALID, OFFSET_MIN, OFFSET_MAX. -/
def patLen (w : Word) : Nat := w.toNat % 2 ^ 6
def patValid (w : Word) : Bool := bitAt w.toNat 15
def patMin (w : Word) : Nat := w.toNat / 2 ^ 16 % 2 ^ 8
def patMax (w : Word) : Nat := w.toNat / 2 ^ 24

/-- W0 of the VALID patterns of a set. -/
def Block.validPats (b : Block) (s : Nat) : List Word :=
  ((b.patternSet s).map (fun e => e.2.getD 0 0)).filter patValid

/-- The total LEN of the VALID patterns of a set (`PAY.SHADOW_BYTES`, R116). -/
def Block.patBytes (b : Block) (s : Nat) : Nat := (b.validPats s).foldl (fun n w => n + patLen w) 0

/-- The check of R116 on a pattern set. -/
def Block.patsOk (b : Block) (s : Nat) : Bool :=
  (b.validPats s).all (fun w => 1 ≤ patLen w && patLen w ≤ 32 && patMin w ≤ patMax w) && b.patBytes s ≤ 131072

/-- The tick boundary with a pattern commit pending (R116). -/
def Block.payApply (b : Block) : Block :=
  if !b.fdLive || !b.flag PAY.CTL PAY.CTL_COMMIT then b
  else
    let b1 := b.setFld PAY.CTL PAY.CTL_COMMIT 0
    if b.patsOk b.payShadow then (b1.setFld PAY.CTL PAY.CTL_ACTIVE_SET b.payShadow).intRaw 0x21 0
    else (b1.setFld PAY.CTL PAY.CTL_COMMIT_FAIL 1).intRaw 0x21 1

/-- A pattern of nine zero words. -/
def noPattern : List Word := List.replicate 9 0

/-- `PAT_CMD.WRITE`, `COPY` and `READ` (R117). -/
def Block.patWrite (b : Block) : Block :=
  let k := b.payShadow * 8192 + b.fld PAY.PAT_INDEX PAY.PAT_INDEX_INDEX
  let ws := (upTo 9).map (fun i => b.reg (PAY.PAT_W0 + 4 * i))
  { b with fd := { b.fd with patterns := NMap.set noPattern b.fd.patterns k ws } }
def Block.patCopy (b : Block) : Block :=
  let s := b.payShadow
  let act := b.fd.patterns.filter (fun e => e.1 / 8192 = 1 - s)
  let sh := act.map (fun e => (s * 8192 + e.1 % 8192, e.2))
  { b with fd := { b.fd with patterns := if s = 0 then sh ++ act else act ++ sh } }
def Block.patRead (b : Block) : Block :=
  let k := b.payShadow * 8192 + b.fld PAY.PAT_INDEX PAY.PAT_INDEX_INDEX
  let ws := NMap.get noPattern b.fd.patterns k
  (upTo 9).foldl (fun x i => x.setReg (PAY.PAT_W0 + 4 * i) (ws.getD i 0)) b

/-- The effect of a write of `PAY.PAT_CMD`: WRITE, then COPY, then READ, an order that R117 does not state
(log entry 60); any write is discarded while a commit is pending (R117). -/
def effPatCmd (src : Source) (w : WriteOut) (_old : Word) (b : Block) : Block :=
  let b0 := b.setReg PAY.PAT_CMD 0
  let has (f : Fld) : Bool := fldGet f w.took ≠ 0
  if b.flag PAY.CTL PAY.CTL_COMMIT then b0.captureAt PAY.PAT_CMD src 0xFF 3
  else
    let b1 := if has PAY.PAT_CMD_WRITE then b0.patWrite else b0
    let b2 := if has PAY.PAT_CMD_COPY then b1.patCopy else b1
    if has PAY.PAT_CMD_READ then b2.patRead else b2

/-- The shares of a slice's ports in staging (R93). -/
def Block.shareSum (b : Block) (k : Nat) : Nat :=
  (upTo 32).foldl (fun n p => n + b.fld (PRS.STAGE (32 * k + p)) PRS.STAGE_SHARE) 0

/-- The effect of a write of `PRS.STAGE` (R93): a SHARE that raises the slice's total above 384 units is left unchanged and
captured; MTU is taken. -/
def effStage (p : Nat) (src : Source) (w : WriteOut) (old : Word) (b : Block) : Block :=
  let was := fldGet PRS.STAGE_SHARE old
  if was < fldGet PRS.STAGE_SHARE w.value && 384 < b.shareSum (p / 32) then
    (b.setFld (PRS.STAGE p) PRS.STAGE_SHARE was).captureAt (PRS.STAGE p) src 0 1
  else b

/-- The wrap of a frond's entry calendar with a commit pending (R56, R57). -/
def Block.frdCalWrap (b : Block) (f : Nat) : Block :=
  if !b.fdLive then b
  else
    let x := b.frond f
    if b.flag (FRD.CAL_CTL f) FRD.CAL_CTL_COMMIT then (b.setFrond f { x with cycle := ceilDiv x.cycle 128 * 128 }).frdCalCheck f
    else b

end Sys2Proof.Machine
end

