-- ==== Sys2Proof/Machine/Rings.lean ====
section
/-! DEFINITION. The table-bulk-load ring (R410 to R413): its descriptor types, and the return of a descriptor. -/

namespace Sys2Proof.Machine

/-- The descriptor at HEAD of a host-produced ring that accepts the types `takes`, if it is of type `ty`: it is taken, and
`go` gets its bytes and its host address. A type the ring does not accept is returned as BAD_TYPE; one of another type that
it accepts waits for its own row. -/
def Block.bulk (b : Block) (r ty : Nat) (takes : List Nat) (go : List Byte → Nat → Block → Block) : Block :=
  if b.ringRuns r && 0 < b.ringFree r && ringAlive b.mode.mode r && (b.ring r).job.isNone then
    match b.fetchHead r with
    | .err c => b.ringErr r c
    | .ok d =>
      let a := b.descAddr r (b.fld (PCI.RING_HEAD r) PCI.RING_HEAD_HEAD)
      let t := leAt d 12 1
      if t = ty then go d a (b.takeHead r)
      else if takes.contains t then b
      else (b.takeHead r).giveBack r 1
  else b

/-- The table-bulk-load ring's descriptor of a type (R410). -/
def Block.bulkTable (b : Block) (ty : Nat) (go : List Byte → Nat → Block → Block) : Block := b.bulk 67 ty [6, 7, 8] go

/-- The outcome of an operation record: its RESULT, and what is written back of it, by offset. -/
structure RecOut where
  code : Nat
  back : List (Nat × List Byte)
deriving DecidableEq, Repr

/-- The descriptor in progress on the table-bulk-load ring becomes another, or none. -/
def Block.setJob (b : Block) (j : Option BulkJob) : Block := b.setRing 67 { b.ring 67 with job := j }

/-- Execute the next of the records that are left, of `size` bytes each; with STOP none follows one that is not OK (R135). -/
def bulkOne (size : Nat) (one : Block → List Byte → Block × RecOut) (b : Block) (j : BulkJob) : Block × BulkJob :=
  if j.left = 0 then (b, j)
  else
    let r := one b (b.dmaRead j.next size)
    let b1 := ((5, leBytes 1 r.2.code) :: r.2.back).foldl (fun x w => x.dmaWrite (j.next + w.1) w.2) r.1
    let ok := decide (r.2.code = 0)
    (b1, { j with
      next := j.next + size, left := if j.stop && !ok then 0 else j.left - 1, done := j.done + 1
      fail := match j.fail with
        | some f => some f
        | none => if ok then none else some (r.2.code, j.done) })

/-- A TABLE_OP or TCAM_OP descriptor begins (R135): the length rules and the buffer. -/
def bulkDesc (ty size : Nat) (d : List Byte) (a : Nat) (b : Block) : Block :=
  let buf := leAt d 0 8
  let count := leAt d 0x10 4
  if count = 0 || 65536 < count || buf % 64 ≠ 0 || leAt d 8 3 < size * count then b.giveBack 67 2
  else if b.host.fails buf (size * count) then b.giveBack 67 4
  else b.setJob (some { type := ty, desc := a, next := buf, left := count, stop := bitAt (leAt d 0x19 1) 0 })

/-- A descriptor in progress with no record left goes back with DONE, FIRST_FAIL and FAIL_INDEX (R135); a ring disabled meanwhile
then flushes the rest and idles (R413). -/
def Block.bulkEnd (b : Block) : Block :=
  match (b.ring 67).job with
  | none => b
  | some j =>
    if j.left ≠ 0 then b
    else
      let f := j.fail.getD (0, 0)
      let b1 := ((((b.setJob none).dmaWrite (j.desc + 0x14) (leBytes 4 j.done ++ leBytes 1 f.1)).dmaWrite (j.desc + 0x1C)
        (leBytes 4 f.2))).giveBack 67 0
      if b1.flag (PCI.RING_CFG 67) PCI.RING_CFG_ENABLE then b1 else b1.ringOff 67

/-- The descriptor in progress, if it is of type `ty`: its next record is executed, and after the last it goes back (R135). -/
def Block.bulkWork (b : Block) (ty size : Nat) (one : Block → List Byte → Block × RecOut) : Block :=
  match (b.ring 67).job with
  | none => b
  | some j =>
    if j.type ≠ ty then b
    else
      let r := bulkOne size one b j
      (r.1.setJob (some r.2)).bulkEnd

/-- A page soft reset of the engine's page while a descriptor of type `ty` is in progress: it ends with ABORTED at the record that
would have come next (R147, R176).
DESIGN CHOICE, unsafe: log entry 186. -/
def Block.bulkAbort (b : Block) (ty : Nat) : Block :=
  match (b.ring 67).job with
  | none => b
  | some j => if j.type ≠ ty then b else (b.setJob (some { j with fail := j.fail.orElse (fun _ => some (9, j.done)), left := 0 })).bulkEnd

/-- A row of the table-bulk-load ring: the descriptor at HEAD begins if none is in progress, and its next record is
executed; between two records another command may come (R135). -/
def Block.bulkRow (b : Block) (ty size : Nat) (one : Block → List Byte → Block × RecOut) : Block :=
  (b.bulkTable ty (bulkDesc ty size)).bulkWork ty size one

end Sys2Proof.Machine
end

