-- ==== Sys2Proof/Machine/TableOps.lean ====
section
/-! DEFINITION. The table engine's operations (R131 to R136): exact match, routes, DIRECT words, clearing and statistics;
their two sources, the registers of LKP and TABLE_OP descriptors; and the partition commit (R120). -/

namespace Sys2Proof.Machine

/-- A table operation (R136). -/
structure TRec where
  op : Nat
  static : Bool
  other : Bool
  table : Nat
  plen : Nat
  key : Nat
  data : Nat
deriving DecidableEq, Repr

/-- What a table operation answers: RESULT, and STATIC and DATA where it reads (R136). -/
structure TRes where
  code : Nat
  static : Bool := false
  data : Option Nat := none
deriving DecidableEq, Repr

/-- Make the writes of an exact-match operation up to the next zeroing of a moved entry's old slot (R132). -/
def movingRun : List SlotWrite → Block → Block
  | [], b => b.withTbl { b.tbl with moving := [] }
  | w :: ws, b => if w.val = 0 then b.withTbl { b.tbl with moving := w :: ws } else movingRun ws (b.slotWrite w)

/-- The zeroing that stands first, and the writes after it up to the next (R132). -/
def Block.movingStep (b : Block) : Block :=
  match b.tbl.moving with
  | [] => b
  | w :: ws => movingRun ws (b.slotWrite w)

/-- Every write left of the operation in progress, since an operation ends before the next begins (R135). -/
def movingAll : List SlotWrite → Block → Block
  | [], b => b.withTbl { b.tbl with moving := [] }
  | w :: ws, b => movingAll ws (b.slotWrite w)

/-- A register operation ends: STATE done, GO clear, RESULT and what was read (LKP registers). -/
def Block.lkpDone (b : Block) (r : TRes) : Block :=
  let b1 := match r.data with
    | none => b
    | some v => (upTo 8).foldl (fun x i => x.setReg (LKP.OP_DATA i) (BitVec.ofNat 32 (v >>> (32 * i)))) b
  let b2 := b1.setReg LKP.OP_STS (BitVec.ofNat 32 (2 + r.code * 2 ^ 8 + b2n r.static * 2 ^ 16))
  (b2.setFld LKP.OP_CTL LKP.OP_CTL_GO 0).intRaw 0x22 0

/-- The register operation whose moves have ended is done. -/
def Block.movingEnd (b : Block) : Block :=
  if b.tbl.movingReg && b.tbl.moving.isEmpty then (b.withTbl { b.tbl with movingReg := false }).lkpDone ⟨0, false, none⟩
  else b

/-- The operation in progress ends (R135). -/
def Block.tblFinish (b : Block) : Block := (movingAll b.tbl.moving b).movingEnd

/-- EM_MOVE_ZERO: the old slot of a moved entry is zeroed at the next M slot of its bank (R132). -/
def Block.emMoveZero (b : Block) : Block := if b.fdLive then b.movingStep.movingEnd else b

/-- An insert into every copy: the writes to make, or none for want of room in some copy (R131). -/
def Block.emInsertWrites (b : Block) (wide : Bool) (rs : List Region) (key entry : Nat) (hit : Bool) : Option (List SlotWrite) :=
  (copiesOf rs).foldl (fun acc c =>
    match acc, b.emPlan wide (copyOf rs c) key with
    | some ws, some path => some (ws ++ b.emWrites wide entry hit path)
    | _, _ => none) (some [])

/-- EM_INSERT (R131, R132): its writes begin, and stop where a moved entry's old slot is to be zeroed. -/
def Block.emInsert (b : Block) (rs : List Region) (r : TRec) : Block × TRes :=
  match emKind rs with
  | none => (b, ⟨6, false, none⟩)
  | some wide =>
    let key := emKeyOf wide r.key
    if (b.emFind wide (copyOf rs ((copiesOf rs).headD 0)) key).isSome then (b, ⟨1, false, none⟩)
    else match b.emInsertWrites wide rs key (emPack wide r.static key r.data) false with
      | none => (b, ⟨3, false, none⟩)
      | some ws => (movingRun ws b, ⟨0, false, none⟩)

/-- Rewrite the slot of a key in every copy. -/
def Block.emRewrite (b : Block) (wide : Bool) (rs : List Region) (key : Nat) (val : Nat → Nat) : Block :=
  (copiesOf rs).foldl (fun x c =>
    match x.emFind wide (copyOf rs c) key with
    | none => x
    | some p => x.slotWrite { word := p.1, slot := p.2, wide := wide, val := val (x.slot wide p) }) b

/-- The value of a key's slot in the first copy. -/
def Block.emValue (b : Block) (wide : Bool) (rs : List Region) (key : Nat) : Option Nat :=
  (b.emFind wide (copyOf rs ((copiesOf rs).headD 0)) key).map (b.slot wide)

/-- EM_UPDATE (R132). -/
def Block.emUpdate (b : Block) (rs : List Region) (r : TRec) : Block × TRes :=
  match emKind rs with
  | none => (b, ⟨6, false, none⟩)
  | some wide =>
    let key := emKeyOf wide r.key
    match b.emValue wide rs key with
    | none => (b, ⟨2, false, none⟩)
    | some _ => (b.emRewrite wide rs key (fun _ => emPack wide r.static key r.data), ⟨0, false, none⟩)

/-- EM_DELETE (R132). -/
def Block.emDelete (b : Block) (rs : List Region) (r : TRec) : Block × TRes :=
  match emKind rs with
  | none => (b, ⟨6, false, none⟩)
  | some wide =>
    let key := emKeyOf wide r.key
    match b.emValue wide rs key with
    | none => (b, ⟨2, false, none⟩)
    | some _ => (b.emRewrite wide rs key (fun _ => 0), ⟨0, false, none⟩)

/-- EM_READ (R136). -/
def Block.emRead (b : Block) (rs : List Region) (r : TRec) : Block × TRes :=
  match emKind rs with
  | none => (b, ⟨6, false, none⟩)
  | some wide =>
    match b.emValue wide rs (emKeyOf wide r.key) with
    | none => (b, ⟨2, false, none⟩)
    | some v => (b, ⟨0, emStatic wide v, some (emData wide v)⟩)

/-- A DIRECT table (R121). -/
def isDirect (rs : List Region) : Bool := !rs.isEmpty && rs.all (fun r => r.kind = 5)

/-- DIRECT_WRITE: word INDEX of every copy (R136). -/
def Block.directWrite (b : Block) (rs : List Region) (r : TRec) : Block × TRes :=
  if !isDirect rs then (b, ⟨6, false, none⟩)
  else
    let i := r.key % 2 ^ 32
    match seqWord (copyOf rs ((copiesOf rs).headD 0)) i with
    | none => (b, ⟨7, false, none⟩)
    | some _ =>
      ((copiesOf rs).foldl (fun x c => match seqWord (copyOf rs c) i with
        | some a => x.tblWrite a (BitVec.ofNat 256 r.data)
        | none => x) b, ⟨0, false, none⟩)

/-- DIRECT_READ: word INDEX of copy 0 (R136). -/
def Block.directRead (b : Block) (rs : List Region) (r : TRec) : Block × TRes :=
  if !isDirect rs then (b, ⟨6, false, none⟩)
  else match seqWord (copyOf rs ((copiesOf rs).headD 0)) (r.key % 2 ^ 32) with
    | none => (b, ⟨7, false, none⟩)
    | some a => (b, ⟨0, false, some (b.sram a).toNat⟩)

/-- TABLE_CLEAR: every entry or route goes, static ones included (R136). A DIRECT table has neither. -/
def Block.tableClear (b : Block) (rs : List Region) : Block × TRes :=
  match emKind rs, lpmKind rs with
  | some wide, _ =>
    ((copiesOf rs).foldl (fun x c =>
      (x.emEntries wide (copyOf rs c)).foldl (fun y e =>
        y.slotWrite { word := e.1, slot := e.2.1, wide := wide, val := 0 }) x) b, ⟨0, false, none⟩)
  | none, some _ => (b.routeClear rs, ⟨0, false, none⟩)
  | none, none => (b, ⟨if isDirect rs then 0 else 6, false, none⟩)

/-- TABLE_STATS: eight words (R136). The root of a table holds 8,192 words (R123).
DEDUCED, unsafe: log entry 97. -/
def Block.tableStats (b : Block) (rs : List Region) (r : TRec) : Block × TRes :=
  let words (ws : List Nat) : Nat := ws.zipIdx.foldl (fun n e => n + e.1 % 2 ^ 32 * 2 ^ (32 * e.2)) 0
  match emKind rs, lpmKind rs with
  | some wide, _ =>
    let rc := copyOf rs ((copiesOf rs).headD 0)
    let n := rc.foldl (fun s x => s + x.len) 0
    (b, ⟨0, false, some (words [(b.emEntries wide rc).length, (if wide then 4 else 8) * n])⟩)
  | none, some v6 =>
    let x := b.lpm rs
    let d := lpmDepth rs
    let f := if r.plen = 0 then 1 else r.plen
    let level (k : Nat) : Nat := if k ≤ d then lpmWords x.all v6 d k else 0
    (b, ⟨0, false, some (words [x.routes.length, 0, (x.all.map (·.2)).eraseDups.length, 8192, lpmWords x.all v6 d 31,
                               level f, level (f + 1), level (f + 2)])⟩)
  | none, none => if isDirect rs then (b, ⟨0, false, some 0⟩) else (b, ⟨6, false, none⟩)

/-- One table operation (R136). An operation that runs first lets the one before it end (R135). -/
def Block.tableOp (b0 : Block) (r : TRec) : Block × TRes :=
  let b := b0.tblFinish
  let rs := b.opTable r.other r.table
  match r.op with
  | 0 => (b, ⟨0, false, none⟩)
  | 1 => b.emInsert rs r
  | 2 => b.emUpdate rs r
  | 3 => b.emDelete rs r
  | 4 => b.emRead rs r
  | 5 => let x := b.routeAdd rs r.plen r.key (r.data % 2 ^ 64); (x.1, ⟨x.2, false, none⟩)
  | 6 => let x := b.routeDelete rs r.plen r.key; (x.1, ⟨x.2, false, none⟩)
  | 7 => let x := b.routeRead rs r.plen r.key; (b, ⟨x.1, false, x.2⟩)
  | 8 => b.directWrite rs r
  | 9 => b.directRead rs r
  | 10 => b.tableClear rs
  | 11 => b.tableStats rs r
  | _ => (b, ⟨10, false, none⟩)

/-- The number that registers spell, the first the most significant.
DEDUCED, unsafe: log entry 98. -/
def Block.regsBe (b : Block) (a n : Nat) : Nat := (upTo n).foldl (fun v i => v * 2 ^ 32 + (b.reg (a + 4 * i)).toNat) 0

/-- The number that registers spell, the first the least significant. -/
def Block.regsLe (b : Block) (a n : Nat) : Nat := (upTo n).foldl (fun v i => v + (b.reg (a + 4 * i)).toNat * 2 ^ (32 * i)) 0

/-- The operation that the registers of LKP hold. -/
def Block.lkpRec (b : Block) : TRec :=
  { op := b.fld LKP.OP_CTL LKP.OP_CTL_OP, static := b.flag LKP.OP_CTL LKP.OP_CTL_STATIC
    other := b.flag LKP.OP_CTL LKP.OP_CTL_IMAGE, table := b.fld LKP.OP_TABLE LKP.OP_TABLE_TABLE_ID
    plen := b.fld LKP.OP_CTL LKP.OP_CTL_PREFIX_LEN, key := b.regsBe (LKP.OP_KEY 0) 6, data := b.regsLe (LKP.OP_DATA 0) 8 }

/-- The effect of a write of `LKP.OP_CTL`: GO runs the operation; while GO reads 1 a write of it is discarded (R135). -/
def effLkpOp (src : Source) (w : WriteOut) (old : Word) (b : Block) : Block :=
  if fldGet LKP.OP_CTL_GO w.took = 0 then b
  else if fldGet LKP.OP_CTL_GO old = 1 then b.discardWrite LKP.OP_CTL src old 3
  else if !b.fdLive then b
  else
    let r := b.lkpRec
    let x := b.tableOp r
    if x.1.tbl.moving.isEmpty then x.1.lkpDone x.2
    else (x.1.withTbl { x.1.tbl with movingReg := true }).setReg LKP.OP_STS 1

/-- A record of a TABLE_OP buffer (R136). -/
def tblRecord (b : Block) (d : List Byte) : Block × RecOut :=
  let key := beNat (bytesAt d 8 24)
  let idx := leAt d 0x1C 4
  let op := leAt d 0 1
  let fl := leAt d 1 1
  let x := b.tableOp { op := op, static := bitAt fl 0, other := bitAt fl 1, table := leAt d 2 2, plen := leAt d 4 1
                       key := if op = 8 || op = 9 then idx else key, data := leAt d 0x20 32 }
  (x.1.tblFinish, ⟨x.2.code, (match x.2.data with
    | none => []
    | some v => [(0x20, leBytes 32 v)]) ++ (if op = 4 && x.2.code = 0 then [(1, leBytes 1 (fl / 2 * 2 + b2n x.2.static))] else [])⟩)

/-- A TABLE_OP descriptor, for up to `n` records (R135). -/
def Block.tableOpDesc (b : Block) : Block := if b.fdLive then b.bulkRow 6 64 tblRecord else b

/-- The counter cache runs: its sweeps have not ended since CNT.CTL.ENABLE was last 1 (R120, R429). -/
def Block.cacheRuns (b : Block) : Bool := b.flag CNT.CTL CNT.CTL_ENABLE || b.flag CNT.STS CNT.STS_RUNNING

/-- The units whose class the shadow map changes (R120). -/
def Block.partChanges (b : Block) : List Nat :=
  (upTo 192).filter (fun u => b.unitClass (LKP.PART_SHADOW_0 0) u ≠ b.unitClass (LKP.PART_ACTIVE_0 0) u)

/-- The shadow map as it stands. -/
def Block.partMap (b : Block) : List Word := (upTo 12).map (fun i => b.reg (LKP.PART_SHADOW_0 0 + 4 * i))

/-- The units that hold words of the ACTIVE or DRAINING image. -/
def Block.unitsInUse (b : Block) : List Nat :=
  (upTo 2).flatMap (fun n => if b.bankState n = 3 || b.bankState n = 4 then (imgTables (b.bankImage n)).flatMap Region.units else [])

/-- A commit is refused (R120). -/
def Block.partRefused (b : Block) : Bool :=
  let us := b.partChanges
  us.any (fun u => b.unitsInUse.contains u)
    || (b.cacheRuns && us.any (fun u => b.unitClass (LKP.PART_SHADOW_0 0) u = 3 || b.unitClass (LKP.PART_ACTIVE_0 0) u = 3))

/-- Zero the units that change class, through M slots (R120): the words, and the routes of tables whose root lies there. The map
that the commit took stands from then on, whatever is written to the shadow. -/
def Block.partZero (b : Block) : Block :=
  let us := b.partChanges
  b.withTbl { b.tbl with
    sram := b.tbl.sram.filter (fun e => !us.contains (unitOf e.1))
    trie := b.tbl.trie.filter (fun e => !us.contains (unitOf e.1))
    hits := b.tbl.hits.filter (fun e => !us.contains (unitOf (e.1 / 2)))
    lpm := b.tbl.lpm.filter (fun e => !us.contains (unitOf e.1))
    zeroed := some b.partMap }

/-- The effect of a write of `LKP.PART_CTL` (R120).
DEDUCED, unsafe: log entry 106. -/
def effPartCtl (src : Source) (w : WriteOut) (old : Word) (b : Block) : Block :=
  if fldGet LKP.PART_CTL_COMMIT w.took = 0 then b
  else if fldGet LKP.PART_CTL_COMMIT old = 1 then b.captureAt LKP.PART_CTL src 0 3
  else if b.partRefused then
    (((b.setFld LKP.PART_CTL LKP.PART_CTL_COMMIT 0).setFld LKP.PART_CTL LKP.PART_CTL_COMMIT_FAIL 1).intRaw 0x22 2).event 0x22 2 2 []
  else b.tblFinish.partZero

/-- The partition map in force becomes the one that the commit took (R120). -/
def Block.partCopy (b : Block) (m : List Word) : Block :=
  (upTo 12).foldl (fun x i => x.setReg (LKP.PART_ACTIVE_0 0 + 4 * i) (m.getD i 0)) b

/-- The tick boundary after the zeroing ends: the new map takes effect (R120). -/
def Block.partApply (b : Block) : Block :=
  match b.fdLive, b.tbl.zeroed with
  | true, some m =>
    ((((b.withTbl { b.tbl with zeroed := none }).partCopy m).setFld LKP.PART_CTL LKP.PART_CTL_COMMIT 0).intRaw 0x22 1).event 0x22 2 1 []
  | _, _ => b

end Sys2Proof.Machine
end

