-- ==== Sys2Proof/Machine/Learn.lean ====
section
/-! DEFINITION. Learning and aging (R137 to R143, R148), the learning notices and their journal (R140, R141), and the learning
stream of a cushion (R391, R392). -/

namespace Sys2Proof.Machine

/-- Notice KINDs (R140). -/
def noticeLearned : Nat := 1
def noticeMoved : Nat := 2
def noticeMoveBlocked : Nat := 3
def noticeAged : Nat := 4
def noticeLimit : Nat := 5
def noticeNoRoom : Nat := 6
def noticeFlap : Nat := 7
def noticeNewSeen : Nat := 8
def noticeMoveSeen : Nat := 9

/-- Count in a learned table's counter `k`, in the order of R148's registers. -/
def Block.lrnCount (b : Block) (n k : Nat) : Block := b.count (LRN.C_LEARNED_LO n + 8 * k) 0

/-- The table of a learned table: its regions in the active image, if they are exact match. -/
def Block.lrnTable (b : Block) (n : Nat) : List Region :=
  let rs := b.opTable false (b.fld (LRN.TBL_CFG n) LRN.TBL_CFG_TABLE_ID)
  if (emKind rs).isSome then rs else []

/-- Whether a learned table's entries are wide. -/
def Block.lrnWide (b : Block) (n : Nat) : Bool := (emKind (b.lrnTable n)).getD false

/-- A learned table's first copy. -/
def Block.lrnFirst (b : Block) (n : Nat) : List Region :=
  let rs := b.lrnTable n
  copyOf rs ((copiesOf rs).headD 0)

/-- Dynamic entries that a learned table holds (`LRN.TBLn_COUNT`). -/
def Block.lrnHeld (b : Block) (n : Nat) : Nat := b.emDynamic (b.lrnWide n) (b.lrnFirst n)

/-- The 32 bytes of a LEARN_NOTICE descriptor whose type-specific bytes are `x` (R140, R411).
DEDUCED, unsafe: log entry 101. -/
def noticeDesc (x : List Byte) : List Byte := List.replicate 12 0#8 ++ [3#8, 3#8, 0#8, 0#8] ++ x

/-- A learning notice: numbered, journalled in DDR5, and placed on the learn-notice ring or counted (R140, R141). -/
def Block.notice (b : Block) (n kind key new old : Nat) : Block :=
  let seq := (b.reg LRN.NOTICE_SEQ).toNat + 1
  let x := leBytes 8 key ++ leBytes 4 (new % 2 ^ 20 + kind * 2 ^ 20 + n * 2 ^ 24)
    ++ leBytes 4 (old % 2 ^ 20 + seq % 2 ^ 12 * 2 ^ 20)
  let body := x ++ leBytes 4 seq ++ leBytes 4 b.nowNs ++ leBytes 4 b.nowSec
  let check := ~~~(crc32cRaw 0xFFFFFFFF#32 body)
  let base := b.fld LRN.JOURNAL_BASE_HI LRN.JOURNAL_BASE_HI_ADDR * 2 ^ 32 + (b.reg LRN.JOURNAL_BASE_LO).toNat
  let b1 := (b.setReg LRN.NOTICE_SEQ (BitVec.ofNat 32 seq)).d5Write (base + 32 * (seq % 1048576))
    (body ++ leBytes 4 check.toNat)
  let r := b1.produce 64 (fun _ => noticeDesc x) []
  if r.2 then r.1 else (r.1.lrnCount n 8).intRaw 0x23 2

/-- A gap or a loss in the learning stream: counted, with CSC cause 4 (R392). -/
def Block.syncGap (b : Block) : Block := (b.count CSC.SYNC_GAP_LO 5).intRaw 6 4

/-- A table is shared by the cushion that the device is in (R391). -/
def Block.lrnShared (b : Block) (n : Nat) : Bool :=
  b.mode.role ≠ roleStandalone && bitAt (b.fld CSC.LRN_SYNC CSC.LRN_SYNC_TABLES) n

/-- An entry of a learned table is put in as dynamic, in every copy: its writes, or none for want of room. A resident in its way is
relocated, static or not.
DEDUCED, unsafe: log entry 181. -/
def Block.lrnPut (b : Block) (n key value : Nat) (hit : Bool) : Option Block :=
  let rs := b.lrnTable n
  let wide := b.lrnWide n
  let entry := emPack wide false key (value + b.fld (LRN.TBL_FILL n) LRN.TBL_FILL_FILL * 2 ^ 20)
  (b.emInsertWrites wide rs key entry hit).map (fun ws => movingRun ws b)

/-- DATA[19:0] of a key's entry is replaced in every copy (R138). -/
def Block.lrnMove (b : Block) (n key value : Nat) : Block :=
  let wide := b.lrnWide n
  b.emRewrite wide (b.lrnTable n) key (fun v => v / 2 ^ 20 * 2 ^ 20 + value)

/-- The hit bits of a key, all copies together (R142). -/
def Block.lrnHit (b : Block) (n key : Nat) : Bool :=
  let rs := b.lrnTable n
  let wide := b.lrnWide n
  (copiesOf rs).any (fun c => match b.emFind wide (copyOf rs c) key with
    | some p => b.hitBit wide p
    | none => false)

/-- A dynamic insert is within the table's LIMIT (R138). -/
def Block.lrnBelow (b : Block) (n : Nat) : Bool := b.lrnHeld n < b.fld (LRN.TBL_LIMIT n) LRN.TBL_LIMIT_LIMIT

/-- Apply one entry of the cushion's learning stream to a table (R391). The refresh that it may call for is the answer. -/
def Block.streamEntry (b0 : Block) (n key value : Nat) (age : Bool) : Block × Option Nat :=
  let b := b0.tblFinish
  if (b.lrnTable n).isEmpty then (b, none)
  else match b.emValue (b.lrnWide n) (b.lrnTable n) key, age with
    | none, true => (b, none)
    | none, false =>
      if !b.lrnBelow n then (b.count CSC.SYNC_FAIL_LO 5, none)
      else match b.lrnPut n key value true with
        | none => (b.count CSC.SYNC_FAIL_LO 5, none)
        | some b1 => (b1.tblFinish, none)
    | some v, _ =>
      if emStatic (b.lrnWide n) v then (b, none)
      else if !age then (b.lrnMove n key value, none)
      else if b.lrnHit n key then (b.count CSC.REFRESH_LO 5, some (emData (b.lrnWide n) v % 2 ^ 20))
      else (b.emRewrite (b.lrnWide n) (b.lrnTable n) key (fun _ => 0), none)

/-- A numbered LEARN is applied; a number out of sequence is a gap (R391, R392).
DEDUCED, unsafe: log entry 102. -/
def Block.streamApply (b : Block) (seq n key value : Nat) (age : Bool) : Block × Option Nat :=
  let last := (b.reg CSC.SYNC_SEQ).toNat
  let b1 := if seq = (last + 1) % 2 ^ 32 then b else (b.syncGap).event 6 0x0B 5 (leBytes 4 last)
  let b2 := b1.setReg CSC.SYNC_SEQ (BitVec.ofNat 32 seq)
  if b2.lrnShared n then b2.streamEntry n key value age else (b2, none)

/-- A LEARN message of the stream. -/
def learnMsg (seq n key value : Nat) (age : Bool) : CMsg :=
  .learn (BitVec.ofNat 32 seq) (BitVec.ofNat 64 key) (BitVec.ofNat 20 value) (BitVec.ofNat 3 n) age

/-- The master numbers a LEARN, sends it to every member and applies it (R391). A refresh that its own table calls for is a
LEARN of its own; `fuel` bounds it at one. -/
def Block.masterLearn : Nat → Block → Nat → Nat → Nat → Bool → Block
  | 0, b, _, _, _, _ => b
  | fuel + 1, b, n, key, value, age =>
    let seq := b.csc.nextSeq
    let b1 := { b with csc := { b.csc with nextSeq := (seq + 1) % 2 ^ 32 } }
    let r := (b1.cscToAll (learnMsg seq n key value age)).streamApply seq n key value age
    match r.2 with
    | none => r.1
    | some v => Block.masterLearn fuel r.1 n key v false

/-- An outcome of a shared table goes to the master (R391); with none, or a paused one, it is discarded and counted (R392). -/
def Block.learnSend (b : Block) (n key value : Nat) (age : Bool) : Block :=
  if !b.lrnShared n then b
  else if b.mode.role = roleMaster then
    (if b.masterRuns then Block.masterLearn 2 b n key value age else b.syncGap)
  else match b.csc.masterPos with
    | some j => if b.flag CSC.STS CSC.STS_MASTER_VALID && !b.flag CSC.STS CSC.STS_PAUSED
        then b.cscSend j (learnMsg 0 n key value age) else b.syncGap
    | none => b.syncGap

/-- LEARN arrives from a link (R391): the master numbers it; a member applies its master's stream. -/
def Block.onLearn (b : Block) (j seq n key value : Nat) (age : Bool) : Block :=
  if b.mode.role = roleMaster then
    (if b.masterRuns && b.lrnShared n then Block.masterLearn 2 b n key value age else b)
  else if b.mode.role = roleMember && b.csc.masterPos = some j then
    let r := b.streamApply seq n key value age
    match r.2 with
    | none => r.1
    | some v => r.1.learnSend n key v false
  else b

/-- The learned tables that name a table. -/
def Block.learnedOf (b : Block) (id : Nat) : List Nat :=
  (upTo 8).filter (fun n => b.fld (LRN.TBL_CFG n) LRN.TBL_CFG_TABLE_ID = id && !(b.lrnTable n).isEmpty)

/-- A request enters the learning FIFO (R137): a key already there counts DUP, a full FIFO FIFO_FULL.
DEDUCED, unsafe: log entry 100. -/
def Block.learnRequest (b : Block) (q : LearnReq) : Block :=
  if b.tbl.fifo.any (fun r => r.table = q.table && r.key = q.key) then b.lrnCount q.table 6
  else if 16384 ≤ b.tbl.fifo.length then
    ((b.lrnCount q.table 7).intRaw 0x23 1).eventOnce 0x020500 0x23 2 5 []
  else b.withTbl { b.tbl with fifo := b.tbl.fifo ++ [q] }

/-- The learned value of table `n`: 20 bits of a container of the PHV, by `LRN.TBLn_SRC` (R137). -/
def Block.learnedValue (b : Block) (n : Nat) (phv : NMap Nat) : Nat :=
  NMap.get 0 phv (b.fld (LRN.TBL_SRC n) LRN.TBL_SRC_CONTAINER) >>> b.fld (LRN.TBL_SRC n) LRN.TBL_SRC_BIT % 2 ^ 20

/-- The last pinna of a learned table's copy completes an ingress lookup (R137): a request from a miss, or from a hit on a dynamic
entry that holds another learned value. -/
def Block.learnLookup (b : Block) (rs : List Region) (id c key : Nat) (phv : NMap Nat) : Block :=
  match emKind rs with
  | none => b
  | some wide =>
    let found := b.emFind wide (copyOf rs c) (emKeyOf wide key)
    (b.learnedOf id).foldl (fun x n =>
      let v := b.learnedValue n phv
      match found with
      | none => x.learnRequest ⟨n, key % 2 ^ 64, v, false⟩
      | some p =>
        let e := b.slot wide p
        if !emStatic wide e && emData wide e % 2 ^ 20 ≠ v then x.learnRequest ⟨n, key % 2 ^ 64, v, true⟩ else x) b

/-- A NEW request in HW mode (R138). -/
def Block.learnNew (b : Block) (n key value : Nat) : Block :=
  if (b.emValue (b.lrnWide n) (b.lrnTable n) key).isSome then b.lrnCount n 6
  else if !b.lrnBelow n then
    (b.lrnCount n 4).oncePerTick (0x023000 + n) (fun x => x.notice n noticeLimit key value 0)
  else match b.lrnPut n key value true with
    | none => (b.lrnCount n 5).notice n noticeNoRoom key value 0
    | some b1 => ((b1.lrnCount n 0).notice n noticeLearned key value 0).learnSend n key value false

/-- A MOVE request in HW mode (R138, R139).
DEDUCED, unsafe: log entry 99. -/
def Block.learnMoved (b : Block) (n key value : Nat) : Block :=
  match b.emValue (b.lrnWide n) (b.lrnTable n) key with
  | none => b.learnNew n key value
  | some v =>
    let old := emData (b.lrnWide n) v % 2 ^ 20
    if emStatic (b.lrnWide n) v then (b.lrnCount n 2).notice n noticeMoveBlocked key value old
    else
      let k := n * 2 ^ 64 + key
      let moved := NMap.get 0 b.tbl.moves k
      let limit := b.fld (LRN.TBL_CFG n) LRN.TBL_CFG_MOVE_LIMIT
      let b1 := b.withTbl { b.tbl with moves := NMap.set 0 b.tbl.moves k (moved + 1) }
      if limit ≠ 0 && limit < moved then
        (if moved = limit + 1 then (b1.lrnCount n 9).notice n noticeFlap key value 0 else b1)
      else (((b1.lrnMove n key value).lrnCount n 1).notice n noticeMoved key value old).learnSend n key value false

/-- LEARN_APPLY: the learning engine takes the oldest request (R138). -/
def Block.learnApply (b0 : Block) : Block :=
  if !b0.fdLive then b0
  else match b0.tbl.fifo with
    | [] => b0
    | q :: rest =>
      let b := (b0.withTbl { b0.tbl with fifo := rest }).tblFinish
      match b.fld (LRN.TBL_CFG q.table) LRN.TBL_CFG_MODE with
      | 1 => b.notice q.table (if q.move then noticeMoveSeen else noticeNewSeen) q.key q.value 0
      | 2 =>
        if (b.lrnTable q.table).isEmpty then b
        else if q.move then b.learnMoved q.table q.key q.value else b.learnNew q.table q.key q.value
      | _ => b

/-- Clear the hit bits of a key in every copy. -/
def Block.lrnClearHit (b : Block) (n key : Nat) : Block :=
  let rs := b.lrnTable n
  let wide := b.lrnWide n
  (copiesOf rs).foldl (fun x c => match x.emFind wide (copyOf rs c) key with
    | some p => x.setHit wide p false
    | none => x) b

/-- An aging pass of learned table `n` at a tick (R142): dynamic entries that were hit have their bits cleared, the others
are to be removed. -/
def Block.agingPass (b : Block) (n : Nat) : Block :=
  let t := b.fld (LRN.TBL_AGE n) LRN.TBL_AGE_AGE_TICKS
  if !b.fdLive || !b.flag (LRN.TBL_AGE n) LRN.TBL_AGE_ENABLE || t = 0 || b.ticks % t ≠ 0
      || NMap.get 0 b.tbl.agedAt n = b.ticks then b
  else
    let b := b.withTbl { b.tbl with agedAt := NMap.set 0 b.tbl.agedAt n b.ticks }
    let wide := b.lrnWide n
    let keys := ((b.emEntries wide (b.lrnFirst n)).filter (fun e => !emStatic wide e.2.2)).map (fun e => emKey wide e.2.2)
    keys.foldl (fun x k =>
      if x.lrnHit n k then x.lrnClearHit n k
      else if x.tbl.aging.contains (n, k) then x
      else x.withTbl { x.tbl with aging := x.tbl.aging ++ [(n, k)] }) b

/-- AGING_REMOVAL: the oldest entry to be removed goes from every copy with an AGED notice, unless a hit wins (R143). `hit`
says that a copy's bit is set in the very cycle of the first copy's write: that copy is rewritten with the entry at the next M slot of
its bank, as EM_MOVE_ZERO has it. -/
def Block.agingRemoval (b0 : Block) (hit : Bool) : Block :=
  if !b0.fdLive then b0
  else match b0.tbl.aging with
    | [] => b0
    | (n, k) :: rest =>
      let b := (b0.withTbl { b0.tbl with aging := rest }).tblFinish
      let wide := b.lrnWide n
      match b.emValue wide (b.lrnTable n) k with
      | none => b
      | some v =>
        if emStatic wide v then b
        else if b.lrnHit n k then b
        else if hit then
          match b.emFind wide (b.lrnFirst n) k with
          | some p =>
            let w : SlotWrite := { word := p.1, slot := p.2, wide := wide, val := 0, hit := true }
            let b1 := b.slotWrite w
            b1.withTbl { b1.tbl with moving := [{ w with val := v }] }
          | none => b
        else
          let old := emData wide v % 2 ^ 20
          (((b.emRewrite wide (b.lrnTable n) k (fun _ => 0)).lrnCount n 3).notice n noticeAged k 0 old).learnSend n k 0 true

/-- The LIMITs of the learned tables in HW mode, together (R148). -/
def Block.hwLimits (b : Block) : Nat :=
  (upTo 8).foldl (fun s n => if b.fld (LRN.TBL_CFG n) LRN.TBL_CFG_MODE = 2
    then s + b.fld (LRN.TBL_LIMIT n) LRN.TBL_LIMIT_LIMIT else s) 0

/-- The effect of a write of `LRN.TBLn_LIMIT`: one that would take the total higher than 2,097,152 leaves it (R148). -/
def effTblLimit (n : Nat) (src : Source) (_w : WriteOut) (old : Word) (b : Block) : Block :=
  if b.fld (LRN.TBL_CFG n) LRN.TBL_CFG_MODE = 2 && fldGet LRN.TBL_LIMIT_LIMIT old < b.fld (LRN.TBL_LIMIT n) LRN.TBL_LIMIT_LIMIT
      && 2097152 < b.hwLimits
  then (b.setReg (LRN.TBL_LIMIT n) old).captureAt (LRN.TBL_LIMIT n) src 0 1 else b

/-- The effect of a write of `LRN.TBLn_CFG`: one that sets MODE to HW past the total leaves it (R148). -/
def effTblMode (n : Nat) (src : Source) (w : WriteOut) (old : Word) (b : Block) : Block :=
  if fldGet LRN.TBL_CFG_MODE w.value = 2 && fldGet LRN.TBL_CFG_MODE old ≠ 2 && 2097152 < b.hwLimits
  then (b.setReg (LRN.TBL_CFG n) old).captureAt (LRN.TBL_CFG n) src 16 1 else b

/-- The firmware takes up the learn notices again (R470, R471): more than the journal holds are lost to it. -/
def Block.learnAgain (b : Block) : Block :=
  let seq := (b.reg LRN.NOTICE_SEQ).toNat
  let gone := (seq + 2 ^ 32 - (b.reg FWM.LEARN_SEQ).toNat) % 2 ^ 32
  let b1 := if 1048576 < gone then
      let c := b.satAdd FWM.JOURNAL_LOST (gone - 1048576)
      c.event 0x62 0x0E 0x0B (leBytes 4 (c.reg FWM.JOURNAL_LOST).toNat)
    else b
  b1.setReg FWM.LEARN_SEQ (BitVec.ofNat 32 seq)

/-- A page soft reset of LKP: the operation in progress, register or descriptor, ends with ABORTED, and every word stays (R147). -/
def Block.lkpPageReset (b : Block) : Block :=
  let waits := b.tbl.movingReg
  let b1 := b.withTbl { b.tbl with moving := [], movingReg := false }
  (if waits then b1.lkpDone ⟨9, false, none⟩ else b1).bulkAbort 6

/-- A page soft reset of LRN: the FIFO empties, and aging restarts at the next pass (R147). -/
def Block.lrnPageReset (b : Block) : Block := b.withTbl { b.tbl with fifo := [], aging := [] }

end Sys2Proof.Machine
end

