-- ==== Sys2Proof/Machine/FwOps.lean ====
section
/-! DEFINITION. The NV die and the firmware block: image checks (R450 to R452), slot headers and the boot record (R453,
R454), downloads (R457, R458), activation and confirmation (R462 to R467), and the loader's choice (R455). -/

namespace Sys2Proof.Machine

/-- Serial-number order of 32-bit SEQ values: `a` is later than `b` (R454). -/
def seqLater (a b : Nat) : Bool := a ≠ b && (a + 2 ^ 32 - b) % 2 ^ 32 < 2 ^ 31

/-- The newest valid boot record, or the values taken without one (R454). -/
def Nv.boot (n : Nv) : BootRec :=
  match n.boot0, n.boot1 with
  | none, none => {}
  | some r, none => r
  | none, some r => r
  | some r, some q => if seqLater q.seq r.seq then q else r

/-- The copy that does not hold the newest valid record is written, with SEQ one higher (R454). -/
def Nv.writeBoot (n : Nv) (r : BootRec) : Nv :=
  let r' := { r with seq := (n.boot.seq + 1) % 2 ^ 32 }
  match n.boot0, n.boot1 with
  | none, none => { n with boot0 := some r' }
  | some _, none => { n with boot1 := some r' }
  | none, some _ => { n with boot0 := some r' }
  | some x, some y => if seqLater y.seq x.seq then { n with boot0 := some r' } else { n with boot1 := some r' }

/-- Write a boot record. -/
def Block.writeBoot (b : Block) (r : BootRec) : Block := { b with nv := b.nv.writeBoot r }

/-- The header of a slot, an absent one reading as EMPTY. -/
def Nv.hdr (n : Nv) (slot : Nat) : SlotHdr :=
  match if slot = 0 then n.hdrA else n.hdrB with
  | none => {}
  | some h => h

/-- Write a slot's header (R453). -/
def Nv.setHdr (n : Nv) (slot : Nat) (h : SlotHdr) : Nv :=
  if slot = 0 then { n with hdrA := some h } else { n with hdrB := some h }

/-- Where a slot begins in the NV die (R448). -/
def slotBase (slot : Nat) : Nat := if slot = 0 then 0x00100000 else 0x01900000

/-- The settings copy `k`. -/
def Nv.settings (n : Nv) (k : Nat) : Option Settings := if k = 0 then n.set0 else n.set1

/-- Write the settings copy `k`. -/
def Nv.setSettings (n : Nv) (k : Nat) (s : Settings) : Nv :=
  if k = 0 then { n with set0 := some s } else { n with set1 := some s }

/-- A settings copy is lost. -/
def Nv.setSettingsNone (n : Nv) (k : Nat) : Nv := if k = 0 then { n with set0 := none } else { n with set1 := none }

/-- A little-endian field of an image header at a die offset (R450). -/
def Nv.le (n : Nv) (a k : Nat) : Nat := leNat (Memory.readN n.mem a k)

/-- The check of an image at `base` (R452): its region's size, its KIND, the length its slot header gives (none for the
loader), whether its signature verifies, and the lowest SVN; answers the CHECK code. -/
def Nv.check (n : Nv) (base region kind : Nat) (hdr : Option SlotHdr) (sigOk : Bool) (minSvn : Nat) : Nat :=
  let len := n.le (base + 0x0C) 4
  let state := match hdr with
    | none => false
    | some h => h.state ≠ 2
  let lenBad := match hdr with
    | none => false
    | some h => len ≠ h.len
  let reservedBad := (Memory.readN n.mem (base + 0x28) 88 ++ Memory.readN n.mem (base + 0xE0) 288).any (fun x => x ≠ 0#8)
  if state then 1
  else if n.le base 4 ≠ 0x4E45554E || n.le (base + 4) 2 ≠ 0x0100 || n.le (base + 0x0A) 2 ≠ 0x0200 || reservedBad then 2
  else if n.le (base + 6) 2 ≠ 0x1280 || n.le (base + 8) 1 ≠ 0x0B || n.le (base + 9) 1 ≠ kind then 3
  else if lenBad || region < len || len % 1024 ≠ 0 || 6 * 2 ^ 20 < n.le (base + 0x24) 4 then 4
  else if !sigOk then 5
  else if n.le (base + 0x14) 4 < minSvn then 6
  else 0

/-- The check of a firmware slot against the boot record's MIN_SVN. -/
def Nv.checkSlot (n : Nv) (slot : Nat) (sigOk : Bool) : Nat :=
  let h := n.hdr slot
  n.check (slotBase slot) (if h.span then 48 * 2 ^ 20 else 24 * 2 ^ 20) 1 (some h) sigOk n.boot.minSvn

/-- The check of the resident loader (R452, R455). -/
def Nv.checkLoader (n : Nv) (sigOk : Bool) : Nat := n.check 0 (2 ^ 20) 2 none sigOk n.boot.minSvn

/-- UPD_STS.STATE changes: cause 0 of FWM. -/
def Block.updState (b : Block) (st : Nat) : Block :=
  if b.fld FWM.UPD_STS FWM.UPD_STS_STATE = st then b else (b.setFld FWM.UPD_STS FWM.UPD_STS_STATE st).intRaw 0x62 0

/-- A download is receiving (R457). -/
def Block.receiving (b : Block) : Bool := b.fld FWM.UPD_STS FWM.UPD_STS_STATE = 1

/-- A refused command changes nothing but REFUSE, and STATE where no download is receiving (R457). -/
def Block.updRefuse (b : Block) (code : Nat) : Block :=
  let b1 := b.setFld FWM.UPD_STS FWM.UPD_STS_REFUSE code
  if b1.receiving then b1 else b1.updState 4

/-- The largest IMAGE_LEN a TARGET allows (R457). -/
def targetLimit (target : Nat) : Nat := if target = 0 then 24 * 2 ^ 20 else if target = 1 then 48 * 2 ^ 20 else 2 ^ 20

/-- The refusal of a START, 0 for none (R457).
DEDUCED, unsafe: log entry 38. -/
def Block.startRefusal (b : Block) (len target : Nat) : Nat :=
  if b.nv.boot.trial then 1
  else if len = 0 || len % 1024 ≠ 0 || targetLimit target < len then 2
  else if (target = 2 && decide (b.mode.mode ≠ .spore)) || (target = 0 && b.nv.boot.layout = 1) || 2 < target then 3
  else if b.receiving then 7
  else 0

/-- START of a download (R457, R466): headers INCOMPLETE, no block received, receiving.
DESIGN CHOICE, unsafe: log entry 162. -/
def Block.updStart (b : Block) (len target : Nat) : Block :=
  let r := b.startRefusal len target
  if r ≠ 0 then b.updRefuse r
  else
    let other := 1 - b.nv.boot.selected
    let span := target = 1 && 24 * 2 ^ 20 < len
    let h : SlotHdr := { state := 1, span := span, len := len, version := 0, svn := 0 }
    let nv1 := if target = 0 then b.nv.setHdr other h
      else if target = 1 then (b.nv.setHdr 0 h).setHdr 1 { h with len := if span then len else 0 }
      else b.nv
    let base := if target = 0 then slotBase other else if target = 1 then slotBase 0 else 0
    let b1 := { b with nv := nv1, fw := { b.fw with received := 0, dlLen := len, dlTarget := target, dlBase := base }
                       mode := { b.mode with loaderOk := if target = 2 then none else b.mode.loaderOk } }
    ((b1.setFld FWM.UPD_STS FWM.UPD_STS_REFUSE 0).setFld FWM.UPD_STS FWM.UPD_STS_KIB 0).updState 1

/-- The KiB that a block of `n` KiB at KiB `k` marks. -/
def kibBits (k n : Nat) : Nat := (2 ^ n - 1) * 2 ^ k

/-- A block breaks R457: offset or length not in whole KiB, empty, or past IMAGE_LEN. -/
def Block.blockBad (b : Block) (off n : Nat) : Bool :=
  off % 1024 ≠ 0 || n % 1024 ≠ 0 || n = 0 || b.fw.dlLen < off + n

/-- Write a block of the download and mark its KiB (R457). -/
def Block.updBlock (b : Block) (off : Nat) (bs : List Byte) : Block :=
  let rec' := b.fw.received ||| kibBits (off / 1024) (bs.length / 1024)
  let b1 := { b with nv := { b.nv with mem := Memory.writeN b.nv.mem (b.fw.dlBase + off) bs }
                     fw := { b.fw with received := rec' } }
  b1.setFld FWM.UPD_STS FWM.UPD_STS_KIB (popcount (b.fw.dlLen / 1024) rec')

/-- The header of a finished image, its facts copied from the image header (R453). -/
def Nv.completeHdr (n : Nv) (base len : Nat) (span : Bool) : SlotHdr :=
  { state := 2, span := span, len := len, version := n.le (base + 0x10) 4, svn := n.le (base + 0x14) 4 }

/-- FINISH (R457, R466). -/
def Block.updFinish (b : Block) : Block :=
  let kib := b.fw.dlLen / 1024
  if !b.receiving || b.fw.received % 2 ^ kib ≠ 2 ^ kib - 1 then b.updRefuse 4
  else
    let f := b.fw
    let span := f.dlTarget = 1 && 24 * 2 ^ 20 < f.dlLen
    let h := b.nv.completeHdr f.dlBase f.dlLen span
    let rec0 := b.nv.boot
    let nv1 := if f.dlTarget = 0 then b.nv.setHdr (1 - rec0.selected) h
      else if f.dlTarget = 1 then
        ((b.nv.setHdr 0 h).setHdr 1 (if span then h else {})).writeBoot
          { rec0 with layout := b2n span, selected := 0, trial := true, trialCount := 3, fallbackValid := false,
                      rejected := false }
      else b.nv
    let b1 := { b with nv := nv1 }
    ((b1.setFld FWM.UPD_STS FWM.UPD_STS_REFUSE 0).updState 2).event 0x62 0x0E 0x01
      (leBytes 1 f.dlTarget ++ leBytes 4 f.dlLen)

/-- ABORT, or a page soft reset of FWM, ends a download (R457). -/
def Block.updAbort (b : Block) : Block :=
  if b.receiving then ((b.setFld FWM.UPD_STS FWM.UPD_STS_REFUSE 0).updState 3).event 0x62 0x0E 0x02 [] else b

/-- ACTIVATE (R462, R474). -/
def Block.updActivate (b : Block) : Block :=
  let rec0 := b.nv.boot
  let other := 1 - rec0.selected
  if rec0.trial then b.updRefuse 1
  else if (b.nv.hdr other).state ≠ 2 || (b.nv.hdr other).span then b.updRefuse 4
  else if b.mode.mode = .faultHold then b.updRefuse 5
  else
    let b1 := b.writeBoot { rec0 with selected := other, trial := true, trialCount := 3, fallbackValid := true,
                                      rejected := false }
    (b1.setFld FWM.UPD_STS FWM.UPD_STS_REFUSE 0).event 0x62 0x0E 0x03
      (leBytes 1 other ++ leBytes 4 (b.nv.hdr other).version)

/-- The settings in SRAM go to the copy that SETTINGS_ACTIVE does not name, SEQ one higher (R463, R464). -/
def Block.saveInactive (b : Block) : Block :=
  let k := 1 - b.nv.boot.settingsActive
  let seq := match b.nv.settings b.nv.boot.settingsActive with
    | none => 0
    | some s => (s.seq + 1) % 2 ^ 32
  { b with nv := b.nv.setSettings k { format := b.fw.settingsWrite, seq := seq, records := b.fw.settings } }

/-- CONFIRM (R464, R467, R474). -/
def Block.updConfirm (b : Block) : Block :=
  let rec0 := b.nv.boot
  if b.flag FWM.FW_STS FWM.FW_STS_SETTINGS_INCOMPATIBLE then b.updRefuse 6
  else if !(b.flag FWM.FW_STS FWM.FW_STS_TRIAL || b.flag FWM.FW_STS FWM.FW_STS_QUARANTINE)
      || !b.flag FWM.FW_STS FWM.FW_STS_READY || b.mode.mode = .faultHold then b.updRefuse 5
  else
    let b1 := b.saveInactive.writeBoot
      { rec0 with trial := false, trialCount := 0, quarantine := false,
                  settingsActive := 1 - rec0.settingsActive, minSvn := max rec0.minSvn b.fw.svn }
    let b2 := ((b1.setFld FWM.FW_STS FWM.FW_STS_TRIAL 0).setFld FWM.FW_STS FWM.FW_STS_QUARANTINE 0).setFld
      FWM.UPD_STS FWM.UPD_STS_REFUSE 0
    b2.event 0x62 0x0E 0x06 (leBytes 4 b.fw.version)

/-- The effect of a write of UPD_CTL: START, FINISH, ABORT, ACTIVATE, CONFIRM, in bit order; the bits read 0 after. -/
def effUpdCtl (w : Word) (b : Block) : Block :=
  let t := b.fld FWM.UPD_CTL FWM.UPD_CTL_TARGET
  let b1 := b.setReg FWM.UPD_CTL (b.reg FWM.UPD_CTL &&& 0x300#32)
  let b2 := if fldGet FWM.UPD_CTL_START w = 1 then b1.updStart (b1.fld FWM.UPD_LEN FWM.UPD_LEN_LEN) t else b1
  let b3 := if fldGet FWM.UPD_CTL_FINISH w = 1 then b2.updFinish else b2
  let b4 := if fldGet FWM.UPD_CTL_ABORT w = 1 then b3.updAbort else b3
  let b5 := if fldGet FWM.UPD_CTL_ACTIVATE w = 1 then b4.updActivate else b4
  if fldGet FWM.UPD_CTL_CONFIRM w = 1 then b5.updConfirm else b5

/-- A confirmed image saves its settings: the inactive copy, then a boot record that switches (R463). -/
def Block.settingsSave (b : Block) (records : List Byte) : Block :=
  let rec0 := b.nv.boot
  if b.flag FWM.FW_STS FWM.FW_STS_TRIAL || b.flag FWM.FW_STS FWM.FW_STS_QUARANTINE
      || b.fld FWM.FW_STS FWM.FW_STS_RUNNING_SLOT = 15 || b.mode.scan then b
  else
    let b1 := { b with fw := { b.fw with settings := records, format := b.fw.settingsWrite } }
    b1.saveInactive.writeBoot { rec0 with settingsActive := 1 - rec0.settingsActive }

/-- FWM.SLOT_STSn.CHECK records a check's code (R452). -/
def Block.recordCheck (b : Block) (slot code : Nat) : Block :=
  let b1 := b.setFld (FWM.SLOT_STS slot) FWM.SLOT_STS_CHECK code
  b1.eventIf (code ≠ 0) 0x62 0x0E 0x04 [BitVec.ofNat 8 slot, BitVec.ofNat 8 code]

/-- A fall-back is counted, shown and reported with its reason (R455). -/
def Block.fellBack (b : Block) (reason : Nat) : Block :=
  (((b.satAdd FWM.FALLBACK_CNT 1).setFld FWM.BOOT_STS FWM.BOOT_STS_FALLBACK reason).intRaw 0x62 4).event
    0x62 0x0E 0x05 [BitVec.ofNat 8 reason]

/-- An image starts: it reads its settings or factory defaults, and an image on trial that cannot read them rejects
itself (R464, R465, R467). -/
def Block.startImage (b : Block) (slot : Nat) (defaults : Bool) : Block :=
  let rec0 := b.nv.boot
  let base := slotBase slot
  let n := b.nv
  let wr := n.le (base + 0x18) 4
  let rdMin := n.le (base + 0x1C) 4
  let copy := if defaults then none else n.settings rec0.settingsActive
  let fmt := match copy with
    | none => wr
    | some s => s.format
  let recs := match copy with
    | none => []
    | some s => s.records
  let bad := rec0.trial && copy.isSome && !(rdMin ≤ fmt && fmt ≤ wr)
  let f := { b.fw with settingsWrite := wr, settingsReadMin := rdMin, version := n.le (base + 0x10) 4,
                       svn := n.le (base + 0x14) 4, format := fmt, settings := recs, loaderDue := false,
                       restartWanted := bad, kickedAt := b.time.elapsed }
  let b1 := ((({ b with fw := f }.setFld FWM.FW_STS FWM.FW_STS_RUNNING_SLOT slot).setFld
    FWM.FW_STS FWM.FW_STS_TRIAL (b2n rec0.trial)).setFld FWM.FW_STS FWM.FW_STS_QUARANTINE (b2n rec0.quarantine)).setFld
    FWM.FW_STS FWM.FW_STS_SETTINGS_INCOMPATIBLE (b2n bad)
  let heldFmt := match n.settings rec0.settingsActive with
    | none => 0
    | some s => s.format
  let b2 := b1.eventIf rec0.quarantine 0x62 0x0E 0x08 (leBytes 4 heldFmt)
  if bad then (b2.event 0x62 0x0E 0x07 (leBytes 4 fmt)).writeBoot { rec0 with rejected := true } else b2

/-- The outcome of the loader: an image has started, or nothing did and the device goes to SPORE (R455). -/
inductive Loaded where
  | started
  | spore
deriving DecidableEq, Repr

/-- The fall-back part of the loader's sequence (R455). -/
def Block.fallBack (b : Block) (reason : Nat) (sigA sigB : Bool) : Block × Loaded :=
  let rec0 := b.nv.boot
  let sig (s : Nat) := if s = 0 then sigA else sigB
  let b0 := b.fellBack reason
  if rec0.fallbackValid then
    let o := 1 - rec0.selected
    let b1 := b0.writeBoot { rec0 with selected := o, trial := false, rejected := false, quarantine := false }
    let c := b1.nv.checkSlot o (sig o)
    let b2 := b1.recordCheck o c
    if c = 0 then (b2.startImage o false, .started) else (b2, .spore)
  else if !rec0.rejected then (b0, .spore)
  else if rec0.trialCount = 0 then (b0, .spore)
  else
    let b1 := b0.writeBoot { rec0 with rejected := false, quarantine := true, trialCount := rec0.trialCount - 1 }
    let c := b1.nv.checkSlot rec0.selected (sig rec0.selected)
    let b2 := b1.recordCheck rec0.selected c
    if c = 0 then (b2.startImage rec0.selected true, .started) else (b2, .spore)

/-- The loader chooses and starts an image (R455). `sigA` and `sigB` say whether each slot's signature verifies. -/
def Block.loader (b : Block) (sigA sigB : Bool) : Block × Loaded :=
  let rec0 := b.nv.boot
  let sig (s : Nat) := if s = 0 then sigA else sigB
  if rec0.trial && rec0.rejected then b.fallBack 2 sigA sigB
  else if rec0.trial && rec0.trialCount = 0 then b.fallBack 1 sigA sigB
  else
    let b1 := if rec0.trial then b.writeBoot { rec0 with trialCount := rec0.trialCount - 1 } else b
    let c := b1.nv.checkSlot rec0.selected (sig rec0.selected)
    let b2 := b1.recordCheck rec0.selected c
    if c ≠ 0 then b2.fallBack 3 sigA sigB
    else (b2.startImage rec0.selected rec0.quarantine, .started)

/-- The sorus cores reset: READY clears and no image runs until the loader has run (R470). -/
def Block.coreReset (b : Block) : Block :=
  let b1 := (((b.setFld FWM.FW_STS FWM.FW_STS_READY 0).setFld FWM.FW_STS FWM.FW_STS_RUNNING_SLOT 15).setFld
    FWM.FW_STS FWM.FW_STS_TRIAL 0).setFld FWM.FW_STS FWM.FW_STS_QUARANTINE 0
  { b1.setFld FWM.FW_STS FWM.FW_STS_SETTINGS_INCOMPATIBLE 0 with
      fw := { b1.fw with loaderDue := true, restartWanted := false, settings := [], format := 0 } }

/-- A firmware image runs: after boundary scan the sorus is held (R446, R508). -/
def Block.fwRuns (b : Block) : Bool := b.fld FWM.FW_STS FWM.FW_STS_RUNNING_SLOT ≠ 15 && !b.mode.scan

/-- The watchdog period begins anew (R446). -/
def Block.wdtRestart (b : Block) : Block := { b with fw := { b.fw with kickedAt := b.time.elapsed } }

/-- KICK restarts the watchdog period (R446). -/
def Block.kick (b : Block) : Block := b.wdtRestart.setFld FWM.WDT FWM.WDT_KICK 0

/-- A mailbox command ends with a code: state done (2) or failed (3), cause 2 of FWM (R472). -/
def Block.mbEnd (b : Block) (code : Nat) : Block :=
  ((b.setFld FWM.MB_STS FWM.MB_STS_STATE (if code = 0 then 2 else 3)).setFld FWM.MB_STS FWM.MB_STS_CODE code).intRaw 0x62 2

/-- A write of MB_CMD starts a command: busy, with its source; with no firmware ready it answers NOT_RUNNING (R471, R472). -/
def Block.mbStart (b : Block) (src : Source) : Block :=
  let cmd := b.fld FWM.MB_CMD FWM.MB_CMD_CMD
  if cmd = 0 then b
  else
    let b0 := { b with fw := { b.fw with mbAt := b.time.elapsed } }
    let b1 := (((b0.setFld FWM.MB_STS FWM.MB_STS_SOURCE (sourceCode src)).setFld FWM.MB_STS FWM.MB_STS_CODE 0).setFld
      FWM.MB_STS FWM.MB_STS_STATE 1)
    if !b.flag FWM.FW_STS FWM.FW_STS_READY then b1.mbEnd 1 else b1

/-- The mailbox works on a command (R472). -/
def Block.mbBusy (b : Block) : Bool := b.fld FWM.MB_STS FWM.MB_STS_STATE = 1

/-- The bytes of MB_DATA (R472). -/
def Block.mbData (b : Block) (n : Nat) : List Byte :=
  ((List.range 32).flatMap (fun j => leBytes 4 (b.reg (FWM.MB_DATA j)).toNat)).take n

/-- Store bytes in MB_DATA from its first byte; bytes past the last one keep their values. -/
def Block.setMbData (b : Block) (bs : List Byte) : Block :=
  (List.range (ceilDiv bs.length 4)).foldl
    (fun b j => b.setReg (FWM.MB_DATA j) (BitVec.ofNat 32 (leNat
      ((bs.drop (4 * j)).take 4 ++ (leBytes 4 (b.reg (FWM.MB_DATA j)).toNat).drop (bs.length - 4 * j))))) b

/-- A mailbox transfer ends: the arguments are checked, then the board's answer is stored (R472). `cmd` is the command
that must be running, `wr` says that it writes. -/
def Block.mbTransfer (b : Block) (cmd : Nat) (wr : Bool) (ans : BusAnswer) : Block :=
  if !b.mbBusy || b.fld FWM.MB_CMD FWM.MB_CMD_CMD ≠ cmd || b.mode.scan then b
  else
    let a0 := (b.reg FWM.MB_ARG0).toNat
    let a1 := (b.reg FWM.MB_ARG1).toNat
    let i2c := cmd ≤ 2
    let len := if i2c then a1 / 256 % 256 else 2
    let badArg := i2c && (len = 0 || 128 < len)
    if badArg then b.mbEnd 5
    else match ans with
      | .noModule => b.mbEnd 2
      | .nak => b.mbEnd 3
      | .ok data =>
        let unit := if i2c then a0 % 8 else 8 + a0 % 2
        let addr := if i2c then a0 / 8 * 256 + a1 % 256 else a0 / 16 * 65536 + a1 % 65536
        if wr then (b.emitOut (.bus unit addr (b.mbData len))).mbEnd 0
        else ((b.emitOut (.bus unit addr [])).setMbData (bytesAt data 0 len)).mbEnd 0

/-- The command did not end within 50 ms (R472). -/
def Block.mbTimeout (b : Block) : Block := if b.mbBusy && b.fw.mbAt + 50000000 ≤ b.time.elapsed then b.mbEnd 4 else b

end Sys2Proof.Machine
end

