-- ==== Sys2Proof/Machine/Ddr5.lean ====
section
/-! DEFINITION. The DDR5 system at work (R345 to R367): requests, refresh, holds, training, evacuation, failures and the map
record. -/

namespace Sys2Proof.Machine

/-- The newest valid map record (R339). -/
def Nv.mapNow (n : Nv) : Option MapRec :=
  match n.map0, n.map1 with
  | none, none => none
  | some r, none => some r
  | none, some r => some r
  | some x, some y => if seqLater y.seq x.seq then some y else some x

/-- A record goes into the copy that does not hold the newest valid one (R339). -/
def Nv.writeMap (n : Nv) (r : MapRec) : Nv :=
  match n.map0, n.map1 with
  | none, _ => { n with map0 := some r }
  | some _, none => { n with map1 := some r }
  | some x, some y => if seqLater y.seq x.seq then { n with map0 := some r } else { n with map1 := some r }

/-- A new map record, with SEQ one higher (R339). -/
def Block.writeMap (b : Block) : Block :=
  let seq := ((match b.nv.mapNow with | some r => r.seq | none => 0) + 1) % 2 ^ 32
  let r : MapRec := { seq := seq, entries := (upTo 16).map b.d5Phys, retired := b.fld D5M.RETIRED D5M.RETIRED_RETIRED }
  ({ b with nv := b.nv.writeMap r }.setReg D5M.MAP_SEQ (BitVec.ofNat 32 seq)).intRaw 0x84 1

/-- A logical channel is carried by a physical one from now on (R338). -/
def Block.mapTo (b : Block) (l k : Nat) : Block :=
  (b.setReg (D5M.MAP l) (BitVec.ofNat 32 (2 ^ 31 + k))).setFld (D5C.STS k) D5C.STS_LOGICAL l

/-- A physical channel carries no logical channel. -/
def Block.unLogical (b : Block) (k : Nat) : Block := b.setFld (D5C.STS k) D5C.STS_LOGICAL 0x1F

/-- The logical channel that a physical one carries (R338). -/
def Block.d5Logical (b : Block) (k : Nat) : Option Nat :=
  let l := b.fld (D5C.STS k) D5C.STS_LOGICAL
  if l < 16 then some l else none

/-- The lowest-numbered channel in a state. -/
def Block.d5First (b : Block) (st : Nat) : Option Nat := (upTo 17).find? (fun k => b.d5State k = st)

/-- A channel leaves self-refresh, and its MR4 is read anew (R353, R358, R362). -/
def Block.d5Wakes (b : Block) (k : Nat) : Block := (b.setD5Chan k { b.d5Chan k with mr4Tick := none }).groupTo (28 + k) 0
def Block.d5Sleeps (b : Block) (k : Nat) : Bool := b.groupState (28 + k) = 3

/-- An evacuation ends with a result (R358 to R361). -/
def Block.evacEnd (b : Block) (result : Nat) : Block :=
  match b.d5.evac with
  | none => b
  | some e =>
    let b1 := (b.withD5 { b.d5 with evac := none }).setFld D5M.EVAC_STS D5M.EVAC_STS_RESULT result
    ((b1.setFld D5M.EVAC_CTL D5M.EVAC_CTL_START 0).intRaw 0x84 0).event 0x84 9 5
      [BitVec.ofNat 8 e.source, BitVec.ofNat 8 e.target, BitVec.ofNat 8 result]

/-- The source of an evacuation that is abandoned stays ACTIVE, also where it is in a hold (R361). -/
def Block.sourceStays (b : Block) (k : Nat) : Block :=
  let x := b.d5Chan k
  if b.d5State k = d5Source then b.d5Shift k d5Active
  else if x.before = d5Source then b.setD5Chan k { x with before := d5Active } else b

/-- The failed channel's logical number is taken by a replacement that is copied anew from the pair partner (R362). -/
def Block.replaceBy (b : Block) (l r : Nat) : Block :=
  let b1 := ((b.d5Wakes r).mapTo l r).d5Shift r d5Remirror
  let b2 := b1.withD5 { b1.d5 with joining := b1.d5.joining ++ [l], remirror := b1.d5.remirror ++ [(l, 0)] }
  (b2.writeMap.event 0x84 9 2 [BitVec.ofNat 8 r, BitVec.ofNat 8 l]).event 0x84 9 7 [BitVec.ofNat 8 (l / 2)]

/-- The logical channel has lost its member: its peat is lost, and a replacement takes its number, or it is left unmapped, or its
pair has lost both members (R362 to R364).
DEDUCED, unsafe: log entry 122. -/
def Block.memberLost (b : Block) (l : Nat) (spare : Option Nat) : Block :=
  let partner := if l % 2 = 0 then l + 1 else l - 1
  let b1 := b.withD5 { b.d5 with joining := b.d5.joining.filter (fun m => m ≠ l)
                                 remirror := b.d5.remirror.filter (fun e => e.1 ≠ l) }
  let b2 := b1.withStore { b1.td.store with deadChans := l :: b1.td.store.deadChans.filter (fun m => m ≠ l) }
  let b3 := (b2.setReg (D5M.MAP l) 0#32).losePeat l
  if !b3.memberReads partner then
    (((b3.setFld D5M.STS D5M.STS_PAIR_LOST 1).intRaw 0x84 3).event 0x84 9 8 [BitVec.ofNat 8 (l / 2)]).fatal 0x82 0x84
  else match spare with
    | some r => b3.replaceBy l r
    | none => b3.event 0x84 9 7 [BitVec.ofNat 8 (l / 2)]

/-- A channel fails (R361 to R364). -/
def Block.chanFail (b : Block) (k cause : Nat) : Block :=
  let b1 := ((b.d5Shift k d5Failed).setFld (D5C.STS k) D5C.STS_CAUSE cause).event 0x84 9 1 [BitVec.ofNat 8 k, BitVec.ofNat 8 cause]
  let evac := b1.d5.evac
  let b2 := b1.evacEnd 5
  let b3 := match evac with
    | some e => if e.source = k then b2 else b2.sourceStays e.source
    | none => b2
  let spare := match evac with
    | some e => if e.target = k then none else some e.target
    | none => b3.d5First d5Spare
  let b4 := match b.d5Logical k with
    | some l => (b3.unLogical k).memberLost l spare
    | none => b3
  b4.follow40

/-- The DRAM of a logical channel's member holds a burst unit as a read is to find it, where its write queue does not hold it. -/
def Block.memberFlaw (b : Block) (l u : Nat) (e : EccSeen) : Block :=
  match b.d5Phys l with
  | some k => if b.d5Queued k u then b else b.d5Flaw k u e
  | none => b

/-- Link errors of a channel are counted (R348, R356). -/
def Block.linkErr (b : Block) (e : LinkErr) : Block :=
  let k := e.chan % 17
  let x := b.d5Chan k
  (b.setD5Chan k { x with errTick := x.errTick + 1 }).count (if e.parity then D5C.CA_PAR_LO k else D5C.WCRC_RETRY_LO k) 3

/-- A read of a unit that its channel's write queue does not hold goes to the DRAM, and a command/address parity error on its way is
retried and counted by its channel (R346, R348). -/
def Block.readParity (b : Block) (l u : Nat) (parity : List (Fin 17)) : Block :=
  match b.d5Phys l with
  | some k => if b.d5Queued k u then b else parity.foldl (fun x c => x.linkErr ⟨c.val, true⟩) b
  | none => b

/-- A read request of the table region (R345 to R348). `parity` are the channels that met a command/address parity error, `first` and
`second` what the DRAM holds in the member that the read goes to and in the other. -/
def Block.ddr5Read (b : Block) (a : Nat) (parity : List (Fin 17)) (first second : EccSeen) : Block :=
  if b.tableSize ≤ a then b
  else match b.d5Member a with
    | none => b
    | some l =>
      let u := d5Local b.d5TB a / 64
      let b1 := b.readParity l u parity
      let r := ((b1.memberFlaw l u first).memberFlaw (if l % 2 = 0 then l + 1 else l - 1) u second).d5UnitRead a
      if r.2 then r.1.linkWordLost a else r.1

/-- A write request of the table region (R345 to R347). In FAULT-HOLD no such traffic runs (R367). -/
def Block.ddr5Write (b : Block) (a : Nat) (bs : List Byte) (errs : List LinkErr) : Block :=
  if b.mode.mode = .faultHold || b.tableSize < a + bs.length then b
  else errs.foldl (fun x e => x.linkErr e) (b.d5Write a bs)

/-- Entries of the fuller write queue of a channel. -/
def Block.wqLevel (b : Block) (k : Nat) : Nat := max (b.d5Chan k).wqA.length (b.d5Chan k).wqB.length

def Block.owed (b : Block) (k : Nat) : Nat := b.fld (D5C.STS k) D5C.STS_OWED
def Block.hot (b : Block) (k : Nat) : Bool := b.flag (D5C.STS k) D5C.STS_HOT

/-- How many refreshes stay owed when a channel issues what it may: those that postponement allows, at most 4 (R350). -/
def Block.owedLeft (b : Block) (k n : Nat) : Nat :=
  if (b.d5Chan k).suspended then 0
  else if b.fld (D5C.WQ_CFG k) D5C.WQ_CFG_WQ_HIGH < b.wqLevel k then min n 4 else 0

/-- Postponement resumes once nothing is owed (R351, R352). -/
def Block.setOwed (b : Block) (k n : Nat) : Block :=
  let x := b.d5Chan k
  (b.setFld (D5C.STS k) D5C.STS_OWED n).setD5Chan k { x with suspended := x.suspended && decide (n ≠ 0) }

def Block.nextSlot (b : Block) (k : Nat) : Block :=
  let x := b.d5Chan k
  b.setD5Chan k { x with slot := x.slot + 1 }

/-- The next refresh slot of a channel has come: slot n at 1,950 n ns from its BRING-UP (R349).
DEDUCED, unsafe: log entry 209. -/
def Block.slotDue (b : Block) (k : Nat) : Bool := (b.d5Chan k).slotFrom + 1950 * (b.d5Chan k).slot ≤ b.time.elapsed

/-- A refresh slot of a channel (R349, R350, R352, R353). An odd slot at which a crossing takes effect is a command of its
own.
DEDUCED, unsafe: log entry 124. -/
def Block.refreshSlot (b : Block) (k : Nat) : Block :=
  let x := b.d5Chan k
  let odd := x.slot % 2 = 1
  if !b.slotDue k || (x.crossing.isSome && odd) then b
  else
    let b1 := b.nextSlot k
    if b.d5Sleeps k then b1
    else if b.hot k then
      let n := b.owed k + 1
      let left := b.owedLeft k n
      (b1.setOwed k left).countIf (decide (0 < left)) (D5C.POSTPONED_LO k) 3
    else if odd then (if x.suspended then b1.setOwed k (b.owed k - 1) else b1)
    else if x.suspended then b1
    else
      let left := b.owedLeft k (b.owed k + 1)
      (b1.setOwed k left).countIf (decide (0 < left)) (D5C.POSTPONED_LO k) 3

/-- Owed refreshes are issued once the write queue is at or below WQ_HIGH (R350); at the cool rate after a crossing they wait for
odd slots (R352). -/
def Block.owedIssue (b : Block) (k : Nat) : Block :=
  if (b.d5Chan k).suspended && !b.hot k then b
  else if b.wqLevel k ≤ b.fld (D5C.WQ_CFG k) D5C.WQ_CFG_WQ_HIGH then b.setOwed k 0 else b

/-- MR4 is read from every component of a channel (R351, R353): the refresh-rate field of the hottest, whether any asks for twice
the normal rate or more, and whether any reports a temperature above its operating range. -/
def Block.mr4Read (b : Block) (k field : Nat) (twice beyond : Bool) : Block :=
  let x := b.d5Chan k
  if b.d5Sleeps k || x.mr4Tick = some b.ticks then b
  else
    let b1 := b.setFld (D5C.TEMP k) D5C.TEMP_MR4 field
    let b2 := b1.setD5Chan k { x with crossing := if twice = b.hot k then none else some twice, mr4Tick := some b.ticks }
    if beyond then (b2.intRaw 0x64 2).eventOnce (0x0D0700 + k) 0x64 0x0D 7 [BitVec.ofNat 8 k] else b2

/-- At an odd slot a channel becomes hot: each owed refresh becomes two, all run at once, and the event is counted, reported and
logged (R351). -/
def Block.hotCrossing (b : Block) (k : Nat) : Block :=
  let x := b.d5Chan k
  if x.crossing = some true && x.slot % 2 = 1 && b.slotDue k then
    let n := min 8 (2 * b.owed k)
    let data := [BitVec.ofNat 8 k, BitVec.ofNat 8 n]
    let b1 := b.setD5Chan k { x with crossing := none, suspended := false, slot := x.slot + 1 }
    let b2 := ((b1.setFld (D5C.STS k) D5C.STS_HOT 1).setFld (D5C.STS k) D5C.STS_OWED 0).intRaw (0xA0 + k) 1
    ((b2.count (D5C.HOT_CROSSINGS_LO k) 3).event 0x84 9 3 data).logRec 9 3 0 data
  else b

/-- At an odd slot a channel becomes cool: what it owes is kept, and one refresh is issued in this and each later odd slot
(R352). -/
def Block.coolCrossing (b : Block) (k : Nat) : Block :=
  let x := b.d5Chan k
  if x.crossing = some false && x.slot % 2 = 1 && b.slotDue k then
    let n := b.owed k
    let b1 := b.setD5Chan k { x with crossing := none, suspended := decide (0 < n), slot := x.slot + 1 }
    let b2 := (b1.setFld (D5C.STS k) D5C.STS_HOT 0).intRaw (0xA0 + k) 1
    (b2.event 0x84 9 4 [BitVec.ofNat 8 k, BitVec.ofNat 8 n]).setOwed k (n - 1)
  else b

/-- The event of a hold; the codes of its outcome are not given, so that byte is a free value.
DESIGN CHOICE, safe: log entry 125. -/
def Block.holdEvent (b : Block) (k : Nat) : Block :=
  (b.event 0x84 9 9 [BitVec.ofNat 8 k, Config.freeByte b.draws 0]).drawn

/-- An in-place retrain of a live channel begins (R356). -/
def Block.holdStart (b : Block) (k : Nat) : Block :=
  let st := b.d5State k
  if st = d5Active || st = d5Source || st = d5Target || st = d5Remirror then
    let b1 := (b.setD5Chan k { b.d5Chan k with before := st, marked := [] }).d5Shift k d5Hold
    (b1.count (D5C.HOLDS_LO k) 3).holdEvent k
  else b

/-- Periodic calibration of a channel, at every tick (R355): a drift outside the tracking range starts a hold. -/
def Block.periodicCal (b : Block) (k : Nat) (inRange : Bool) : Block :=
  let x := b.d5Chan k
  if x.calTick = some b.ticks then b
  else
    let b1 := b.setD5Chan k { x with calTick := some b.ticks }
    if inRange then b1 else b1.holdStart k

/-- ZQ calibration (R355) changes nothing that the device shows. -/
def Block.zqCal (b : Block) (_k : Nat) : Block := b

/-- Link errors above ERR_LIMIT in a tick start a hold (R356). -/
def Block.hold (b : Block) (k : Nat) : Block :=
  if b.fld (D5C.WQ_CFG k) D5C.WQ_CFG_ERR_LIMIT < (b.d5Chan k).errTick then b.holdStart k else b

/-- The areas of a channel marked during a hold are copied from its partner: 64 burst units for each 4 KiB (R356). -/
def Block.copyMarked (b : Block) (k : Nat) : Block :=
  let units := (b.d5Chan k).marked.flatMap (fun p => (upTo 64).map (fun i => 64 * p + i))
  let from_ := (b.d5Logical k).bind (fun l => b.d5Phys (if l % 2 = 0 then l + 1 else l - 1))
  let b1 := units.foldl (fun x u => (match from_ with
    | some j => (x.d5Issue j u).1
    | none => x).d5Enq k u) b
  b1.setD5Chan k { b1.d5Chan k with marked := [] }

/-- A hold's retrain passes, and the marked areas are copied from the partner, or it fails (R356). In FAULT-HOLD no such copy runs
(R367). -/
def Block.holdEnd (b : Block) (k : Nat) (pass : Bool) : Block :=
  let x := b.d5Chan k
  if b.d5State k ≠ d5Hold || (b.mode.mode = .faultHold && !x.marked.isEmpty) then b
  else
    if pass then ((b.copyMarked k).d5Shift k x.before).holdEvent k
    else ((b.setD5Chan k { x with marked := [] }).holdEvent k).chanFail k 3

/-- The copy of a replacement's table area ends once its pointer has passed the whole area: its pair runs on both members again
(R362). -/
def Block.remirrorEnd (b : Block) (l : Nat) : Block :=
  let copied (e : Nat × Nat) : Bool := e.1 = l && (b.d5Cap - b.d5TB) / 64 ≤ copyUnits e.2
  if b.mode.mode = .faultHold || !(b.d5.remirror.any copied) then b
  else match b.d5Phys l with
    | none => b
    | some k =>
      if b.d5State k ≠ d5Remirror then b
      else
        let b1 := b.withD5 { b.d5 with remirror := b.d5.remirror.filter (fun e => e.1 ≠ l) }
        ((b1.d5Shift k d5Active).intRaw 0x84 2).event 0x84 9 6 [BitVec.ofNat 8 (l / 2)]

/-- A write of `D5Ck.CTL`: full training of a channel that is OUT, FAILED or UNTRAINED (R357). -/
def effD5cCtl (k : Nat) (src : Source) (w : WriteOut) (old : Word) (b : Block) : Block :=
  let b0 := b.setReg (D5C.CTL k) old
  if wf w.took D5C.CTL_RETRAIN = 0 then b0
  else
    let st := b.d5State k
    if st = d5Out || st = d5Failed || st = d5Untrained then
      let b1 := (b0.setFld (D5C.CTL k) D5C.CTL_RETRAIN 1).setD5Chan k { b0.d5Chan k with before := st }
      (b1.d5Shift k d5Training).d5TrainStart k
    else b0.captureAt (D5C.CTL k) src 0 1

/-- A training's result in the registers of its channel (R354). -/
def Block.trainShow (b : Block) (k : Nat) (t : D5Train) : Block :=
  let step := if t.pass then 0xB else max 1 (min 0xA t.step.toNat)
  let v := min 3 t.attempts.toNat * 2 ^ 24 + t.wrMargin.toNat * 2 ^ 16 + t.rdMargin.toNat * 2 ^ 8 + (if t.pass then 2 else 3) * 16 + step
  ((b.setReg (D5C.TRAIN_STS k) (BitVec.ofNat 32 v)).setFld (D5C.STS k) D5C.STS_TRAINED (b2n t.pass)).setFld
    (D5C.CTL k) D5C.CTL_RETRAIN 0

/-- Full training under R357 ends: SPARE, or FAILED with CAUSE 0x2. -/
def Block.trainingEnd (b : Block) (k : Nat) (t : D5Train) : Block :=
  if b.d5State k ≠ d5Training || !b.flag (D5C.CTL k) D5C.CTL_RETRAIN || !(b.d5Chan k).resetHigh then b
  else
    let b1 := b.trainShow k t
    if t.pass then (b1.d5Shift k d5Spare).follow40 else b1.chanFail k 2

/-- A sorus restart abandons full training: the channel stays in its earlier state (R357). -/
def Block.d5TrainingAbandoned (b : Block) : Block :=
  ((upTo 17).filter (fun k => b.d5State k = d5Training)).foldl (fun x k =>
    ((x.d5Shift k (x.d5Chan k).before).setFld (D5C.TRAIN_STS k) D5C.TRAIN_STS_RESULT 4).setFld (D5C.CTL k) D5C.CTL_RETRAIN 0) b

/-- Why an evacuation is refused, 0 for not at all, by the first case of R358 that applies. -/
def Block.evacRefusal (b : Block) (source : Nat) : Nat :=
  if b.d5State source ≠ d5Active then 4
  else if (b.d5First d5Spare).isNone then 3
  else if b.d5.evac.isSome || !b.d5.remirror.isEmpty || (b.d5First d5Hold).isSome then 4
  else if !(dataRuns b.mode.mode || decide (b.mode.mode = .quiescent)) then 7 else 0

/-- An evacuation begins, or is refused (R358). -/
def Block.evacStart (b : Block) (src : Source) : Block :=
  if b.d5.evac.isSome then b.captureBusy D5M.EVAC_CTL src 16
  else
    let source := b.fld D5M.EVAC_CTL D5M.EVAC_CTL_SOURCE
    let r := b.evacRefusal source
    match b.d5First d5Spare with
    | some t =>
      if r ≠ 0 then b.setFld D5M.EVAC_STS D5M.EVAC_STS_RESULT r
      else
        let e : Evac := { source := source, target := t, after := b.fld D5M.EVAC_CTL D5M.EVAC_CTL_AFTER, age := 0, copied := none }
        let b1 := ((b.withD5 { b.d5 with evac := some e }).d5Wakes t).d5Shift t d5Target
        let b2 := (b1.d5Shift source d5Source).setFld D5M.EVAC_CTL D5M.EVAC_CTL_START 1
        (b2.setReg D5M.EVAC_STS (BitVec.ofNat 32 (1 + t * 2 ^ 8))).follow40
    | none => b.setFld D5M.EVAC_STS D5M.EVAC_STS_RESULT r

/-- ABORT, or a page soft reset of D5M: the target returns to SPARE (R361). -/
def Block.evacAbort (b : Block) : Block :=
  match b.d5.evac with
  | none => b
  | some e =>
    let b1 := (b.evacEnd 6).sourceStays e.source
    (if b1.d5State e.target = d5Hold then b1.setD5Chan e.target { b1.d5Chan e.target with before := d5Spare }
     else b1.d5Shift e.target d5Spare).follow40

/-- A write of `D5M.EVAC_CTL`: ABORT, then START (R358, R361). -/
def effEvacCtl (src : Source) (w : WriteOut) (old : Word) (b : Block) : Block :=
  let b0 := (b.setFld D5M.EVAC_CTL D5M.EVAC_CTL_START (wf old D5M.EVAC_CTL_START)).setFld D5M.EVAC_CTL D5M.EVAC_CTL_ABORT 0
  let b1 := if wf w.took D5M.EVAC_CTL_ABORT = 1 then b0.evacAbort else b0
  if wf w.took D5M.EVAC_CTL_START = 1 then b1.evacStart src else b1

/-- The copy of the source's used capacity ends once the pointer has passed it (R359). -/
def Block.evacCopyEnd (b : Block) : Block :=
  match b.d5.evac with
  | some e =>
    if b.mode.mode = .faultHold || b.d5State e.source = d5Hold || e.copied.isSome || copyUnits e.age < b.d5Cap / 64 then b
    else b.withD5 { b.d5 with evac := some { e with copied := some b.ticks } }
  | none => b

/-- The copy has ended in an earlier tick (R360). -/
def Evac.moves (e : Evac) (tick : Nat) : Bool := match e.copied with
  | some t => decide (t < tick)
  | none => false

/-- At the tick after the copy the target takes the source's logical channel, a map record is written, and the source becomes
what AFTER said (R360). -/
def Block.evacMapChange (b : Block) : Block :=
  match b.d5.evac with
  | some e =>
    match b.d5Logical e.source with
    | some l =>
      if !e.moves b.ticks || b.mode.mode = .faultHold then b
      else
        let b1 := ((b.mapTo l e.target).d5Shift e.target d5Active).unLogical e.source
        let b2 := if e.after = 1 then b1.d5Shift e.source d5Spare
          else if e.after = 2 then ((b1.d5Shift e.source d5Retired).d5Pin e.source false).setFld D5M.RETIRED D5M.RETIRED_RETIRED
            (bitOn (b1.fld D5M.RETIRED D5M.RETIRED_RETIRED) e.source)
          else b1.d5Shift e.source d5Out
        (b2.writeMap.evacEnd 2).follow40
    | none => b
  | none => b

/-- A write of `D5M.RETIRE_CMD`: RETIRE, then RESTORE; a channel in any other state is captured under R11 (R366).
DEDUCED, unsafe: log entry 128. -/
def effRetire (src : Source) (w : WriteOut) (_old : Word) (b : Block) : Block :=
  let k := b.fld D5M.RETIRE_CMD D5M.RETIRE_CMD_CHANNEL
  let b0 := (b.setFld D5M.RETIRE_CMD D5M.RETIRE_CMD_RETIRE 0).setFld D5M.RETIRE_CMD D5M.RETIRE_CMD_RESTORE 0
  let mark (x : Block) (on : Bool) : Block :=
    let v := x.fld D5M.RETIRED D5M.RETIRED_RETIRED
    (x.setFld D5M.RETIRED D5M.RETIRED_RETIRED (if on then bitOn v k else bitOff v k)).writeMap
  let b1 :=
    if wf w.took D5M.RETIRE_CMD_RETIRE = 0 then b0
    else
      let st := b0.d5State k
      if k < 17 && (st = d5Spare || st = d5Out || st = d5Failed) then mark ((b0.d5Shift k d5Retired).d5Pin k false) true
      else b0.captureAt D5M.RETIRE_CMD src 0 1
  let b2 :=
    if wf w.took D5M.RETIRE_CMD_RESTORE = 0 then b1
    else if k < 17 && b1.d5State k = d5Retired then mark (b1.d5Shift k d5Untrained) false
    else b1.captureAt D5M.RETIRE_CMD src 0 1
  b2.follow40

/-- Entry to BRING-UP: the configuration is read, the contents are discarded, and the channels that the map record does not mark
RETIRED train (R337, R340, R354, R367). -/
def Block.d5BringUp (b : Block) : Block :=
  let retired := match b.nv.mapNow with | some r => r.retired | none => 0
  let b1 := b.withD5 { ({} : D5St) with cfg := b.reg D5M.CFG }
  let b2 := (upTo 17).foldl (fun x k =>
    if bitAt retired k then x.setFld (D5C.STS k) D5C.STS_STATE d5Retired
    else (x.setD5Chan k { x.d5Chan k with slotFrom := b.time.elapsed }).d5TrainStart k) b1
  (b2.setFld D5M.RETIRED D5M.RETIRED_RETIRED retired).setReg D5M.MAP_SEQ
    (BitVec.ofNat 32 (match b.nv.mapNow with | some r => r.seq | none => 0))

/-- The physical channel that each logical channel takes at BRING-UP, in logical order, given the record and the channels that
trained (R340). A trained channel that the record names stays with its logical channel, so no other takes it. -/
def assignChans (rec : List (Option Nat)) (trained : List Nat) : Nat → Nat → List (Option Nat) → List (Option Nat)
  | 0, _, done => done
  | n + 1, l, done =>
    let taken (k : Nat) : Bool := done.contains (some k) || rec.contains (some k)
    let pick :=
      match (rec[l]?).getD none with
      | some k => if trained.contains k then some k else trained.find? (fun j => !taken j)
      | none => trained.find? (fun j => !taken j)
    assignChans rec trained n (l + 1) (done ++ [pick])

/-- The channels that train at BRING-UP: those not marked RETIRED (R354). -/
def Block.d5Tried (b : Block) : List Nat := (upTo 17).filter (fun k => !bitAt (b.fld D5M.RETIRED D5M.RETIRED_RETIRED) k)

/-- Every channel that trains is past step 1: its reset is released (R354, R500). -/
def Block.d5Stepped (b : Block) : Bool := b.d5Tried.all (fun k => (b.d5Chan k).resetHigh)

/-- BRING-UP's training ends and logical channels are assigned (R337, R340, R354, R364).
DEDUCED, unsafe: log entry 126. -/
def Block.d5Assign (b : Block) (ts : List D5Train) : Block :=
  let tried := b.d5Tried
  let result (k : Nat) : D5Train := (ts[k]?).getD ⟨true, 1, 0, 0, 0⟩
  let b1 := tried.foldl (fun x k =>
    let y := x.trainShow k (result k)
    if (result k).pass then y
    else (((y.d5Shift k d5Failed).setFld (D5C.STS k) D5C.STS_CAUSE 1).event 0x84 9 1 [BitVec.ofNat 8 k, 1#8])) b
  let trained := tried.filter (fun k => (result k).pass)
  let rec_ := match b.nv.mapNow with
    | some r => r.entries
    | none => (upTo 16).map (fun k => some k)
  let map := assignChans rec_ trained 16 0 []
  let b2 := (map.zipIdx).foldl (fun x (e : Option Nat × Nat) =>
    match e.1 with
    | some k => (x.mapTo e.2 k).d5Shift k d5Active
    | none => x.setReg (D5M.MAP e.2) 0#32) b1
  let rest := trained.filter (fun k => !map.contains (some k))
  let b3 := match rest with
    | [] => b2
    | k :: _ => b2.d5Shift k d5Spare
  let b5 := match b.nv.mapNow with
    | some r => if r.entries = map then b3 else b3.writeMap
    | none => b3.writeMap
  let unpaired := (upTo 8).any (fun p => (b5.d5Phys (2 * p)).isNone && (b5.d5Phys (2 * p + 1)).isNone)
  let single := (upTo 8).filter (fun p => (b5.d5Phys (2 * p)).isNone != (b5.d5Phys (2 * p + 1)).isNone)
  let b6 := single.foldl (fun x p => x.event 0x84 9 7 [BitVec.ofNat 8 p]) b5
  (b6.setFld D5M.STS D5M.STS_CFG_FAIL (b2n b6.cfgFails)).setFld D5M.STS D5M.STS_UNUSABLE (b2n (b6.cfgFails || unpaired))

/-- A page soft reset of D5M: an evacuation is aborted and a re-mirror restarts from its first line (R361, R367). -/
def Block.d5mPageReset (b : Block) : Block :=
  let b1 := b.evacAbort
  b1.withD5 { b1.d5 with remirror := b1.d5.remirror.map (fun e => (e.1, 0)) }

/-- A page soft reset of D5Ck: its counters clear (R367).
DEDUCED, unsafe: log entry 127. -/
def Block.d5cPageReset (b : Block) (k : Nat) : Block := b.clearRange ((0xA0 + k) * 0x10000 + 0x400) ((0xA0 + k) * 0x10000 + 0x447)

/-- What a tick does to the channels: replacements take peat writes from it on, and link errors are counted anew (R356, R362). -/
def Block.d5Tick (b : Block) : Block :=
  let join := b.d5.joining
  let chans : List (Nat × D5Chan) := b.d5.chans
  let b1 := b.withStore { b.td.store with deadChans := b.td.store.deadChans.filter (fun l => !join.contains l) }
  (chans.filter (fun e => e.2.errTick ≠ 0)).foldl (fun x e => x.setD5Chan e.1 { e.2 with errTick := 0 })
    (b1.withD5 { b1.d5 with joining := [] })

/-- PERCENT copied (R358): a unit counts once the pointer has passed it. -/
def Block.evacPercent (b : Block) : Nat :=
  match b.d5.evac with
  | some e => if e.copied.isSome then 100 else min 100 (100 * (64 * copyUnits e.age) / max 1 b.d5Cap)
  | none => if b.fld D5M.EVAC_STS D5M.EVAC_STS_RESULT = 2 then 100 else b.fld D5M.EVAC_STS D5M.EVAC_STS_PERCENT

end Sys2Proof.Machine
end

