-- ==== Sys2Proof/Machine/Admission.lean ====
section
/-! DEFINITION. Admission and assembly of packets at the queue manager (R181 to R184, R201, R202, R269), and its record
commands (R215). -/

namespace Sys2Proof.Machine

/-- The grounds on which a packet is dropped at its SOP cell, in the order of R183. -/
inductive DropStep where
  | disabled
  | poolFull
  | tailFull
  | tailLimit
  | curve (colour : Nat)
deriving DecidableEq, Repr

/-- The device counter of a drop (R183). -/
def DropStep.counter : DropStep → Nat
  | .disabled => QMG.C_DISABLED_LO
  | .poolFull => QMG.C_POOL_FULL_LO
  | .tailFull => QMG.C_TAIL_FULL_LO
  | .tailLimit => QMG.C_TAIL_LIMIT_LO
  | .curve c => QMG.C_CURVE_GREEN_LO + 8 * c

/-- A packet's colour: 0 green, 1 yellow, 2 red (R201). -/
def Block.colour (b : Block) (metaW : Nat) : Nat :=
  if b.flag QMG.COLOR_SRC QMG.COLOR_SRC_ENABLE then
    min 2 (metaW >>> b.fld QMG.COLOR_SRC QMG.COLOR_SRC_POS % 4)
  else 0

/-- A ← A + ((D − A) >> W), in 1/256 of a cell, the shift toward minus infinity (R202).
DESIGN CHOICE, unsafe: log entry 61. -/
def nextAvg (a d w : Nat) : Nat := (Int.toNat ((a : Int) + ((d * 256 : Int) - a) / (2 ^ w : Nat)))

/-- One advance of the drop generator: a 32-bit Galois LFSR with the polynomial x³² + x²² + x² + x + 1, in one of its two forms
(R202). -/
def lfsrStep (g : Word) : Word :=
  if Config.lfsrRight then (g >>> 1) ^^^ (if g.getLsbD 0 then 0x80200003#32 else 0#32)
  else (g <<< 1) ^^^ (if g.getMsbD 0 then 0x00400007#32 else 0#32)

/-- The colour curve of R202: the packet is dropped, and the drop generator after it.
DESIGN CHOICE, safe: log entry 17. -/
def Block.curveDrops (b : Block) (dp c avg : Nat) : Bool × Word :=
  let mn := b.dpWord dp (2 + 2 * c) % 2 ^ 28
  let mx := b.dpWord dp (3 + 2 * c) % 2 ^ 28
  let prob := b.dpWord dp 1 / 2 ^ (10 * c) % 2 ^ 10
  let g := BitVec.ofNat 32 b.td.store.lfsr
  if mx = 0 then (false, g)
  else if avg < 8 * mn * 256 then (false, g)
  else if 8 * mx * 256 ≤ avg then (true, g)
  else
    let g' := lfsrStep g
    let r := g'.toNat % 2 ^ 16
    let q := prob * (avg - 8 * mn * 256) * 64 / (8 * (mx - mn) * 256)
    (decide (r < q), g')

/-- The tests of R183 in their order: the step that drops the packet, if any, and the state with A and the drop generator
brought up to date by the tests that were reached. -/
def Block.admitTests (b : Block) (q cells metaW : Nat) (enabled : Bool) : Option DropStep × Block :=
  let x := b.queue q
  let tail := if x.spilling then x.tail.length + x.reserved + cells else x.depth + cells - b.headCells q
  let dp := b.qDropProf q
  let lim := b.dpWord dp 0 % 2 ^ 28
  if !enabled then (some .disabled, b)
  else if b.poolFree (b.qPool q) < cells then (some .poolFull, b)
  else if b.tailCells q < tail then (some .tailFull, b)
  else if lim ≠ 0 && 8 * lim < x.depth + cells then (some .tailLimit, b)
  else
    let a := nextAvg x.avg x.depth (b.dpWord dp 0 / 2 ^ 28 % 2 ^ 4)
    let c := b.colour metaW
    let r := b.curveDrops dp c a
    let b1 := b.setQueue q { x with avg := a }
    let b2 := b1.withStore { b1.td.store with lfsr := r.2.toNat }
    (if r.1 then some (.curve c) else none, b2)

/-- The assembly context of a stream: 0 to 31 the FD→TD wire groups, 32 on the re-sequencer contexts (R181). -/
def Block.assembly (b : Block) (s : Nat) : Option Assembly := NMap.get none b.td.store.assembling s

/-- Replace an assembly context. -/
def Block.setAssembly (b : Block) (s : Nat) (a : Option Assembly) : Block :=
  b.withStore { b.td.store with assembling := NMap.set none b.td.store.assembling s a }

/-- The packet in assembly on a stream is discarded whole: its stored cells are freed and its reservation released; its
later cells are discarded as they come (R184). -/
def Block.discardAssembly (b : Block) (s : Nat) (done : Bool) : Block :=
  match b.assembly s with
  | none => b
  | some a =>
    let b1 := a.addrs.foldl (fun x k => x.swardFree k) b
    let x := b1.queue a.queue
    let b2 := if a.dropping then b1 else b1.setQueue a.queue { x with reserved := x.reserved - a.cells }
    (b2.setAssembly s (if done then none
      else some { a with addrs := [], left := 0, cells := 0, dropping := true })).touch a.queue

/-- Begin a packet on a stream: the tests of R183, and its reservation (R184). -/
def Block.startPacket (b : Block) (s q pktLen metaW tag : Nat) (enabled eop : Bool) : Block :=
  let n := cellsOf pktLen
  let r := (b.discardAssembly s true).admitTests q n metaW enabled
  match r.1 with
  | some st =>
    ((r.2.count st.counter 0).qDrops q 1).setAssembly s
      (if eop then none else some ⟨q, b.qPool q, [], 0, 0, true, 0, tag⟩)
  | none =>
    let x := r.2.queue q
    ((r.2.setQueue q { x with reserved := x.reserved + n }).setAssembly s
      (some ⟨q, b.qPool q, [], n, n, false, 0, tag⟩)).touch q

/-- Give the cells of a finished packet their CSEQ, with the rind that goes with it (R311, R313). -/
def Block.giveSeq (b : Block) (q : Nat) : List Nat → Nat → Block × List Slot
  | [], _ => (b, [])
  | a :: r, n =>
    let c := b.swardAt a
    let cs := n % 2 ^ 16
    let b1 := b.swardPut a { c with rind := rindMove (.sward q 0 a) (.sward q cs a) c c false }
    let t := Block.giveSeq b1 q r (n + 1)
    (t.1, ⟨a, cs⟩ :: t.2)

/-- The whole packet is pushed onto the tail of its queue (R181, R182). -/
def Block.pushPacket (b : Block) (s : Nat) (a : Assembly) : Block :=
  let r := b.giveSeq a.queue a.addrs (b.queue a.queue).seqIn
  let x := r.1.queue a.queue
  let y := { x with reserved := x.reserved - a.cells, packets := x.packets + 1
                    seqIn := (x.seqIn + a.addrs.length) % 2 ^ 16 }
  let z := if x.spilling then { y with tail := y.tail ++ r.2 } else { y with head := y.head ++ r.2 }
  ((r.1.setQueue a.queue z).setAssembly s none).touch a.queue

/-- A cell of an admitted packet is stored (R184): it consumes one reserved cell; a cell beyond the reservation is a credit
violation, and an EOP cell before its end is a length mismatch. -/
def Block.storeCell (b : Block) (s : Nat) (from_ : Place) (old c : Cell) : Block :=
  match b.assembly s with
  | none => b
  | some a =>
    if a.dropping then
      if c.eop then b.setAssembly s none else b
    else if a.left = 0 then
      let b1 := ((b.count QMG.C_LEN_MISMATCH_LO 0).count QMG.C_OVERRUN_LO 0).intRaw 0x80 1
      (b1.setFld QMG.STS QMG.STS_OVERRUN 1).discardAssembly s c.eop
    else if c.eop && 1 < a.left then (b.count QMG.C_LEN_MISMATCH_LO 0).discardAssembly s true
    else
      let k := b.freeAddr
      let c' := { c with rind := rindMove from_ (.sward a.queue 0 k) old c false }
      let a' := { a with addrs := a.addrs ++ [k], left := a.left - 1, idx := a.idx + 1 }
      let b1 := (b.swardPut k c').setAssembly s (some a')
      if c.eop then b1.pushPacket s a' else b1

/-- A cell that a check rejects on arrival is discarded with its packet (R184, R319). -/
def Block.rejectCell (b : Block) (s : Nat) (sop eop : Bool) (q : Nat) : Block :=
  if sop then (b.discardAssembly s true).setAssembly s (if eop then none else some ⟨q, b.qPool q, [], 0, 0, true, 0, 0⟩)
  else b.discardAssembly s eop

/-- A cell arrives from a wire group (R183): its rind is verified against the group's own counts (R311, R312). -/
def Block.arriveBridge (b : Block) (g : Nat) (seen : Seen) : Block :=
  let x := b.group 0 g
  match wholeCell x.fifo with
  | none => b
  | some (c, n) =>
    let b1 := b.popChunks 0 g n
    let a := b1.assembly g
    let idx := if c.sop then 0 else (match a with | some y => y.idx | none => c.idx)
    let tag := if c.sop then x.rxTag else (match a with | some y => y.tag | none => x.rxTag)
    let q := if c.sop then c.queue else (match a with | some y => y.queue | none => c.queue)
    let y := b1.group 0 g
    let b2 := if c.sop then b1.setGroup 0 g { y with rxTag := (x.rxTag + 1) % 2 ^ 16 } else b1
    let dead := !c.sop && (match a with | some z => z.dropping | none => true)
    if dead then (if c.eop then b2.setAssembly g none else b2)
    else
      let p := Place.bridgeIn q idx g tag
      let v := verify p c seen
      let b3 := b2.chkBridge 1 v q idx g
      if v.bad then b3.rejectCell g c.sop c.eop q
      else
        let b4 := if c.sop then b3.startPacket g q c.pktLen c.metaW tag (b3.qEnabled q) c.eop else b3
        b4.storeCell g p c c

/-- The queue and enable that a packet from the fabric selects: the EQ_MAP entry of its port and class; a VOQ or an invalid
entry drops it as DISABLED (R178, R269). -/
def Block.fabricQueue (b : Block) (port cls : Nat) : Nat × Bool :=
  let a := KCL.EQ_MAP (8 * port + cls)
  let q := b.fld a KCL.EQ_MAP_QUEUE
  (q, b.flag a KCL.EQ_MAP_VALID && b.voqCount ≤ q && b.qEnabled q)

/-- A re-sequencer context. -/
def Block.reseq (b : Block) (i : Nat) : Reseq := NMap.get {} b.td.fab.contexts i

/-- Replace a re-sequencer context. -/
def Block.setReseq (b : Block) (i : Nat) (x : Reseq) : Block :=
  { b with td := { b.td with fab := { b.td.fab with contexts := NMap.set {} b.td.fab.contexts i x } } }

/-- A cell that the re-sequencer has delivered arrives at the queue manager (R181, R183, R269, R311). -/
def Block.arriveFabric (b : Block) (i : Nat) (seen : Seen) : Block :=
  let x := b.reseq i
  match x.delivered with
  | [] => b
  | f :: rest =>
    let s := 32 + i
    let b1 := b.setReseq i { x with delivered := rest }
    let a := b1.assembly s
    let fq := b1.fabricQueue f.port f.cls
    let q := if f.sop then fq.1 else (match a with | some y => y.queue | none => 0)
    let idx := if f.sop then 0 else (match a with | some y => y.idx | none => 0)
    let dead := !f.sop && (match a with | some z => z.dropping | none => true)
    if dead then (if f.eop then b1.setAssembly s none else b1)
    else
      let p := Place.fabric (b1.fld KCL.CTL KCL.CTL_DEV_ID) (i / 8) (i % 8) f.seq
      let old : Cell := { queue := q, sop := f.sop, eop := f.eop, pktLen := f.pktLen, idx := idx, pay := f.pay
                          rind := f.rind }
      let v := verify p old seen
      let b2 := b1.chkCount 4 v (leBytes 4 q) idx
      if v.bad then b2.rejectCell s f.sop f.eop q
      else
        let c := { old with recirc := 0, epoch := b.fd.prog.epoch
                            metaW := if f.sop then f.metaW else 0 }
        let b3 := if f.sop then b2.startPacket s q f.pktLen f.metaW 0 fq.2 f.eop else b2
        b3.storeCell s p old c

/-- A cell from a producer stream arrives (R183). -/
def Block.cellArrival (b : Block) (s : Nat) (seen : Seen) : Block :=
  if b.mode.mode = .faultHold then b
  else if s < 32 then b.arriveBridge s seen
  else b.arriveFabric (s - 32) seen

/-- The words that a READ of the record commands loads (R215). -/
def Block.profWords (b : Block) (kind i : Nat) : List Nat :=
  match kind with
  | 0 => [NMap.get 0 b.td.store.records i]
  | 1 => NMap.get storeProfReset b.td.store.storeProf i
  | 2 => NMap.get [0, 0, 0, 0, 0, 0, 0, 0] b.td.store.dropProf i
  | _ =>
    let x := b.queue i
    let v := b.spillView i
    [x.depth, x.packets,
     min v.1.length (2 ^ 13 - 1) + min v.2.length (2 ^ 13 - 1) * 2 ^ 16 + b2n x.spilling * 2 ^ 29 + b2n x.level * 2 ^ 30
       + b2n x.crossed * 2 ^ 31,
     8 * x.middle.length, x.avg / 256, x.drops % 2 ^ 32, x.drops / 2 ^ 32 + b2n x.dropWrap * 2 ^ 31,
     min (x.fetchCells + x.writeCells) (2 ^ 13 - 1)]

/-- The indices of a record kind (R215). -/
def profIndexOk (kind i : Nat) : Bool :=
  match kind with
  | 0 => i < 1048576
  | 1 => i < 256
  | 2 => i < 64
  | _ => i < 1048576

/-- A storage profile's first word that breaks R194, if any. -/
def storeProfBad (w : List Nat) : Option Nat :=
  let head := w.getD 0 0 % 2 ^ 13
  let tail := w.getD 0 0 / 2 ^ 16 % 2 ^ 13
  let pe := bitAt (w.getD 0 0) 31
  let pf := w.getD 1 0 % 2 ^ 13
  let sp := w.getD 1 0 / 2 ^ 16 % 2 ^ 13
  let m8 (n : Nat) : Bool := n % 8 = 0
  if !(m8 head && 8 ≤ head && head ≤ 4096 && (!pe || pf + 8 ≤ head)) then some 0
  else if !(m8 tail && 64 ≤ tail && tail ≤ 4096) then some 0
  else if !(m8 sp && 8 ≤ sp && sp + 8 ≤ tail) then some 1
  else if !(m8 pf && pf ≤ 4096 && (!pe || (64 ≤ pf && pf + 8 ≤ head))) then some 1
  else if !m8 (w.getD 2 0) then some 2
  else if w.getD 3 0 = 0 then some 3
  else none

/-- A drop profile's first word that breaks its rules: a MIN above its MAX. -/
def dropProfBad (w : List Nat) : Option Nat :=
  ([2, 4, 6].find? (fun k => decide (w.getD (k + 1) 0 % 2 ^ 28 < w.getD k 0 % 2 ^ 28)))

/-- The bits of a record word that exist (R10, R215). -/
def profMask (kind w v : Nat) : Nat :=
  match kind, w with
  | 0, 0 => v % 2 ^ 19 - (v % 4 - v % 2)
  | 1, 0 => v % 2 ^ 13 + v / 2 ^ 16 % 2 ^ 13 * 2 ^ 16 + v / 2 ^ 31 % 2 * 2 ^ 31
  | 1, 1 => v % 2 ^ 13 + v / 2 ^ 16 % 2 ^ 13 * 2 ^ 16
  | 1, 2 => v
  | 1, 3 => v
  | 1, 4 => v % 4
  | 2, 0 => v
  | 2, 1 => v % 2 ^ 30
  | 2, _ => v % 2 ^ 28
  | _, _ => 0

/-- Status of the record commands: done, or failed with the first word that broke a rule (R215). -/
def Block.profSts (b : Block) (failed : Option Nat) : Block :=
  match failed with
  | none => b.setReg QMG.PROF_STS 2
  | some w => (b.setReg QMG.PROF_STS 3).setFld QMG.PROF_STS QMG.PROF_STS_FAIL_WORD w

/-- `PROF_CMD.READ` (R215). -/
def Block.profRead (b : Block) : Block :=
  let kind := b.fld QMG.PROF_SEL QMG.PROF_SEL_KIND
  let i := b.fld QMG.PROF_SEL QMG.PROF_SEL_INDEX
  if !profIndexOk kind i then b.profSts (some 0)
  else
    let ws := b.profWords kind i
    ((upTo 8).foldl (fun x k => x.setReg (QMG.PROF_W k) (BitVec.ofNat 32 (ws.getD k 0))) b).profSts none

/-- `PROF_CMD.WRITE` (R179, R194, R215): the whole record is checked before anything is written. -/
def Block.profWrite (b : Block) : Block :=
  let kind := b.fld QMG.PROF_SEL QMG.PROF_SEL_KIND
  let i := b.fld QMG.PROF_SEL QMG.PROF_SEL_INDEX
  let ws := (upTo 8).map (fun k => profMask kind k (b.reg (QMG.PROF_W k)).toNat)
  if !profIndexOk kind i then b.profSts (some 0)
  else match kind with
    | 0 =>
      let w := ws.getD 0 0
      let x := b.queue i
      if w / 2 ^ 16 % 2 ^ 3 ≠ b.qPool i && !(x.depth = 0) then b.profSts (some 0)
      else ((b.withStore { b.td.store with records := NMap.set 0 b.td.store.records i w }).profSts none).touch i
    | 1 =>
      (match storeProfBad ws with
        | some k => b.profSts (some k)
        | none =>
          let b1 := b.withStore { b.td.store with storeProf := NMap.set storeProfReset b.td.store.storeProf i (ws.take 5) }
          ((b1.td.store.queues.map (fun e => e.1)).foldl (fun y q => if y.qStoreProf q = i then y.wmCheck q else y) b1).profSts
            none)
    | 2 =>
      (match dropProfBad ws with
        | some k => b.profSts (some k)
        | none =>
          (b.withStore { b.td.store with
            dropProf := NMap.set [0, 0, 0, 0, 0, 0, 0, 0] b.td.store.dropProf i ws }).profSts none)
    | _ => b.profSts (some 0)

/-- `PROF_CMD.CLEAR_WM` (R204): CROSSED clears and both notices are re-armed. -/
def Block.profClearWm (b : Block) : Block :=
  let i := b.fld QMG.PROF_SEL QMG.PROF_SEL_INDEX
  if b.fld QMG.PROF_SEL QMG.PROF_SEL_KIND = 3 && profIndexOk 3 i then
    (b.setQueue i { b.queue i with crossed := false, fellTold := false }).profSts none
  else b.profSts (some 0)

/-- `PROF_CMD.CLEAR_WRAP` (R215). -/
def Block.profClearWrap (b : Block) : Block :=
  let i := b.fld QMG.PROF_SEL QMG.PROF_SEL_INDEX
  if b.fld QMG.PROF_SEL QMG.PROF_SEL_KIND = 3 && profIndexOk 3 i then
    (b.setQueue i { b.queue i with dropWrap := false }).profSts none
  else b.profSts (some 0)

/-- How long a record command takes: up to 1 µs, a free value (R215, R243).
DESIGN CHOICE, safe: log entry 194. -/
def Block.cmdTime (b : Block) : Nat := (Config.freeValue b.draws).toNat % 1001

/-- A record command of QMG has not completed (R215). -/
def Block.profBusy (b : Block) : Bool := b.time.elapsed < b.td.store.profUntil

/-- The effect of a write of `QMG.PROF_CMD`: WRITE, then the clears, then READ; a command while one is busy is discarded and
captured (R215).
DEDUCED, unsafe: log entry 60. -/
def effProfCmd (src : Source) (w : WriteOut) (_old : Word) (b : Block) : Block :=
  let b0 := b.setReg QMG.PROF_CMD 0
  let has (f : Fld) : Bool := fldGet f w.took ≠ 0
  let any := has QMG.PROF_CMD_WRITE || has QMG.PROF_CMD_READ || has QMG.PROF_CMD_CLEAR_WM || has QMG.PROF_CMD_CLEAR_WRAP
  if !any then b0
  else if b.profBusy then b0.captureBusy QMG.PROF_CMD src 0
  else
    let b1 := if has QMG.PROF_CMD_WRITE then b0.profWrite else b0
    let b2 := if has QMG.PROF_CMD_CLEAR_WM then b1.profClearWm else b1
    let b3 := if has QMG.PROF_CMD_CLEAR_WRAP then b2.profClearWrap else b2
    let b4 := if has QMG.PROF_CMD_READ then b3.profRead else b3
    (b4.withStore { b4.td.store with profUntil := b.time.elapsed + b.cmdTime }).drawn

/-- The effect of a write of `QMG.RAND_SEED`: the drop generator is loaded (R202). -/
def effRandSeed (w : WriteOut) (_old : Word) (b : Block) : Block :=
  if w.codeLsb.isSome then b else b.withStore { b.td.store with lfsr := w.value.toNat }

/-- Whether a write of VOQ_COUNT takes effect: in QUIESCENT with every queue empty, and a multiple of 1,024 up to the number of
queues (R177). -/
def Block.qsplitOk (b : Block) (v : Nat) : Bool :=
  b.mode.mode = .quiescent && b.td.store.queues.all (fun e => e.2.depth = 0) && v % 1024 = 0 && v ≤ 1048576

/-- Whether a pool limit leaves the sum of the limits within the sward's pool cells (R186). -/
def Block.poolLimitOk (b : Block) (p v : Nat) : Bool :=
  (upTo 8).foldl (fun n k => n + if k = p then v else b.poolLimit k) 0 ≤ 638976

end Sys2Proof.Machine
end

