-- ==== Sys2Proof/Machine/Eligible.lean ====
section
/-! DEFINITION. Which nodes of the scheduler are eligible, in which phase, and who is chosen (R218, R220 to R223). -/

namespace Sys2Proof.Machine

/-- A queue's path ends at a node of the wrong kind (R218). -/
def Block.misplaced (b : Block) (q : Nat) : Bool :=
  let p := b.pathEnd q
  let fabric := 256 ≤ p && p ≤ 263
  if q < b.voqCount then !fabric else fabric || 280 ≤ p

/-- The MAC port bound to a logical port, if that is its source (R280). -/
def Block.macOfLport (b : Block) (p : Nat) : Option Nat :=
  let a := LIN.LPORT_MAP (p / 32) (p % 32)
  if b.fld a LIN.LPORT_MAP_KIND = 1 then some (16 * (p / 32) + b.fld a LIN.LPORT_MAP_MAC) else none

/-- A pause of a class, or 8 for a plain pause, stands on a port (R236). -/
def Block.pauseOn (b : Block) (p cls : Nat) : Bool :=
  match b.macOfLport p with
  | some k => NMap.get 0 b.td.sched.pauses (16 * k + cls) ≠ 0
  | none => false

/-- A queue is paused (R236). -/
def Block.qPaused (b : Block) (q : Nat) : Bool :=
  let p := b.pathEnd q
  let c := b.nodePfc q
  p < 256 && (b.pauseOn p 8 || (c < 8 && b.pauseOn p c))

/-- A queue is offered: the EOP cell of its oldest packet is in the head (R193). -/
def Block.offered (b : Block) (q : Nat) : Bool := (b.headPacket q).isSome

/-- What an L1 node needs beside ENABLE and its peak bucket (R220), reachability apart. -/
def Block.queueReady (b : Block) (q : Nat) : Bool :=
  !b.misplaced q && b.offered q && !b.qPaused q && (b.voqCount ≤ q || 0 < (b.voq q).balance)

/-- A profile that is all zeros, as every profile is at reset (R226). -/
def Block.profEmpty (b : Block) (p : Nat) : Bool := b.shpRate p = 0 && b.shpBurst p = 0 && b.shpAdj p = 0

/-- A node's peak bucket is not negative (R220); PEAK_PROF 0 gives no limit, and an all-zero profile lets no packet depart before
BURST is raised (R226). -/
def Block.peakOk (b : Block) (l i : Nat) : Bool :=
  b.nodePeak l i = 0 || (0 ≤ (b.nodeNow l i).peak && !b.profEmpty (b.nodePeak l i))

/-- A node is in its committed phase (R221). -/
def Block.committed (b : Block) (l i : Nat) : Bool := b.nodeCommit l i ≠ 0 && 0 ≤ (b.nodeNow l i).commit

/-- PKT_LEN of the packet at the head of a queue. -/
def Block.headLen (b : Block) (q : Nat) : Nat :=
  match b.headPacket q with
  | some (s :: _) => (b.swardAt s.addr).pktLen
  | _ => 0

/-- The held choice of a LINE port that stands: its queue still offers the packet on an enabled path to the port (R235).
DEDUCED, unsafe: log entry 195. -/
def Block.heldOf (b : Block) (p : Nat) : Option Nat :=
  (b.egf p).held.filter (fun q => b.offered q && b.nodeEn 0 q && !b.misplaced q && b.pathEnd q = p)

/-- The word credit conditions of a LINE node (R209, R235): CREDIT_MIN, and a held choice that can go: the credits have reached its need, or
never will, and its queue is not paused (R236). -/
def Block.creditsOk (b : Block) (p : Nat) : Bool :=
  let x := b.egf p
  b.creditMin p ≤ x.tdCredits
    && (match b.heldOf p with
      | none => true
      | some q =>
        let need := creditNeed (b.headLen q)
        !b.qPaused q && (need ≤ x.tdCredits || 32 * x.share < need))

/-- The enabled children of a node, in index order. -/
def Block.children (b : Block) (l i : Nat) : List Nat :=
  (b.td.sched.nodes.filter (fun e => e.1 / 2 ^ 20 = l - 1 && b.nodeEn (l - 1) (e.1 % 2 ^ 20)
    && b.nodeParent (l - 1) (e.1 % 2 ^ 20) = i)).map (fun e => e.1 % 2 ^ 20)

/-- A node is eligible (R220, R261). -/
def Block.eligible (b : Block) : Nat → Nat → Bool
  | 0, q => b.nodeEn 0 q && b.peakOk 0 q && b.queueReady q && (b.voqCount ≤ q || b.reachable (b.voqDev q))
  | l + 1, i =>
    b.nodeEn (l + 1) i && b.peakOk (l + 1) i && (l + 1 ≠ 4 || 256 ≤ i || b.creditsOk i)
      && (b.children (l + 1) i).any (fun c => Block.eligible b l c)

/-- The eligible children of a node. -/
def Block.eligibleKids (b : Block) (l i : Nat) : List Nat := (b.children l i).filter (fun c => b.eligible (l - 1) c)

/-- The rank of a child among its siblings: committed before excess, then PRIO (R222). -/
def Block.rank (b : Block) (l i : Nat) : Nat := (if b.committed l i then 0 else 8) + b.nodePrio l i

/-- The eligible children that deficit round robin chooses among, with their rank (R222). -/
def Block.contenders (b : Block) (l i : Nat) : Nat × List Nat :=
  let ks := b.eligibleKids l i
  let r := ks.foldl (fun m c => min m (b.rank (l - 1) c)) 16
  (r, ks.filter (fun c => b.rank (l - 1) c = r))

/-- Deficit round robin over a set (R223): the pointer stays on a child whose DEFICIT is above 0, and moves on otherwise,
giving WEIGHT × 64 to each child it reaches. `l` is the children's level. -/
def Block.drr (b : Block) (l set : Nat) (cs : List Nat) : Nat → Block × Nat
  | 0 => (b, cs.headD 0)
  | fuel + 1 =>
    let p := NMap.get none b.td.sched.pointers set
    let here := match p with
      | some c => cs.contains c && decide (0 < (b.nodeSt l c).deficit)
      | none => false
    if here then (b, p.getD 0)
    else
      let c := match p with
        | none => cs.headD 0
        | some k => ((cs.filter (fun j => k < j)).head?).getD (cs.headD 0)
      let x := b.nodeSt l c
      let b1 := b.setNodeSt l c { x with deficit := x.deficit + b.nodeWeight l c * 64 }
      Block.drr (b1.withSched { b1.td.sched with pointers := NMap.set none b1.td.sched.pointers set (some c) }) l set cs fuel

/-- Choose from a node down to a queue (R222): the state after the pointers have moved, and the queue. -/
def Block.descend (b : Block) : Nat → Nat → Block × Option Nat
  | 0, q => (b, some q)
  | l + 1, i =>
    let k := b.contenders (l + 1) i
    if k.2.isEmpty then (b, none)
    else
      let r := b.drr l (nodeKey (l + 1) i * 16 + k.1) k.2 (257 * k.2.length + 1)
      Block.descend r.1 l r.2

/-- A child that has stopped being eligible has its DEFICIT set to 0 (R223). -/
def Block.deficitCheck (b : Block) : Block :=
  b.td.sched.nodeSt.foldl (fun y e =>
    let l := e.1 / 2 ^ 20
    let i := e.1 % 2 ^ 20
    if e.2.deficit ≠ 0 && !b.eligible l i then y.setNodeSt l i { y.nodeSt l i with deficit := 0 } else y) b

end Sys2Proof.Machine
end

