-- ==== Sys2Proof/Machine/Bridge.lean ====
section
/-! DEFINITION. The stipe bridge: chunks, slots, credits and crossing FIFOs (R19 to R25), the drift event and half width
(R29 to R33), and the cells that leave storage for a wire group (R193, R234, R319). -/

namespace Sys2Proof.Machine

/-- The chunks of a cell: its header chunk, then its payload in 32-byte chunks (R21). -/
def cellChunks (c : Cell) : List Chunk :=
  let body := chunksOf 32 8 c.pay
  let n := body.length
  ⟨some { c with pay := [] }, [], decide (n = 0), 0⟩
    :: body.zipIdx.map (fun e => ⟨none, e.1, decide (e.2 + 1 = n), 0⟩)

/-- The bridge beside its registers. -/
def Block.withBridge (b : Block) (x : BridgeSt) : Block := { b with fd := { b.fd with bridge := x } }

/-- Cells join those waiting to cross on a wire group (R315). -/
def Block.sendCells (b : Block) (d g : Nat) (cs : List Cell) : Block :=
  let x := b.group d g
  b.setGroup d g { x with waiting := x.waiting ++ (cs.map cellChunks).flatten }

/-- A PARENT write that waited for the end of a packet takes effect (R224): `key` names the node. -/
def Block.applyMove (b : Block) (key : Nat) : Block :=
  match b.td.sched.moves.find? (fun m => m.1 = key) with
  | none => b
  | some m =>
    let rec0 := NMap.get [0x10, 0, 0, 0] b.td.sched.nodes key
    let w1 := rec0.getD 1 0
    b.withSched { b.td.sched with
      nodes := NMap.set [0x10, 0, 0, 0] b.td.sched.nodes key (rec0.set 1 (w1 - w1 % 2 ^ 17 + m.2))
      moves := b.td.sched.moves.filter (fun k => k.1 ≠ key) }

/-- A packet in departure on some wire group whose path has a node (R224). -/
def Block.nodeSending (b : Block) (l i : Nat) : Bool :=
  (upTo 32).any (fun g => (b.group 1 g).departing.any (fun d => (b.queue d.queue).sending && b.pathNode d.queue l = i))

/-- PARENT writes of nodes that send no packet any more take effect (R224), the grants of the ports follow (R241), and a child that
stops being eligible loses its DEFICIT (R223). -/
def Block.movesSettle (b : Block) : Block :=
  let due := b.td.sched.moves.filter (fun m => !b.nodeSending (m.1 / 2 ^ 20) (m.1 % 2 ^ 20))
  let b1 := due.foldl (fun y m => y.applyMove m.1) b
  (if due.isEmpty then b1 else b1.stopChecks).deficitCheck

/-- The last cell of a queue's packet has left (R193).
DEDUCED, unsafe: log entry 67. -/
def Block.endSending (b : Block) (q : Nat) : Block := (b.setQueue q { b.queue q with sending := false }).movesSettle

/-- The next cell of a packet in departure is read from the sward, verified in its place, and its rind moved to the wire
group (R311 to R313). If the first cell fails the packet is dropped; a later failing cell and those after it go out with
inverted rinds (R319). The packet's entry is the one at position `i`. -/
def Block.departCell (b : Block) (g i : Nat) (seen : Seen) : Block × List Chunk :=
  let x := b.group 1 g
  match x.departing[i]? with
  | none => (b, [])
  | some d =>
    match (b.queue d.queue).head with
    | [] => (b, [])
    | s :: rest =>
      let c := b.swardAt s.addr
      let p := Place.sward d.queue s.cseq s.addr
      let v := verify p c seen
      if v.bad && d.idx = 0 then
        let b1 := (b.chkCount 2 v (leBytes 4 d.queue) 0).dropHeadPacket d.queue
        let y := b1.group 1 g
        let b2 := (b1.setGroup 1 g { y with departing := y.departing.eraseIdx i }).endSending d.queue
        (if d.outNone then b2 else b2.refund d.outLport d.credits, [])
      else
        let poison := d.poison || v.bad
        let b1 := if d.poison && v.bad then b else b.chkCount 2 v (leBytes 4 d.queue) d.idx
        let q := b1.queue d.queue
        let last := decide (d.left ≤ 1)
        let b2 := (b1.setQueue d.queue { q with head := rest, packets := if last then q.packets - 1 else q.packets }).swardFree
          s.addr
        let tag := if d.idx = 0 then x.txTag else d.tag
        let r := rindMove p (.bridgeOut d.queue d.idx g tag) c c false
        let out := { c with rind := if poison then ~~~r else r }
        let d' := { d with left := d.left - 1, idx := d.idx + 1, tag := tag, poison := poison }
        let y := b2.group 1 g
        let y1 := if d.idx = 0 then { y with txTag := (y.txTag + 1) % 2 ^ 16
                                             announced := y.announced ++ [(d.outLport, d.outNone, d.credits)] } else y
        let y2 := { y1 with departing := if last then y1.departing.eraseIdx i else y1.departing.set i d' }
        let b3 := ((b2.setGroup 1 g y2).starveCheck d.queue).touch d.queue
        (if last then b3.endSending d.queue else b3, cellChunks out)

/-- The weight of a packet in departure: the primary entries that its L5 node owns in the slice's departure calendar, and at least one
(R234). -/
def Block.departWeight (b : Block) (k q : Nat) : Nat :=
  let p := b.pathEnd q
  max 1 (b.calPrimaries (SCH.CAL_ACTIVE k 0) (if p < 256 then p % 32 else if p < 272 then 0x20 else 0x21))

/-- Chunks are cut for a TD→FD group whose line has run dry, from a packet in departure. The interleaving is weighted: in a round each
packet of the group sends as many cells as its weight; `pick` says which of those with cells left in the round is next (R234).
DESIGN CHOICE, unsafe: log entry 196. -/
def Block.refill (b : Block) (d g pick : Nat) (seen : Seen) : Block :=
  let x := b.group d g
  if d = 1 && x.waiting.isEmpty && !x.departing.isEmpty then
    let ds := if x.departing.any (fun e => 0 < e.quota) then x.departing
      else x.departing.map (fun e => { e with quota := b.departWeight (g / 4) e.queue })
    let may := (upTo ds.length).filter (fun i => (ds[i]?).any (fun e => 0 < e.quota))
    let i := may.getD (pick % may.length) 0
    let b1 := b.setGroup 1 g { x with departing := ds.modify i (fun e => { e with quota := e.quota - 1 }) }
    let r := b1.departCell g i seen
    let y := r.1.group 1 g
    r.1.setGroup 1 g { y with waiting := y.waiting ++ r.2 }
  else b

/-- A saturating 32-bit count. -/
def sat32 (n : Nat) : Nat := min n 0xFFFFFFFF

/-- An owned slot comes round (R25): the skid buffer drains first; without a credit a new chunk goes to the skid buffer, or waits where that
is full.
DESIGN CHOICE, unsafe: log entry 41. -/
def Block.bridgeSlot (b0 : Block) (d g pick : Nat) (seen : Seen) : Block :=
  if b0.mode.mode = .faultHold then b0
  else
    let drains : Bool := 0 < (b0.group d g).credits && !(b0.group d g).skid.isEmpty
    let b := if drains then b0 else b0.refill d g pick seen
    let x := b.group d g
    let send (c : Chunk) : List Chunk := x.flight ++ [{ c with seq := x.seq }]
    if 0 < x.credits then
      match x.skid, x.waiting with
      | c :: r, _ =>
        (b.setGroup d g { x with skid := r, flight := send c, credits := x.credits - 1, seq := (x.seq + 1) % 2 ^ 16 }).pmc (0x0C + d) g 1
      | [], c :: r =>
        (b.setGroup d g { x with waiting := r, flight := send c, credits := x.credits - 1, seq := (x.seq + 1) % 2 ^ 16 }).pmc (0x0C + d) g 1
      | [], [] => b.pmc (0x0C + d) g 0
    else
      match x.waiting with
      | [] => b
      | c :: r =>
        let b1 := if x.skid.length < 16 then b.setGroup d g { x with waiting := r, skid := x.skid ++ [c] } else b
        (b1.withBridge { b1.fd.bridge with stallCnt := sat32 (b1.fd.bridge.stallCnt + 1) }).driftEvent g 3

/-- The bytes of a chunk as they arrive, changed by errors that the link did not see. -/
def Chunk.flip (c : Chunk) (fl : List (Nat × Byte)) : Chunk := { c with bytes := flipBytes c.bytes fl }

/-- The oldest chunk sent on a group arrives at the crossing FIFO (R24, R206): a full FIFO is a credit violation; fewer than 4
free entries fire the drift event (R29). Cells of packets already admitted go on to the egress packet store. -/
def Block.bridgeArrive (b : Block) (d g : Nat) (fl : List (Nat × Byte)) : Block :=
  let x := b.group d g
  if b.mode.mode = .faultHold then b
  else match x.flight with
    | [] => b
    | c :: rest =>
      if 48 ≤ x.fifo.length then
        let b1 := (b.setGroup d g { x with flight := rest, fails := 0 }).setFld BRG.STS BRG.STS_CREDIT_VIOL 1
        (b1.withBridge { b1.fd.bridge with violCnt := sat32 (b1.fd.bridge.violCnt + 1) }).driftEvent g 4
      else
        let n := x.fifo.length + 1
        let b1 := b.setGroup d g { x with flight := rest, fifo := x.fifo ++ [c.flip fl], fails := 0 }
        let b2 := if 48 < n + 4 then b1.driftEvent g 2 else b1
        if d = 1 then b2.storeCells g 48 else b2

/-- The receiver returns a credit that it owes (R23). -/
def Block.bridgeCredit (b : Block) (d g : Nat) : Block :=
  let x := b.group d g
  if b.mode.mode = .faultHold || x.owed = 0 then b
  else b.setGroup d g { x with owed := x.owed - 1, credits := x.credits + 1 }

/-- The switch to half width that a drift event with AUTO_HALF set has made due (R30); the mode follows R40. -/
def Block.toHalf (b : Block) : Block :=
  if b.fd.bridge.halfDue && coreOn b.mode.mode && decide (b.mode.mode ≠ .faultHold) then
    (((b.withBridge { b.fd.bridge with halfDue := false }).setFld BRG.STS BRG.STS_HALF 1).setReg SCH.PACE_STS 0xFF).follow40
  else b

/-- A chunk that arrives at half width with an uncorrectable error is replayed (R30); the third replay in a row that fails
declares the bridge failed (R32). -/
def Block.chunkReplay (b : Block) (d g : Nat) : Block :=
  let x := b.group d g
  if !b.flag BRG.STS BRG.STS_HALF || x.flight.isEmpty || b.mode.mode = .faultHold then b
  else if 3 ≤ x.fails then b.fatal 0x81 3
  else b.setGroup d g { x with fails := x.fails + 1, replays := sat32 (x.replays + 1) }

/-- The effect of a write of `BRG.CTL`: WIDTH_REQ starts a return to full width (R33); at full width it ends at once. -/
def effBrgCtl (w : WriteOut) (old : Word) (b : Block) : Block :=
  if fldGet BRG.CTL_WIDTH_REQ w.took ≠ 0 && fldGet BRG.CTL_WIDTH_REQ old = 0 then
    if b.flag BRG.STS BRG.STS_HALF then b.follow40 else b.setFld BRG.CTL BRG.CTL_WIDTH_REQ 0
  else b

/-- The effect of a write of `BRG.STS`: clearing DRIFT re-arms FIRST_GROUP and FIRST_CAUSE (R29). -/
def effBrgSts (w : WriteOut) (_old : Word) (b : Block) : Block :=
  if fldGet BRG.STS_DRIFT w.took ≠ 0 then
    (b.setFld BRG.STS BRG.STS_FIRST_GROUP 0).setFld BRG.STS BRG.STS_FIRST_CAUSE 0
  else b

/-- The retrain and the 1 ms test toward full width end (R33): on a pass the groups switch at the tick boundary. -/
def Block.fullWidthReturn (b : Block) (passed : Bool) : Block :=
  if !b.flag BRG.CTL BRG.CTL_WIDTH_REQ || b.mode.mode = .faultHold then b
  else if passed then
    (((b.setFld BRG.CTL BRG.CTL_WIDTH_REQ 0).setFld BRG.STS BRG.STS_HALF 0).setReg SCH.PACE_STS 0).follow40
  else ((b.setFld BRG.CTL BRG.CTL_WIDTH_REQ 0).setFld BRG.STS BRG.STS_WIDTH_FAIL 1).follow40

/-- A wire group's forwarded clock loses lock: a drift event with cause 6, and the switch that AUTO_HALF calls for (R29,
R30). -/
def Block.clockLockLoss (b : Block) (g : Nat) : Block :=
  if coreOn b.mode.mode && decide (b.mode.mode ≠ .faultHold) then b.driftEvent g 6 else b

end Sys2Proof.Machine
end

