-- ==== Sys2Proof/Machine/Fabric.lean ====
section
/-! DEFINITION. The fabric side and the Klotex cell link: lane states (R253 to R258), planes and reach (R259 to R262), staging
and spraying (R263 to R266), re-sequencing (R267 to R271), and arriving cells (R246 to R252). -/

namespace Sys2Proof.Machine

/-- The cell link acts in every mode with the core on, but for the frozen FAULT-HOLD (R274). -/
def Block.fabLive (b : Block) : Bool := coreOn b.mode.mode && decide (b.mode.mode ≠ .faultHold)

/-- Planes that are up, and planes with an UP lane, one bit each (R259). -/
def Block.planesUp (b : Block) : Nat :=
  (upTo 12).foldl (fun u p => if b.fld KCL.CTL KCL.CTL_MIN_LINKS ≤ b.planeLinks p then bitOn u p else u) 0
def Block.planesAny (b : Block) : Nat := (upTo 12).foldl (fun u p => if 0 < b.planeLinks p then bitOn u p else u) 0

/-- The registers and reports that follow the lanes (R259, R260): the UP bits, the planes, and the reachable set, which was
`reach` before. -/
def Block.fabShow (b : Block) (reach : Nat) : Block :=
  let was := b.fld KCL.PLANE_STS KCL.PLANE_STS_UP
  let now := b.planesUp
  let b1 := (upTo 12).foldl (fun y n =>
    y.setFld (FAB.STS n) FAB.STS_UP ((upTo 8).foldl (fun u l => if b.laneUp (8 * n + l) then bitOn u l else u) 0)) b
  let b2 := (b1.setFld KCL.PLANE_STS KCL.PLANE_STS_UP now).setFld KCL.PLANE_STS KCL.PLANE_STS_ANY b.planesAny
  let b3 := (b2.intRawIf (was ≠ now) 0x83 2).intRawIf (reach ≠ b.reachUnion) 0x83 3
  let b4 := (upTo 12).foldl (fun y p =>
    if bitAt now p && !bitAt was p then y.event 0x83 6 3 [BitVec.ofNat 8 p]
    else if !bitAt now p && bitAt was p then y.event 0x83 6 4 [BitVec.ofNat 8 p] else y) b3
  if was = now then b4 else b4.follow40

/-- A lane moves to a state, with its interrupt (FABn INT_RAW). -/
def Block.laneTo (b : Block) (l st : Nat) : Block :=
  if b.laneState l = st then b
  else
    ((b.setFld (laneSts l) FAB.LANE_STS_STATE st).intRaw (0x90 + l / 8) (l % 8)).setLane l
      { b.lane l with since := b.time.elapsed, sinceTick := b.ticks, heard := b.time.elapsed, heardTick := b.ticks }

/-- What a lane gives up as it leaves UP: its map, its place in the spraying, and its unsent cells (R260, R262). -/
def Block.laneLeaves (b : Block) (l : Nat) : Block :=
  let x := b.lane l
  let b1 := b.setLane l { x with reach := 0, spraying := false, tx := [], bits := 0, owed := 0, lastControl := false
                                 crcTick := 0, goodRun := 0, badRun := 0, locked := false, trained := false, rx := .start
                                 farMask := none, told := false, farOk := false, load := 0 }
  b1.withFab { b1.td.fab with again := b1.td.fab.again ++ x.tx }

/-- The byte that event 0x02 carries for a CAUSE: PARTNER, which shares code 7 with a reset, is told apart as 8 (the model's
code). -/
def causeByte (cause : Nat) (partner : Bool) : Nat := if partner then 8 else cause

/-- A lane goes DOWN with a cause, and from there to WAIT at once (R253, R256); event 0x02. -/
def Block.laneFall (b : Block) (l cause : Nat) (partner : Bool) : Block :=
  let r := b.reachUnion
  let b1 := ((b.laneTo l 1).setFld (laneSts l) FAB.LANE_STS_CAUSE cause).laneLeaves l
  let b2 := b1.event (0x90 + l / 8) 6 2 (leBytes 1 (l / 8) ++ leBytes 1 (l % 8) ++ leBytes 1 (causeByte cause partner))
  ((b2.setCredits l 0).laneTo l 6).fabShow r

/-- The rates that a lane offers: at or below MAX_RATE as it stands, untried or good in this bring-up (R255). -/
def Block.rateMask (b : Block) (l : Nat) : Nat :=
  (b.lane l).mask &&& (2 ^ (b.fld (laneCfg l) FAB.LANE_CFG_MAX_RATE + 1) - 1)

/-- The highest rate in a mask, if any. -/
def topRate (m : Nat) : Option Nat :=
  if bitAt m 2 then some 2 else if bitAt m 1 then some 1 else if bitAt m 0 then some 0 else none

/-- A lane enters TRAIN at a rate (R253 to R255). -/
def Block.laneTrain (b : Block) (l rate : Nat) : Block :=
  let x := b.lane l
  ((b.setLane l { x with farMask := none, told := false, goodRun := 0, badRun := 0, locked := false, trained := false
                         rx := .start, said := none }).setFld
    (laneSts l) FAB.LANE_STS_RATE rate).laneTo l 2

/-- A bring-up begins: at 53.125 Gbit/s with every rate untried (R255). -/
def Block.laneStart (b : Block) (l : Nat) : Block := (b.setLane l { b.lane l with mask := 7 }).laneTrain l 0

/-- The lane's ENABLE as it is written (R253, R256). -/
def Block.laneEnable (b : Block) (l : Nat) (en : Bool) : Block :=
  if en then (if b.laneState l = 0 then b.laneStart l else b)
  else if b.laneState l = 0 then b
  else
    let r := b.reachUnion
    let b1 := if b.laneState l = 5 then b.laneFall l 1 false else b
    (((b1.laneLeaves l).setCredits l 0).laneTo l 0).fabShow r

/-- The effect of a write of a lane's `LANEl_CFG`. -/
def effFabLane (l : Nat) (w : WriteOut) (old : Word) (b : Block) : Block :=
  let en := fldGet FAB.LANE_CFG_ENABLE w.value
  if en = fldGet FAB.LANE_CFG_ENABLE old then b else b.laneEnable l (en = 1)

/-- Training or codeword lock has come: the lane sends codewords, and with both it enters HELLO (R253). -/
def Block.laneReady (b : Block) (l : Nat) (trained locked : Bool) : Block :=
  let x := b.lane l
  let b1 := b.setLane l { x with trained := x.trained || trained, locked := x.locked || locked }
  let b2 := if b.laneTalks l || !(b1.lane l).trained then b1 else b1.laneStream l
  if (b2.lane l).trained && (b2.lane l).locked then b2.laneTo l 3 else b2

/-- Training ends, with codeword lock or with the lock still to come (R246, R253); a failure or 500 ms without lock takes the rate
off the mask and trains again at the highest left, or goes DOWN at 53.125 Gbit/s (R254, R255).
DEDUCED, unsafe: log entry 199. -/
def Block.laneTrained (b : Block) (l : Nat) (r : Trained) : Block :=
  if !b.fabLive || b.laneState l ≠ 2 || b.groupState (8 + l / 8) ≠ 0 then b
  else match r with
    | .locked => b.laneReady l true true
    | .waits => b.laneReady l true false
    | .failed =>
      if b.laneRate l = 0 then b.laneFall l 6 false
      else
        let x := b.lane l
        let b1 := b.setLane l { x with mask := bitOff x.mask (b.laneRate l) }
        match topRate (b1.rateMask l) with
        | some r => b1.laneTrain l r
        | none => b.laneFall l 6 false

/-- Both ends have seen the other's HELLO: the highest rate in both masks decides (R255, R258). -/
def Block.laneMeet (b : Block) (l : Nat) : Block :=
  let x := b.lane l
  match x.told, x.farMask with
  | true, some m =>
    (match topRate (b.rateMask l &&& m) with
      | none => b
      | some r =>
        if r = b.laneRate l then (b.setCredits l x.farCredits).laneTo l 4 else b.laneTrain l r)
  | _, _ => b

/-- An error on a lane in PROBATION takes it DOWN (R253). The spec names no cause for it: a free value.
DESIGN CHOICE, safe: log entry 74. -/
def Block.probationError (b : Block) (l : Nat) : Block :=
  (b.drawn).laneFall l ((Config.freeValue b.draws).toNat % 8) false

/-- One more in lane counter `k` of the four, in offset order: CRC_ERR, FEC_CORR, FEC_UNCORR, RESYNC. -/
def Block.laneCount (b : Block) (l k : Nat) : Block :=
  let a := FAB.CRC_ERR (l / 8) (l % 8) + 4 * k
  let y := b.framerAdd a (FAB.SAT (l / 8) (l % 8)) k 1
  y.intRawIf (y.reg a = 0xFFFFFFFF#32) (0x90 + l / 8) 8

/-- An uncorrectable codeword: its cells and the one in progress are lost; 8 in a row lose codeword lock, which takes an UP lane
DOWN, and one takes a lane in PROBATION DOWN (R246, R247, R253, R256). -/
def Block.codewordBad (b : Block) (l : Nat) : Block :=
  let x := b.lane l
  let held := x.locked && decide (x.badRun < 7)
  let b1 := (b.laneCount l 2).setLane l
    { x with goodRun := 0, badRun := x.badRun + 1, locked := held, rx := if x.locked then .skip else x.rx }
  if b.laneState l = 4 then b1.probationError l
  else if b.laneState l = 5 && !held then b1.laneFall l 2 false
  else b1

/-- A good codeword, clean or corrected: 4 in a row gain codeword lock (R246). -/
def Block.codewordGood (b : Block) (l : Nat) (corrected : Bool) : Block :=
  let x := b.lane l
  let b1 := (if corrected then b.laneCount l 1 else b).setLane l { x with goodRun := x.goodRun + 1, badRun := 0 }
  if x.locked || x.goodRun < 3 then b1
  else if b.laneState l = 2 then b1.laneReady l false true
  else b1.setLane l { b1.lane l with locked := true }

/-- A cell whose LINK_CRC fails is discarded and counted, and the receiver skips to the next FIRST_HDR (R247); more than
ERR_LIMIT in a tick take an UP lane DOWN, and any one a lane in PROBATION (R253, R256). -/
def Block.crcFail (b : Block) (l : Nat) : Block :=
  let x := b.lane l
  let b1 := (b.laneCount l 0).setLane l { x with crcTick := x.crcTick + 1, rx := .skip }
  if b.laneState l = 4 then b1.probationError l
  else if b.laneState l = 5 && b.fld (laneCfg l) FAB.LANE_CFG_ERR_LIMIT < x.crcTick + 1 then b1.laneFall l 4 false
  else b1

/-- What every arriving cell does to its link, and what it then does if it can be trusted: the credits it returns and, for a
cell that is not IDLE, the credit owed for it (R258).
DEDUCED, unsafe: log entry 76. -/
def Block.cellIn (b : Block) (rx : CellRx) (idle : Bool) (act : Block → Block) : Block :=
  let l := rx.lane
  if 96 ≤ l || !b.fabLive || b.laneState l < 3 || 5 < b.laneState l then b
  else if (b.lane l).rx = .skip then b
  else if !rx.crcOk then b.crcFail l
  else
    let b1 := b.setCredits l (b.laneCredits l + rx.ret)
    let x := b1.lane l
    act (if idle then b1 else b1.setLane l { x with owed := x.owed + 1 })

/-- A cell that is all header (R248, R258): IDLE, or a reserved TYPE, which is discarded and counted; a CONTROL cell with no
message that has a row counts its reserved codes. -/
def Block.headerCell (b : Block) (rx : CellRx) (type : Nat) : Block :=
  b.cellIn rx (type = 0) (fun y =>
    if 5 ≤ type then y.count KCL.BAD_TYPE_LO 0
    else if type = 2 && y.laneUp rx.lane && y.flag KCL.CTL KCL.CTL_ENABLE then
      (y.count KCL.CTRL_RECEIVED_LO 0).countN KCL.BAD_TYPE_LO 0 rx.badMsgs
    else y)

/-- A HELLO arrives (R255 to R257). -/
def Block.hello (b : Block) (rx : CellRx) (h : Hello) : Block :=
  b.cellIn rx false (fun y =>
    let l := rx.lane
    if h.version ≠ 1 then y.count KCL.BAD_TYPE_LO 0
    else
      let r := y.reachUnion
      let a := FAB.LANE_PARTNER (l / 8) (l % 8)
      let y1 := y.setReg a (BitVec.ofNat 32 (h.id % 2 ^ 16 + h.port % 2 ^ 8 * 2 ^ 16 + h.plane % 16 * 2 ^ 24))
      let y2 := (y1.setFld (laneSts l) FAB.LANE_STS_PLANE (h.plane % 16)).setLane l
        { y1.lane l with farMask := some h.mask, farOk := h.role = 2 && decide (h.plane ≤ 11), farCredits := h.credits
                         heard := y.time.elapsed, heardTick := y.ticks }
      let st := y.laneState l
      let y3 :=
        if st = 3 then y2.laneMeet l
        else if st = 5 && (h.retrain || !bitAt h.mask (y.laneRate l)) then y2.laneFall l 5 false
        else y2
      y3.fabShow r)

/-- The next HELLO of a lane is due: the first at once, then every 10 µs, and in UP every PERIOD ticks (R255, R256).
DEDUCED, unsafe: log entry 200. -/
def Block.helloDue (b : Block) (l : Nat) : Bool :=
  match (b.lane l).said with
  | none => true
  | some (ns, tk) =>
    if b.laneState l = 5 then tk + b.fld KCL.HELLO_CFG KCL.HELLO_CFG_PERIOD ≤ b.ticks else ns + 10000 ≤ b.time.elapsed

/-- The HELLO that the device sends on a lane (R257): in HELLO state, PROBATION and UP.
DEDUCED, unsafe: log entry 75. -/
def Block.helloSend (b : Block) (l : Nat) : Block :=
  let x := b.lane l
  if !b.fabLive || 96 ≤ l || b.laneState l < 3 || 5 < b.laneState l || !b.helloDue l then b
  else
    let ret := min x.owed 255
    let body := leBytes 1 1 ++ leBytes 1 1 ++ beBytes 2 b.devId ++ leBytes 1 0xFF ++ leBytes 1 l ++ leBytes 1 (b.rateMask l)
      ++ leBytes 1 0 ++ beBytes 2 64 ++ List.replicate 54 0#8
    let b1 := (b.setLane l { x with told := true, owed := x.owed - ret, bits := x.bits - 640
                                    said := some (b.time.elapsed, b.ticks) }).laneEmit l
      (wireCell (cellHdr 3 0 b.devId 64 ret) body)
    let b2 := b1.setCredits l (b1.laneCredits l - 1)
    if b.laneState l = 3 then b2.laneMeet l else b2

/-- No HELLO within 10 ms in HELLO state, or for MISS × PERIOD ticks in UP (R253, R256). -/
def Block.helloMissed (b : Block) (l : Nat) : Bool :=
  let x := b.lane l
  (b.laneState l = 3 && x.heard + 10000000 ≤ b.time.elapsed)
    || (b.laneState l = 5
      && x.heardTick + b.fld KCL.HELLO_CFG KCL.HELLO_CFG_MISS * b.fld KCL.HELLO_CFG KCL.HELLO_CFG_PERIOD ≤ b.ticks)

/-- A HELLO that has been missed takes the lane DOWN (R253, R256). -/
def Block.helloTimeout (b : Block) (l : Nat) : Block :=
  if b.fabLive && b.helloMissed l then b.laneFall l 3 false else b

/-- PROBATION ends: UP after 1 ms clean with an accepted partner, or DOWN with cause PARTNER after 10 ms (R253, R257). -/
def Block.probationEnd (b : Block) (l : Nat) : Block :=
  let x := b.lane l
  if !b.fabLive || b.laneState l ≠ 4 then b
  else if x.farOk then
    if b.time.elapsed < x.since + 1000000 then b
    else
      let r := b.reachUnion
      ((b.laneTo l 5).event (0x90 + l / 8) 6 1
        (leBytes 1 (l / 8) ++ leBytes 1 (l % 8) ++ leBytes 1 (b.laneRate l) ++ leBytes 1 (b.lanePlane l))).fabShow r
  else if b.time.elapsed < x.since + 10000000 then b
  else b.laneFall l 7 true

/-- RETRY ms in WAIT have passed (R253). -/
def Block.laneRetry (b : Block) (l : Nat) : Block :=
  if b.fabLive && b.laneState l = 6 && b.groupState (8 + l / 8) = 0
    && (b.lane l).since + b.fld KCL.HELLO_CFG KCL.HELLO_CFG_RETRY * 1000000 ≤ b.time.elapsed then b.laneStart l else b

/-- At the tick boundary an UP lane joins the spraying, at the smallest load of the lanes already in it (R262, R265). -/
def Block.laneJoin (b : Block) (l : Nat) : Block :=
  let x := b.lane l
  if !b.fabLive || b.laneState l ≠ 5 || x.spraying || b.ticks ≤ x.sinceTick then b
  else
    let vs := (b.td.fab.lanes.filter (fun e => e.2.spraying)).map (fun e => e.2.load)
    b.setLane l { x with spraying := true, load := (vs.min?).getD 0 }

/-- A REACH cell replaces the lane's map (R260). -/
def Block.reachCell (b : Block) (rx : CellRx) (map : Nat) : Block :=
  b.cellIn rx false (fun y =>
    let r := y.reachUnion
    (y.setLane rx.lane { y.lane rx.lane with reach := map % 2 ^ 2048 }).fabShow r)

/-- A lane may take a cell for a device (R264). -/
def Block.candidate (b : Block) (dev l : Nat) : Bool :=
  let x := b.lane l
  b.laneUp l && x.spraying && !b.laneDrained l && bitAt x.reach dev && 0 < b.laneCredits l && x.tx.length < 8

/-- The candidate with the smallest load, the lowest number among equals (R265). -/
def Block.bestLane (b : Block) (dev : Nat) : Option Nat :=
  ((b.td.fab.lanes.map (fun e => e.1)).filter (fun l => b.candidate dev l)).foldl (fun m l =>
    match m with
    | none => some l
    | some k => if (b.lane l).load < (b.lane k).load then some l else some k) none

/-- Assign a cell to a lane: its load rises by the cell's bytes over the lane's weight (R265). -/
def Block.assign (b : Block) (l : Nat) (c : LaneCell) : Block :=
  let x := b.lane l
  b.setLane l { x with tx := x.tx ++ [c], load := x.load + c.units * 16 * 4 / 2 ^ b.laneRate l }


/-- The message code of a control message (R272). -/
def msgCode (m : Nat) : Nat := m / 2 ^ 124

/-- A message is a SYNC of an engine of this device (R272). -/
def syncOf (j m : Nat) : Bool := msgCode m = 3 && decide (m / 2 ^ 110 % 8 = j)

/-- A cell carries a SYNC of an engine to a destination. -/
def LaneCell.syncs (j dev : Nat) : LaneCell → Bool
  | .data _ => false
  | .control d ms => d = dev && ms.any (syncOf j)

/-- A SYNC of this device for an engine has not left yet for a destination: it waits for its CONTROL cell, or the cell waits on a
lane or for another lane (R262, R271). -/
def Block.syncWaits (b : Block) (j dev : Nat) : Bool :=
  (NMap.get [] b.td.fab.control dev).any (fun m => syncOf j m.1)
    || b.td.fab.again.any (fun c => c.syncs j dev)
    || b.td.fab.lanes.any (fun e => e.2.tx.any (fun c => c.syncs j dev))

/-- The head cell of an engine may go to a lane (R264): its stream's SYNC goes before it (R271). -/
def Block.headLane (b : Block) (j : Nat) : Option (FCell × List FCell × Nat) :=
  match b.staging j with
  | [] => none
  | c :: r => if b.syncWaits j c.dest then none else (b.bestLane c.dest).map (fun l => (c, r, l))

/-- One cycle of the spray stage (R262, R264, R265): a cell that has to be sprayed again, else the head of the next engine in
round robin that has a candidate. -/
def Block.spray (b : Block) : Block :=
  if !b.fabLive || !b.fabricSends then b
  else
    match (match b.td.fab.again with
      | [] => none
      | c :: r => (b.bestLane c.dest).map (fun l => (c, r, l))) with
    | some (c, r, l) => (b.withFab { b.td.fab with again := r }).assign l c
    | none =>
      let order := (upTo 8).map (fun k => (b.td.fab.lastEngine + 1 + k) % 8)
      match (order.filterMap (fun j => (b.headLane j).map (fun h => (j, h)))).head? with
      | none => b
      | some (j, c, r, l) =>
        let b1 := b.setStaging j r
        (b1.withFab { b1.td.fab with lastEngine := j }).assign l (.data c)

/-- The cells after the packet at the head of a staging FIFO. -/
def afterPacket : List FCell → List FCell
  | [] => []
  | c :: r => if c.eop then r else afterPacket r

/-- The head cell of an engine has had no reaching lane for 10 µs (R264). -/
def Block.strandedLong (b : Block) (j : Nat) : Bool :=
  (NMap.find? b.td.fab.stranded j).any (fun t => decide (t + 10000 ≤ b.time.elapsed))

/-- The head cell of an engine has had no reaching lane for 10 µs: it is discarded with the rest of its packet (R264). -/
def Block.unreachDrop (b : Block) (j : Nat) : Block :=
  match b.staging j with
  | [] => b
  | c :: _ =>
    if !b.fabLive || b.reachable c.dest || !b.strandedLong j then b
    else
      let b1 := b.setStaging j (afterPacket (b.staging j))
      (b1.withFab { b1.td.fab with stranded := NMap.del b1.td.fab.stranded j }).count KCL.UNREACH_DROP_LO 0

/-- The CONTROL cell of a destination leaves when it holds 16 messages or 64 ns after its first (R266). -/
def Block.controlDue (b : Block) (dev : Nat) : Bool :=
  let ms := NMap.get [] b.td.fab.control dev
  16 ≤ ms.length || (ms.head?).any (fun m => decide (m.2 + 64 ≤ b.time.elapsed))

/-- A CONTROL cell leaves for a destination, with at most 16 messages (R266). -/
def Block.controlSend (b : Block) (dev : Nat) : Block :=
  let ms := NMap.get [] b.td.fab.control dev
  if !b.fabLive || !b.fabricSends || !b.controlDue dev then b
  else match b.bestLane dev with
    | none => b
    | some l =>
      let b1 := b.withFab { b.td.fab with control := NMap.set [] b.td.fab.control dev (ms.drop 16) }
      (b1.assign l (.control dev ((ms.take 16).map (fun m => m.1)))).count KCL.CTRL_SENT_LO 0

/-- The next SEQ of a stream of this device (R263). -/
def Block.nextSeq (b : Block) (j dev : Nat) : Nat := NMap.get 0 b.td.fab.seqs (2048 * j + dev)

/-- The SYNC message of an engine to a destination: NEXT_SEQ is the SEQ of the next SOP cell that it will send (R271, R272).
DEDUCED, unsafe: log entry 78. -/
def Block.sendSync (b : Block) (j dev : Nat) : Block :=
  let next := match ((b.staging j).find? (fun c => c.sop && c.dest = dev)) with
    | some c => c.seq
    | none => b.nextSeq j dev
  b.sendControl dev (3 * 2 ^ 124 + b.devId * 2 ^ 113 + j * 2 ^ 110 + next * 2 ^ 94)

/-- Before an engine's first DATA cell to a destination a SYNC goes out (R271). -/
def Block.firstSync (b : Block) (j dev : Nat) : Block :=
  let k := 2048 * j + dev
  if b.td.fab.synced.contains k then b
  else (b.withFab { b.td.fab with synced := k :: b.td.fab.synced }).sendSync j dev

/-- A cell enters the staging of an engine and takes the next SEQ of its stream (R263). -/
def Block.stageCell (b : Block) (j : Nat) (c : FCell) : Block :=
  let n := b.nextSeq j c.dest
  let b1 := b.withFab { b.td.fab with seqs := NMap.set 0 b.td.fab.seqs (2048 * j + c.dest) ((n + 1) % 2 ^ 16) }
  b1.setStaging j (b1.staging j ++ [{ c with seq := n }])

/-- DRAIN of a macro as it is written (R262): writing 0 ends the drain and clears DRAINED; the mode follows R40. -/
def effFabCtl (n : Nat) (w : WriteOut) (_old : Word) (b : Block) : Block :=
  (if fldGet FAB.CTL_DRAIN w.value = 0 then b.setFld (FAB.STS n) FAB.STS_DRAINED 0 else b).follow40

/-- A drained macro's lanes have sent everything assigned to them (R262). -/
def Block.macroDrained (b : Block) (n : Nat) : Block :=
  if !b.fabLive || !b.flag (FAB.CTL n) FAB.CTL_DRAIN || b.flag (FAB.STS n) FAB.STS_DRAINED then b
  else if (upTo 8).any (fun l => !(b.lane (8 * n + l)).tx.isEmpty) then b
  else (((b.setFld (FAB.STS n) FAB.STS_DRAINED 1).intRaw (0x90 + n) 9).event (0x90 + n) 6 7 [BitVec.ofNat 8 n]).follow40

/-- Cells in the reorder buffer (R267). -/
def Block.resHeld (b : Block) : Nat := b.td.fab.contexts.foldl (fun n e => n + e.2.held.length) 0

/-- Distance of a sequence number ahead of another (R267). -/
def seqDist (seq expect : Nat) : Nat := (seq + 65536 - expect % 65536) % 65536

/-- A cell in order is delivered, unless the context skips to the next SOP (R267, R268). -/
def Reseq.take (x : Reseq) (c : FCell) : Reseq :=
  if x.skipping && !c.sop then { x with expect := (x.expect + 1) % 65536 }
  else { x with expect := (x.expect + 1) % 65536, skipping := false, delivered := x.delivered ++ [c] }

/-- Held cells that now follow in order are delivered (R267). -/
def Reseq.follow (x : Reseq) : Nat → Reseq
  | 0 => x
  | fuel + 1 =>
    match x.held.find? (fun h => h.cell.seq = x.expect) with
    | none => x
    | some h => Reseq.follow ({ x with held := x.held.erase h }.take h.cell) fuel

/-- A DATA cell that came at a given ns reaches a synchronised context (R267). -/
def Block.resSynced (b : Block) (i : Nat) (h : HeldCell) : Block :=
  let x := b.reseq i
  let d := seqDist h.cell.seq x.expect
  if d = 0 then b.setReseq i ((x.take h.cell).follow (x.held.length + 1))
  else if d ≤ 4095 then
    if 12288 ≤ b.resHeld then b.count KCL.RESEQ_FULL_LO 0
    else if x.held.any (fun k => k.cell.seq = h.cell.seq) then b
    else b.setReseq i { x with held := x.held ++ [h] }
  else b.count KCL.RESEQ_OOW_LO 0

/-- The SYNC_REQ message for a context's stream (R270, R272). -/
def Block.askSync (b : Block) (i : Nat) : Block :=
  (b.setReseq i { b.reseq i with asked := some b.time.elapsed }).sendControl (i / 8)
    (4 * 2 ^ 124 + b.devId * 2 ^ 113 + i % 8 * 2 ^ 110)

/-- A DATA cell reaches an unsynchronised context: it is held, and one SYNC_REQ goes out (R270). -/
def Block.resUnsynced (b : Block) (i : Nat) (h : HeldCell) : Block :=
  let x := b.reseq i
  let b1 := if 12288 ≤ b.resHeld then b.count KCL.RESEQ_FULL_LO 0
    else b.setReseq i { x with held := x.held ++ [h] }
  if x.asked.isSome then b1 else b1.askSync i

/-- The context of a stream: 8 × SRC_DEV + ENGINE (R267). -/
def ctxOf (src engine : Nat) : Nat := 8 * src + engine

/-- A DATA cell arrives (R252, R267, R270). -/
def Block.dataCell (b : Block) (rx : CellRx) (c : FCell) : Block :=
  b.cellIn rx false (fun y =>
    if !y.laneUp rx.lane || !y.flag KCL.CTL KCL.CTL_ENABLE then y
    else if c.dest ≠ y.devId then y.count KCL.MISROUTED_LO 0
    else
      let i := ctxOf c.src c.engine
      let h : HeldCell := ⟨c, y.time.elapsed⟩
      if (y.reseq i).synced then y.resSynced i h else y.resUnsynced i h)

/-- The held SEQ with the least distance from EXPECT. -/
def Reseq.lowest (x : Reseq) : Option Nat :=
  (x.held.map (fun h => h.cell.seq)).foldl (fun m n => match m with
    | none => some n
    | some k => if seqDist n x.expect < seqDist k x.expect then some n else some k) none

/-- `KCL.RESEQ_CFG.TIMEOUT` in ns. -/
def Block.resWait (b : Block) : Nat := b.fld KCL.RESEQ_CFG KCL.RESEQ_CFG_TIMEOUT * 64

/-- `n` ns have passed since the arrival of the oldest cell that a context holds (R268, R270). -/
def Block.heldFor (b : Block) (x : Reseq) (n : Nat) : Bool := x.held.any (fun h => decide (h.came + n ≤ b.time.elapsed))

/-- Cells of a delivered stream up to the last end of a packet. -/
def wholePackets (cs : List FCell) : List FCell := (cs.reverse.dropWhile (fun c => !c.eop)).reverse

/-- The packet in assembly on a context is discarded whole: its cells that the queue manager has, and those on their way
there (R268). -/
def Block.cutAssembly (b : Block) (i : Nat) : Block :=
  let x := b.reseq i
  let ws := wholePackets x.delivered
  let b1 := b.setReseq i { x with delivered := ws }
  if ws.isEmpty then b1.discardAssembly (32 + i) true else b1

/-- The missing cell of a context is declared lost (R268). -/
def Block.resTimeout (b : Block) (i : Nat) : Block :=
  let x := b.reseq i
  if !b.fabLive || !x.synced || !b.heldFor x b.resWait then b
  else match x.lowest with
    | none => b
    | some n =>
      let b1 := b.cutAssembly i
      let y := b1.reseq i
      let b2 := b1.setReseq i ({ y with expect := n, skipping := true }.follow (y.held.length + 1))
      ((b2.count KCL.RESEQ_LOSS_LO 0).intRaw 0x83 1).eventOnce 0x0606FF 0x83 6 6 (leBytes 2 (i / 8) ++ leBytes 1 (i % 8))

/-- Another SYNC_REQ of a context that waits for a SYNC (R270). -/
def Block.syncAgain (b : Block) (i : Nat) : Block :=
  let x := b.reseq i
  if b.fabLive && !x.synced && x.asked.any (fun t => decide (t + b.resWait ≤ b.time.elapsed)) then b.askSync i else b

/-- Held cells of a context still unsynchronised after 16 TIMEOUTs are discarded (R270). -/
def Block.noSync (b : Block) (i : Nat) : Block :=
  let x := b.reseq i
  if !b.fabLive || x.synced || !b.heldFor x (16 * b.resWait) then b
  else (b.setReseq i { x with held := [] }).countN KCL.RESEQ_NOSYNC_LO 0 x.held.length

/-- A SYNC for a stream (R270): held cells before NEXT_SEQ are discarded, the rest are treated again. -/
def Block.syncTo (b : Block) (i next : Nat) : Block :=
  let x := b.reseq i
  let early := x.held.filter (fun h => 32768 ≤ seqDist h.cell.seq next)
  let rest := x.held.filter (fun h => seqDist h.cell.seq next < 32768)
  let b1 := (b.setReseq i { x with expect := next, synced := true, held := [], skipping := false, asked := none }).countN
    KCL.RESEQ_NOSYNC_LO 0 early.length
  rest.foldl (fun y h => y.resSynced i h) b1

/-- A control message arrives: by the first of its cell (`rx` given) the cell is counted, and so are its reserved codes
(R272, R273). -/
def Block.controlIn (b : Block) (rx : Option CellRx) (act : Block → Block) : Block :=
  match rx with
  | none => if b.fabLive && b.flag KCL.CTL KCL.CTL_ENABLE then act b else b
  | some r =>
    b.cellIn r false (fun y =>
      if !y.laneUp r.lane || !y.flag KCL.CTL KCL.CTL_ENABLE then y
      else act ((y.count KCL.CTRL_RECEIVED_LO 0).countN KCL.BAD_TYPE_LO 0 r.badMsgs))

/-- The effect of a page soft reset of FABn on its lanes (R275). -/
def Block.fabPageReset (b : Block) (n : Nat) : Block :=
  (upTo 8).foldl (fun y k =>
    let l := 8 * n + k
    if y.laneState l = 0 then y else y.laneFall l 7 false) b

/-- The effect of a page soft reset of KCL (R275). -/
def Block.kclPageReset (b : Block) : Block :=
  let b1 := b.td.fab.contexts.foldl (fun y e => y.discardAssembly (32 + e.1) true) b
  let b2 := b1.withFab { b1.td.fab with contexts := [], control := []
                                        again := b1.td.fab.again.filter (fun c => !c.isControl) }
  fabLanes.foldl (fun y l => y.setLane l { y.lane l with tx := (y.lane l).tx.filter (fun c => !c.isControl) }) b2

end Sys2Proof.Machine
end

