-- ==== Sys2Proof/Machine/Tcam.lean ====
section
/-! DEFINITION. The TCAM (R149 to R176): tables and groups, placement and moves, operations, deferred changes and commits,
step-through, verification, scrub and spare rows. -/

namespace Sys2Proof.Machine

/-- Replace the state of the TCAM. -/
def Block.withTcam (b : Block) (t : TcamSt) : Block := { b with tcam := t }

/-- A TCAM_LAYOUT record (R152), with its index. -/
structure TcTable where
  idx : Nat
  id : Nat
  width : Nat
  banks : Nat
  miss : Nat
  res : Nat
deriving DecidableEq, Repr

/-- The TCAM tables that an image declares (R152). -/
def imgTcam (im : List Byte) : List TcTable :=
  let s := secBytes im (secOf (imgSecs im) 9)
  (upTo (leAt s 0 2)).map (fun i =>
    let r := bytesAt s (16 + 16 * i) 16
    ⟨i, leAt r 0 2, leAt r 2 1 % 4, leAt r 4 4 + leAt r 8 1 * 2 ^ 32, leAt r 12 4,
     leAt r 2 1 / 4 + leAt r 3 1 + leAt r 9 3⟩)

/-- Banks in a group of a width (R150). -/
def groupBanks (width : Nat) : Nat := if width = 0 then 1 else if width = 1 then 2 else 4

/-- Bits of a key of a width (R150). -/
def tcBits (width : Nat) : Nat := 160 * groupBanks width

/-- The groups of a table, each named by its first bank (R150). -/
def TcTable.groups (t : TcTable) : List Nat :=
  (upTo 40).filter (fun k => k % groupBanks t.width = 0 && bitAt t.banks k)

/-- The TCAM table of an ID in the selected image (R136). -/
def Block.tcTable (b : Block) (other : Bool) (id : Nat) : Option TcTable :=
  match b.opImage other with
  | none => none
  | some im => (imgTcam im).find? (fun t => t.id = id)

/-- A row matches a key by its stored copy (R151, R159). -/
def TRow.hits (x : TRow) (key : Nat) : Bool := (key &&& x.mask) = x.value

/-- One row of a group. -/
def Block.trow (b : Block) (g r : Nat) : TRow := NMap.get {} b.tcam.rows (8192 * g + r)

/-- A row of the group of `n` banks from `g` may hold an entry: none of its banks has retired it (R174). -/
def Block.rowUsable (b : Block) (n g r : Nat) : Bool :=
  (upTo n).all (fun i => !NMap.get false b.tcam.retired (8192 * (g + i) + r))

/-- The rows of a group that are not FREE, in row order. -/
def Block.groupRows (b : Block) (g : Nat) : List (Nat × TRow) :=
  let rs : List (Nat × TRow) := b.tcam.rows
  (rs.filter (fun e => e.1 / 8192 = g)).map (fun e => (e.1 % 8192, e.2))

/-- A row is visible (R166). -/
def Block.rowVisible (b : Block) (x : TRow) : Bool :=
  x.state = 1 || (x.state = 2 && bitAt b.tcam.flags x.cgrp) || (x.state = 3 && !bitAt b.tcam.flags x.cgrp)

/-- The engine writes rows of a group: a step-through of its table starts again (R171). -/
def Block.stepRestart (b : Block) (banks : Nat) : Block :=
  match b.tcam.step with
  | none => b
  | some st =>
    if st.banks &&& banks = 0 then b
    else ((b.withTcam { b.tcam with step := some { st with last := none } }).setFld TCM.STEP_STS TCM.STEP_STS_RESTARTED 1).count
      TCM.STEP_RESTART_CNT_LO 6

/-- The bank of a row's group in which its stored copy has an uncorrectable error, found before or now (`found`, by bank and row),
if one has (R160). -/
def Block.badBank (b : Block) (n g r : Nat) (found : List (Nat × Nat)) : Option Nat :=
  ((upTo n).map (g + ·)).find? (fun k => NMap.get false b.tcam.copyBad (8192 * k + r) || found.contains (k, r))

/-- The stored copy of a row in some banks is marked as unusable, or as good again (R160). -/
def Block.markCopies (b : Block) (banks : List Nat) (r : Nat) (bad : Bool) : Block :=
  b.withTcam { b.tcam with copyBad := banks.foldl (fun m k =>
    if bad then NMap.put m (8192 * k + r) true else NMap.del m (8192 * k + r)) b.tcam.copyBad }

/-- The banks in which the stored copy of a row is unusable. -/
def Block.badBanks (b : Block) (g r : Nat) : List Nat :=
  ((upTo 4).map (g + ·)).filter (fun k => k < g + groupBanks (b.trow g r).width && NMap.get false b.tcam.copyBad (8192 * k + r))

/-- The engine changes the state of the entry in a row; its stored copy stays as good or bad as it was (R160, R166). -/
def Block.markRow (b : Block) (g r : Nat) (x : TRow) : Block :=
  (b.withTcam { b.tcam with rows := NMap.set {} b.tcam.rows (8192 * g + r) x }).stepRestart (2 ^ g)

/-- The engine writes a row anew, or frees it: an entry so written has a good stored copy (R160). -/
def Block.setRow (b : Block) (g r : Nat) (x : TRow) : Block := (b.markCopies (b.badBanks g r) r false).markRow g r x

/-- A row moves to another of its group, state and stored copy included (R163). -/
def Block.moveRow (b : Block) (g src dst : Nat) : Block :=
  ((b.setRow g dst (b.trow g src)).markCopies (b.badBanks g src) dst true).setRow g src {}

/-- Where a new entry of a priority goes in a group (R162): its row, and the rows to shift by one toward a free row, each
with where it goes, the first to move first. -/
structure Placement where
  row : Nat
  moves : List (Nat × Nat)
deriving DecidableEq, Repr

/-- The shift of occupied rows toward a free row: each goes to the place the one before it has left. -/
def shiftTo : Nat → List Nat → List (Nat × Nat)
  | _, [] => []
  | free, r :: rs => (r, free) :: shiftTo r rs

/-- The place of a new entry in a group of `n` banks, with the fewest moves; none if the group has no free row (R162). -/
def Block.placeIn (b : Block) (n g prio : Nat) : Option Placement :=
  let occ := b.groupRows g
  let before := ((occ.filter (fun e => e.2.prio ≤ prio)).map (·.1)).foldl (fun m r => max m (r + 1)) 0
  let after := ((occ.filter (fun e => prio < e.2.prio)).map (·.1)).foldl min 8192
  let free := (upTo 8192).filter (fun r => b.rowUsable n g r && !occ.any (fun e => e.1 = r))
  match free.find? (fun r => before ≤ r && r < after) with
  | some r => some ⟨r, []⟩
  | none =>
    let up := (free.filter (fun r => r < before)).getLast?
    let down := free.find? (fun r => after ≤ r)
    let upRows (f : Nat) : List Nat := (occ.map (·.1)).filter (fun r => f < r && r < before)
    let downRows (f : Nat) : List Nat := ((occ.map (·.1)).filter (fun r => after ≤ r && r < f)).reverse
    let goUp (f : Nat) : Placement := ⟨before - 1, shiftTo f (upRows f)⟩
    let goDown (f : Nat) : Placement := ⟨after, shiftTo f (downRows f)⟩
    match up, down with
    | none, none => none
    | some f, none => some (goUp f)
    | none, some f => some (goDown f)
    | some f, some h => if (upRows f).length < (downRows h).length then some (goUp f) else some (goDown h)

/-- The group and place that a new entry gets: the fewest moves, and the lowest group among equals (R162).
DEDUCED, unsafe: log entry 107. -/
def Block.place (b : Block) (t : TcTable) (prio : Nat) : Option (Nat × Placement) :=
  t.groups.foldl (fun best g =>
    match b.placeIn (groupBanks t.width) g prio with
    | none => best
    | some p => match best with
      | none => some (g, p)
      | some q => if p.moves.length < q.2.moves.length then some (g, p) else best) none

/-- Put an entry in its place, after the moves (R163). -/
def Block.placeRow (b : Block) (at_ : Nat × Placement) (x : TRow) : Block :=
  (at_.2.moves.foldl (fun y m => y.moveRow at_.1 m.1 m.2) b).setRow at_.1 at_.2.row x

/-- The rows of a table that carry a HANDLE: group and row (R161). -/
def Block.handleRows (b : Block) (t : TcTable) (h : Nat) : List (Nat × Nat) :=
  t.groups.flatMap (fun g => ((b.groupRows g).filter (fun e => e.2.handle = h)).map (fun e => (g, e.1)))

/-- A TCAM operation (R175). KEY and MASK are numbers of 640 bits. -/
structure TcRec where
  op : Nat
  defer_ : Bool
  other : Bool
  table : Nat
  group : Nat
  handle : Nat
  prio : Nat
  action : Nat
  key : Nat
  mask : Nat
deriving DecidableEq, Repr

/-- What READ and TABLE_STATS return (R175). -/
inductive TcBack where
  | none
  | entry (x : TRow) (loc : Nat)
  | stats (ws : List Nat)
deriving DecidableEq, Repr

/-- The row that an operation writes (R151, R166). -/
def tcRow (t : TcTable) (r : TcRec) (state : Nat) : TRow :=
  let m := r.mask % 2 ^ tcBits t.width
  { width := t.width, value := r.key % 2 ^ tcBits t.width &&& m, mask := m, prio := r.prio, action := r.action
    handle := r.handle, state := state, cgrp := if state = 1 then 0 else r.group }

/-- A deferred operation names a commit group whose cleanup is in progress (R169). -/
def Block.groupBusy (b : Block) (r : TcRec) : Bool := r.defer_ && bitAt b.tcam.flags r.group

/-- INSERT (R162, R167). -/
def Block.tcInsert (b : Block) (t : TcTable) (r : TcRec) : Block × Nat :=
  if !(b.handleRows t r.handle).isEmpty then (b, 1)
  else if b.groupBusy r then (b, 0x0B)
  else match b.place t r.prio with
    | none => (b, 3)
    | some p => (b.placeRow p (tcRow t r (if r.defer_ then 2 else 1)), 0)

/-- The entry that an operation changes: its row, or the result that refuses the operation (R169). -/
def Block.tcEntry (b : Block) (t : TcTable) (r : TcRec) : Except Nat (Nat × Nat) :=
  match b.handleRows t r.handle with
  | [] => .error 2
  | p :: rest =>
    if !rest.isEmpty || (b.trow p.1 p.2).state ≠ 1 then .error 0x0C
    else if b.groupBusy r then .error 0x0B
    else .ok p

/-- UPDATE (R165, R167): ACTION alone in place; otherwise the new row first, then the old one goes or becomes PENDING_DEL.
DEDUCED, unsafe: log entry 110. -/
def Block.tcUpdate (b : Block) (t : TcTable) (r : TcRec) : Block × Nat :=
  match b.tcEntry t r with
  | .error c => (b, c)
  | .ok p =>
    let old := b.trow p.1 p.2
    let new := tcRow t r (if r.defer_ then 2 else 1)
    if !r.defer_ && new = { old with action := r.action } then (b.setRow p.1 p.2 new, 0)
    else match b.place t r.prio with
      | none => (b, 3)
      | some q =>
        let b1 := b.placeRow q new
        match (b1.handleRows t r.handle).find? (fun x => x ≠ (q.1, q.2.row)) with
        | none => (b1, 0)
        | some o =>
          (if r.defer_ then b1.markRow o.1 o.2 { old with state := 3, cgrp := r.group } else b1.setRow o.1 o.2 {}, 0)

/-- DELETE (R167). -/
def Block.tcDelete (b : Block) (t : TcTable) (r : TcRec) : Block × Nat :=
  match b.tcEntry t r with
  | .error c => (b, c)
  | .ok p =>
    (if r.defer_ then b.markRow p.1 p.2 { b.trow p.1 p.2 with state := 3, cgrp := r.group } else b.setRow p.1 p.2 {}, 0)

/-- LOCATION of a row (R175). -/
def tcLoc (g r state : Nat) : Nat := g + r * 2 ^ 6 + state * 2 ^ 19

/-- READ: the visible row of HANDLE (R175).
DEDUCED, unsafe: log entry 108. -/
def Block.tcRead (b : Block) (t : TcTable) (r : TcRec) : Nat × TcBack :=
  match (b.handleRows t r.handle).find? (fun p => b.rowVisible (b.trow p.1 p.2)) with
  | none => (2, .none)
  | some p => let x := b.trow p.1 p.2; (0, .entry x (tcLoc p.1 p.2 x.state))

/-- TABLE_CLEAR: every row of the table is freed (R175). -/
def Block.tcClear (b : Block) (t : TcTable) : Block :=
  t.groups.foldl (fun x g => (x.groupRows g).foldl (fun y e => y.setRow g e.1 {}) x) b

/-- Spare rows in use in a bank (`TCM.BANK_STSb`). -/
def Block.sparesUsed (b : Block) (k : Nat) : Nat :=
  let m : List (Nat × Nat) := b.tcam.steered
  (m.filter (fun e => e.1 / 8192 = k)).length

/-- A spare row of a bank is free: it stands in for no row and has no fault (R173, R176). -/
def Block.spareFree (b : Block) (k s : Nat) : Bool :=
  let m : List (Nat × Nat) := b.tcam.steered
  !NMap.get false b.tcam.deadSpares (64 * k + s) && !m.any (fun e => e.1 / 8192 = k && e.2 = s)

/-- A bank has no spare row free (`TCM.BANK_STSb`). -/
def Block.noSpare (b : Block) (k : Nat) : Bool := (upTo 64).all (fun s => !b.spareFree k s)

/-- Rows retired in a bank. -/
def Block.rowsRetired (b : Block) (k : Nat) : Nat :=
  let m : List (Nat × Bool) := b.tcam.retired
  (m.filter (fun e => e.1 / 8192 = k)).length

/-- TABLE_STATS (R175). -/
def Block.tcStats (b : Block) (t : TcTable) : List Nat :=
  let rows := t.groups.flatMap b.groupRows
  let count (s : Nat) : Nat := (rows.filter (fun e => e.2.state = s)).length
  let free (g : Nat) : Nat := ((upTo 8192).filter (b.rowUsable (groupBanks t.width) g)).length - (b.groupRows g).length
  let banks := (upTo 40).filter (bitAt t.banks)
  [count 1, count 2, count 3, (t.groups.map free).foldl min 8192,
   banks.foldl (fun n k => n + b.sparesUsed k) 0, banks.foldl (fun n k => n + b.rowsRetired k) 0]

/-- The rows that name a commit group: group, row and contents. -/
def Block.pendingRows (b : Block) (c : Nat) : List (Nat × Nat × TRow) :=
  let rs : List (Nat × TRow) := b.tcam.rows
  (rs.filter (fun e => 2 ≤ e.2.state && e.2.cgrp = c)).map (fun e => (e.1 / 8192, e.1 % 8192, e.2))

/-- GROUP_ABANDON: a group that is not committed is discarded (R169).
DEDUCED, unsafe: log entry 109. -/
def Block.tcAbandon (b : Block) (c : Nat) : Block × Nat :=
  if bitAt b.tcam.flags c then (b, 0x0B)
  else ((b.pendingRows c).foldl (fun x e =>
    if e.2.2.state = 2 then x.setRow e.1 e.2.1 {} else x.markRow e.1 e.2.1 { e.2.2 with state := 1, cgrp := 0 }) b, 0)

/-- One TCAM operation (R175): the block after it, RESULT, and what it returns. -/
def Block.tcamOp (b : Block) (r : TcRec) : Block × Nat × TcBack :=
  if r.op = 0 then (b, 0, .none)
  else if 7 < r.op then (b, 0x0A, .none)
  else if r.op = 7 then let x := b.tcAbandon r.group; (x.1, x.2, .none)
  else match b.tcTable r.other r.table with
    | none => (b, 6, .none)
    | some t =>
      match r.op with
      | 1 => let x := b.tcInsert t r; (x.1, x.2, .none)
      | 2 => let x := b.tcUpdate t r; (x.1, x.2, .none)
      | 3 => let x := b.tcDelete t r; (x.1, x.2, .none)
      | 4 => let x := b.tcRead t r; (b, x.1, x.2)
      | 5 => (b.tcClear t, 0, .none)
      | _ => (b, 0, .stats (b.tcStats t))

/-- The number that 20 registers spell, the first the most significant (TCM registers). -/
def Block.key20 (b : Block) (a : Nat) : Nat := (upTo 20).foldl (fun v i => v * 2 ^ 32 + (b.reg (a + 4 * i)).toNat) 0

/-- Write a number of 640 bits to 20 registers. -/
def Block.setKey20 (b : Block) (a v : Nat) : Block :=
  (upTo 20).foldl (fun x i => x.setReg (a + 4 * i) (BitVec.ofNat 32 (v >>> (32 * (19 - i))))) b

/-- The operation that the registers of TCM hold. -/
def Block.tcmRec (b : Block) : TcRec :=
  { op := b.fld TCM.OP_CTL TCM.OP_CTL_OP, defer_ := b.flag TCM.OP_CTL TCM.OP_CTL_DEFER
    other := b.flag TCM.OP_CTL TCM.OP_CTL_IMAGE, table := b.fld TCM.OP_TABLE TCM.OP_TABLE_TABLE_ID
    group := b.fld TCM.OP_CTL TCM.OP_CTL_GROUP, handle := b.fld TCM.OP_HANDLE TCM.OP_HANDLE_HANDLE
    prio := b.fld TCM.OP_PRIO TCM.OP_PRIO_PRIORITY, action := (b.reg TCM.OP_ACTION).toNat
    key := b.key20 (TCM.OP_KEY 0), mask := b.key20 (TCM.OP_MASK 0) }

/-- A register operation of TCM ends. -/
def Block.tcmDone (b : Block) (code : Nat) (back : TcBack) : Block :=
  let b1 := match back with
    | .none => b
    | .entry x loc =>
      ((((b.setReg TCM.OP_PRIO (BitVec.ofNat 32 x.prio)).setReg TCM.OP_ACTION (BitVec.ofNat 32 x.action)).setKey20
        (TCM.OP_KEY 0) x.value).setKey20 (TCM.OP_MASK 0) x.mask).setReg TCM.OP_LOC (BitVec.ofNat 32 loc)
    | .stats ws => ws.zipIdx.foldl (fun (x : Block) (e : Nat × Nat) => x.setReg (TCM.OP_KEY e.2) (BitVec.ofNat 32 e.1)) b
  ((b1.setReg TCM.OP_STS (BitVec.ofNat 32 (2 + code * 2 ^ 8))).setFld TCM.OP_CTL TCM.OP_CTL_GO 0).intRaw 0x25 0

/-- The effect of a write of `TCM.OP_CTL`: GO runs the operation. -/
def effTcmOp (src : Source) (w : WriteOut) (old : Word) (b : Block) : Block :=
  if fldGet TCM.OP_CTL_GO w.took = 0 then b
  else if fldGet TCM.OP_CTL_GO old = 1 then b.discardWrite TCM.OP_CTL src old 3
  else if !b.fdLive then b
  else let x := b.tcamOp b.tcmRec; x.1.tcmDone x.2.1 x.2.2

/-- A record of a TCAM_OP buffer (R175). -/
def tcmRecord (b : Block) (d : List Byte) : Block × RecOut :=
  let fl := leAt d 1 1
  let x := b.tcamOp { op := leAt d 0 1, defer_ := bitAt fl 0, other := bitAt fl 1, table := leAt d 2 2
                      group := leAt d 4 1 % 16, handle := leAt d 8 4 % 2 ^ 20, prio := leAt d 0x0C 4 % 2 ^ 24
                      action := leAt d 0x10 4, key := beNat (bytesAt d 0x20 80), mask := beNat (bytesAt d 0x70 80) }
  (x.1, ⟨x.2.1, match x.2.2 with
    | .none => []
    | .entry r loc => [(0x0C, leBytes 4 r.prio), (0x10, leBytes 4 r.action), (0x20, beBytes 80 r.value),
                       (0x70, beBytes 80 r.mask), (0xC0, leBytes 4 loc)]
    | .stats ws => [(0x20, ws.flatMap (leBytes 4))]⟩)

/-- A TCAM_OP descriptor, for up to `n` records (R135, R175). -/
def Block.tcamOpDesc (b : Block) : Block := if b.fdLive then b.bulkRow 7 256 tcmRecord else b

/-- The banks, as bits, that rows stand in. -/
def rowBanks (es : List (Nat × Nat × TRow)) : Nat := es.foldl (fun m e => m ||| 2 ^ e.1) 0

/-- A commit: the flags of the named groups that hold pending rows are set, in all banks on one cycle; groups in cleanup stand
as they are (R168, R377). -/
def Block.tcamCommit (b : Block) (mask : Nat) : Block :=
  (upTo 16).foldl (fun x c =>
    let es := x.pendingRows c
    if bitAt mask c && !bitAt x.tcam.flags c && !es.isEmpty then
      (x.withTcam { x.tcam with flags := bitOn x.tcam.flags c }).stepRestart (rowBanks es)
    else x) b

/-- The TCAM_COMMIT anchor entry: what result the block answers is not given, so it is a free value (R379).
DESIGN CHOICE, safe: log entry 111. -/
def Block.tcamAnchor (b : Block) (operand : Nat) : Block × Nat :=
  ((b.tcamCommit (operand % 2 ^ 16)).drawn, (Config.freeValue b.draws).toNat % 256)

/-- The cleanup of committed groups ends (R168). -/
def Block.cleanupEnd (b : Block) (mask : Nat) : Block :=
  let m := mask &&& b.tcam.flags
  if !b.fdLive || m = 0 then b
  else
    let b1 := (upTo 16).foldl (fun x c =>
      if bitAt m c then
        let y := (x.pendingRows c).foldl (fun z e =>
          if e.2.2.state = 2 then z.markRow e.1 e.2.1 { e.2.2 with state := 1, cgrp := 0 } else z.setRow e.1 e.2.1 {}) x
        y.withTcam { y.tcam with flags := bitOff y.tcam.flags c }
      else x) b
    (b1.intRaw 0x25 7).event 0x25 3 5 (leBytes 2 m)

/-- False hits of a search or a step-through: counted, and their rows queued for an immediate scrub (R159). -/
def Block.falseHits (b : Block) (rows : List (Nat × Nat)) : Block :=
  rows.foldl (fun x p =>
    let y := (x.count TCM.FALSE_HIT_CNT_LO 6).intRaw 0x25 1
    y.withTcam { y.tcam with scrubQ := y.tcam.scrubQ ++ [8192 * p.1 + p.2] }) b

/-- Candidates whose stored copy holds an uncorrectable error, by bank and row: counted and reported; the copy stays unusable
(R160). -/
def Block.copyErrs (b : Block) (rows : List (Nat × Nat)) : Block :=
  rows.foldl (fun x p =>
    (((x.count TCM.COPY_ERR_CNT_LO 6).intRaw 0x25 2).markCopies [p.1] p.2 true).event 0x25 3 1
      (leBytes 1 p.1 ++ leBytes 2 p.2)) b

/-- The rows of a group that a search with the key `k` reports: visible, of the table's width, and matching, or made to match by a
flipped cell (`flipped`, by bank and row: R151, R159). -/
def Block.tcReported (b : Block) (width g k : Nat) (flipped : List (Nat × Nat)) : List (Nat × TRow) :=
  (b.groupRows g).filter (fun e => b.rowVisible e.2 && e.2.width = width
    && (e.2.hits k || (upTo (groupBanks width)).any (fun i => flipped.contains (g + i, e.1))))

/-- Candidates of step-through in the order of resolution: PRIORITY, group, row (R170). -/
def stepBefore (a c : Nat × Nat × Nat) : Bool :=
  a.1 < c.1 || (a.1 = c.1 && (a.2.1 < c.2.1 || (a.2.1 = c.2.1 && a.2.2 < c.2.2)))

/-- The candidates that a step-through's maintenance searches report (R170), as PRIORITY, group and row. -/
def Block.stepHits (b : Block) (st : Step) (flipped : List (Nat × Nat)) : List (Nat × Nat × Nat) :=
  ((upTo 40).filter (fun g => g % groupBanks st.width = 0 && bitAt st.banks g)).flatMap (fun g =>
    (b.tcReported st.width g (st.key % 2 ^ tcBits st.width) flipped).map (fun e => (e.2.prio, g, e.1)))

/-- The next candidate of a step-through. -/
def Block.stepFind (b : Block) (st : Step) (flipped : List (Nat × Nat)) : Option (Nat × Nat × Nat) :=
  (b.stepHits st flipped).foldl (fun m e =>
    let later := match st.last with
      | none => true
      | some l => stepBefore l e
    if !later then m
    else match m with
      | none => some e
      | some x => if stepBefore e x then some e else m) none

/-- STEP_CTL.START (R170). A table that no image declares has no entry. -/
def Block.stepStart (b : Block) : Block :=
  let t := b.tcTable (b.flag TCM.STEP_TABLE TCM.STEP_TABLE_IMAGE) (b.fld TCM.STEP_TABLE TCM.STEP_TABLE_TABLE_ID)
  let st : Step := match t with
    | some x => ⟨x.banks, x.width, b.key20 (TCM.STEP_KEY 0), none⟩
    | none => ⟨0, 0, 0, none⟩
  (b.withTcam { b.tcam with step := some st }).setReg TCM.STEP_STS 1

/-- No entry remains for a step-through (R170). -/
def Block.stepDone (b : Block) : Block :=
  (((b.withTcam { b.tcam with step := none }).setFld TCM.STEP_STS TCM.STEP_STS_BUSY 0).setFld
    TCM.STEP_STS TCM.STEP_STS_DONE 1).setFld TCM.STEP_STS TCM.STEP_STS_FOUND 0

/-- STEP_CTL.NEXT (R170): the next entry that verification leaves, or DONE. The candidates are looked at in order, `n` of them at
most: a false hit is counted, queued and passed over, and a candidate whose copy is unusable is trusted (R159, R160). `seen` tells
which rows a flipped cell makes match, and whose copies fail now. -/
def Block.stepNext (seen : TcSeen) : Nat → Step → Block → Block
  | 0, _, b => b.stepDone
  | n + 1, st, b =>
    match b.stepFind st seen.flipped with
    | none => b.stepDone
    | some e =>
      let x := b.trow e.2.1 e.2.2
      let bad := b.badBank (groupBanks st.width) e.2.1 e.2.2 seen.copyErr
      let st1 := { st with last := some e }
      if bad.isNone && !x.hits (st.key % 2 ^ tcBits st.width) then stepNext seen n st1 (b.falseHits [e.2])
      else
        let b1 := b.withTcam { b.tcam with step := some st1 }
        let b2 := (b1.setReg TCM.STEP_HANDLE (BitVec.ofNat 32 x.handle)).setReg TCM.STEP_PRIO (BitVec.ofNat 32 x.prio)
        let b3 := (b2.setReg TCM.STEP_ACTION (BitVec.ofNat 32 x.action)).setReg TCM.STEP_POS
          (BitVec.ofNat 32 (e.2.1 + e.2.2 * 2 ^ 6))
        (b3.setFld TCM.STEP_STS TCM.STEP_STS_FOUND 1).copyErrs (bad.toList.map (fun k => (k, e.2.2)))

/-- STEP_CTL.STOP: the step-through ends. -/
def Block.stepStop (b : Block) : Block :=
  (b.withTcam { b.tcam with step := none }).setFld TCM.STEP_STS TCM.STEP_STS_BUSY 0

/-- The effect of a write of `TCM.STEP_CTL`: STOP, then START, then NEXT.
DEDUCED, unsafe: log entry 112. -/
def effStepCtl (seen : TcSeen) (w : WriteOut) (_old : Word) (b : Block) : Block :=
  let b0 := b.setReg TCM.STEP_CTL 0
  if !b.fdLive then b0
  else
    let b1 := if fldGet TCM.STEP_CTL_STOP w.took = 1 then b0.stepStop else b0
    let b2 := if fldGet TCM.STEP_CTL_START w.took = 1 then b1.stepStart else b1
    if fldGet TCM.STEP_CTL_NEXT w.took = 0 then b2
    else match b2.tcam.step with
      | none => b2
      | some st => b2.stepNext seen ((b2.stepHits st seen.flipped).length + 1) st

/-- The table that a bank belongs to, in the active image or else in the other bank's. -/
def Block.bankTable (b : Block) (k : Nat) : Option TcTable :=
  let at_ (o : Bool) : Option TcTable := match b.opImage o with
    | none => none
    | some im => (imgTcam im).find? (fun t => bitAt t.banks k)
  (at_ false).orElse (fun _ => at_ true)

/-- The banks of the group that a bank stands in, as first bank and count: alone where no table holds it. -/
def Block.groupOf (b : Block) (k : Nat) : Nat × Nat :=
  match b.bankTable k with
  | none => (k, 1)
  | some t => (k - k % groupBanks t.width, groupBanks t.width)

/-- The spare that stands in for a row of a bank, if one does, is given up: it has a hard fault (R173). -/
def Block.spareGone (b : Block) (k r : Nat) : Block :=
  match NMap.find? b.tcam.steered (8192 * k + r) with
  | none => b
  | some s => b.withTcam { b.tcam with steered := NMap.del b.tcam.steered (8192 * k + r)
                                       deadSpares := NMap.put b.tcam.deadSpares (64 * k + s) true }

/-- A row of bank `k` with a hard fault is repaired into the same spare of every bank of its group (R173).
DESIGN CHOICE, unsafe: log entry 113. -/
def Block.rowRepair (b : Block) (g n k r spare : Nat) : Block :=
  let b1 := (upTo n).foldl (fun x i =>
    let y := x.spareGone (g + i) r
    y.withTcam { y.tcam with steered := NMap.put y.tcam.steered (8192 * (g + i) + r) spare }) b
  (((b1.count TCM.REPAIRED_CNT_LO 6).intRaw 0x25 3).intRawIf ((upTo n).any (fun i => b1.noSpare (g + i))) 0x25 5).event 0x25 3 2
    (leBytes 1 k ++ leBytes 2 r ++ leBytes 1 spare)

/-- A row of bank `k` with a hard fault is retired in every bank of its group (R174): its entry, if it holds one, goes elsewhere in
its table first, or is lost. -/
def Block.rowRetire (b : Block) (g n k r : Nat) : Block :=
  let x := b.trow g r
  let bad := (b.badBanks g r).map (· - g)
  let mark (y : Block) : Block := (upTo n).foldl (fun z i =>
    let u := z.spareGone (g + i) r
    u.withTcam { u.tcam with retired := NMap.put u.tcam.retired (8192 * (g + i) + r) true }) y
  let done (y : Block) : Block := ((y.count TCM.RETIRED_CNT_LO 6).intRaw 0x25 4).event 0x25 3 3
    (leBytes 1 k ++ leBytes 2 r ++ leBytes 4 x.handle)
  let b1 := (mark b).setRow g r {}
  if x.state = 0 then done (mark b)
  else match b1.bankTable g with
    | none => done b1
    | some t =>
      match b1.place t x.prio with
      | none => (done b1).event 0x25 3 4 (leBytes 2 t.id ++ leBytes 4 x.handle)
      | some q => done ((b1.placeRow q x).markCopies (bad.map (q.1 + ·)) q.2.row true)

/-- A row has a hard fault (R173, R174): the lowest spare that is free in every bank of its group takes its place, or the row is
retired. -/
def Block.rowFault (b : Block) (k r : Nat) : Block :=
  let gn := b.groupOf k
  match (upTo 64).find? (fun s => (upTo gn.2).all (fun i => b.spareFree (gn.1 + i) s)) with
  | some s => if b.flag TCM.CTL TCM.CTL_AUTO_REPAIR then b.rowRepair gn.1 gn.2 k r s else b.rowRetire gn.1 gn.2 k r
  | none => b.rowRetire gn.1 gn.2 k r

/-- Scrub one row: bank and row (R172). A row whose stored copy is unusable cannot be compared, and a retired row holds nothing. -/
def Block.rowScrub (b : Block) (k r : Nat) (s : ScrubSeen) : Block :=
  let gn := b.groupOf k
  if (b.badBank gn.2 gn.1 r []).isSome || !b.rowUsable gn.2 gn.1 r then b
  else match s with
    | .clean => b
    | .soft => b.count TCM.SCRUB_FIX_CNT_LO 6
    | .hard => b.rowFault k r

/-- TCAM_SCRUB_PASS: the rows that differ from their stored copies, as the pass finds them, once `SCRUB.TICKS` ticks have fired
since the last pass (R172). -/
def Block.scrubPass (b : Block) (found : List (Nat × Nat × ScrubSeen)) : Block :=
  if b.fdLive && b.flag TCM.CTL TCM.CTL_SCRUB_EN && b.tcam.scrubFrom + b.fld TCM.SCRUB TCM.SCRUB_TICKS ≤ b.ticks then
    found.foldl (fun x e => if e.1 < 40 && e.2.1 < 8192 then x.rowScrub e.1 e.2.1 e.2.2 else x)
      (b.withTcam { b.tcam with scrubFrom := b.ticks })
  else b

/-- TCAM_ROW_SCRUB: the oldest row that a false hit queued (R159). -/
def Block.queuedScrub (b : Block) (s : ScrubSeen) : Block :=
  match b.tcam.scrubQ with
  | [] => b
  | a :: rest =>
    if b.fdLive then (b.withTcam { b.tcam with scrubQ := rest }).rowScrub (a / 8192) (a % 8192) s else b

/-- The march test at BRING-UP (R176): `faults` names the faulty rows by bank and row, a bank's spares after its 8,192 logical rows.
A faulty spare is not used; then each faulty logical row is repaired or retired.
DESIGN CHOICE, unsafe: log entry 185. -/
def Block.marchTest (b : Block) (faults : List (Nat × Nat)) : Block :=
  let b1 := faults.foldl (fun x p =>
    if p.1 < 40 && 8192 ≤ p.2 && p.2 < 8256 then
      x.withTcam { x.tcam with deadSpares := NMap.put x.tcam.deadSpares (64 * p.1 + (p.2 - 8192)) true }
    else x) b
  faults.foldl (fun x p =>
    if p.1 < 40 && p.2 < 8192 && x.rowUsable 1 p.1 p.2 && (NMap.find? x.tcam.steered (8192 * p.1 + p.2)).isNone then
      x.rowFault p.1 p.2 else x) b1

/-- A page soft reset of TCM: a descriptor in progress ends with ABORTED, and any step-through ends; rows, pending states and
repairs stay (R176). -/
def Block.tcmPageReset (b : Block) : Block :=
  ((b.withTcam { b.tcam with step := none, scrubQ := [] }).setFld TCM.STEP_STS TCM.STEP_STS_BUSY 0).bulkAbort 7

end Sys2Proof.Machine
end

