-- ==== Sys2Proof/Machine/ImageCheck.lean ====
section
/-! DEFINITION. The checks of an image at its load and of a bank again later (R77, R78): a failure is its code and DETAIL, the first
one met in the order of R77. -/

namespace Sys2Proof.Machine

/-- A DETAIL of a failed check. -/
abbrev Bad := Option Nat

/-- The first failure of a list of checks. -/
def firstBad (l : List Bad) : Bad := l.findSome? id

/-- A failure with a DETAIL, if a condition holds. -/
def badWhen (c : Bool) (detail : Nat) : Bad := if c then some detail else none

/-- All of `n` bytes at `o` are zero. -/
def zeroAt (bs : List Byte) (o n : Nat) : Bool := leAt bs o n = 0

/-- Code 0x06 for a header field (R71). -/
def badHeader (im : List Byte) : Bad :=
  badWhen (1 < u8At im 9 || !zeroAt im 0x16 2 || !zeroAt im 0x28 16 || leAt im 0x1C 4 ≠ 288
    || im.length < 0x40 + 16 * leAt im 0x14 2) 0xFFFF

/-- A section type that belongs to each frond (R73). -/
def perFrond (t : Nat) : Bool := t = 4 || t = 5 || t = 7

/-- Code 0x06 for an entry of the section table (R72, R73). -/
def badEntry (im : List Byte) (s : Sec) : Bool :=
  s.typ = 0 || 10 < s.typ || s.res1 ≠ 0 || s.res2 ≠ 0
    || (if perFrond s.typ then 16 ≤ s.frond else if s.typ = 10 then 16 ≤ s.frond && s.frond ≠ 0xFF else s.frond ≠ 0xFF)
    || im.length < s.off + s.len || (s.len ≠ 0 && s.off < 0x40 + 16 * leAt im 0x14 2)

/-- Two sections overlap (R73). -/
def secOverlap (a c : Sec) : Bool := a.len ≠ 0 && c.len ≠ 0 && a.off < c.off + c.len && c.off < a.off + a.len

/-- Code 0x06 over the section table: entries, overlaps, and a type given twice; of two sections the later one is named.
DEDUCED, unsafe: log entry 26. -/
def badSections (im : List Byte) : Bad :=
  let ss := imgSecs im
  firstBad (ss.map (fun s => badWhen (badEntry im s) s.idx)
    ++ ss.map (fun s => badWhen (ss.any (fun t => t.idx < s.idx && secOverlap t s)) s.idx)
    ++ ss.map (fun s => badWhen (s.typ ≠ 10 && ss.any (fun t => t.idx < s.idx && t.typ = s.typ && t.frond = s.frond)) s.idx))

/-- The image has a search claim (R73). -/
def hasSearch (im : List Byte) : Bool := (imgSlots im).any (fun r => (slotRec r).kind = 2)

/-- Code 0x06 for a required section that is missing: 0xFE00 + TYPE (R73). -/
def badMissing (im : List Byte) : Bad :=
  let ss := imgSecs im
  firstBad (([1, 2, 3, 4, 5, 6, 7, 8]).map (fun t =>
      badWhen (if perFrond t then !(upTo 16).all (fun f => (secOfF ss t f).isSome) else (secOf ss t).isNone) (0xFE00 + t))
    ++ [badWhen (hasSearch im && (secOf ss 9).isNone) 0xFE09])

/-- The index of a section, for DETAIL. -/
def secIx (s : Option Sec) : Nat := (s.map (fun x => x.idx)).getD 0xFFFF

/-- Code 0x06 for the MANIFEST (R74). -/
def badManifest (im : List Byte) : Bad :=
  let s := secOf (imgSecs im) 1
  let m := imgManifest im
  firstBad [badWhen (leAt im 0x18 4 ≠ (s.map (fun x => x.off)).getD 0) 0xFFFF,
    badWhen (m.length ≠ 288 || u8At m 5 ≠ 0 || !zeroAt m 0x1A 6
      || (upTo 16).any (fun f => u8At (manFrond m f) 3 ≠ 0 || !zeroAt (manFrond m f) 12 4)) (secIx s)]

/-- Code 0x06 for a frond's sections (R73, R512). -/
def badFrondSecs (im : List Byte) (f : Nat) : Bad :=
  let ss := imgSecs im
  let pc := secOfF ss 4 f
  let body := secBytes im pc
  let ds := pinnaDescs 48 body
  firstBad [badWhen ((secBytes im (secOfF ss 7 f)).length ≠ 98) (secIx (secOfF ss 7 f)),
    badWhen (pinnaLen 48 body ≠ body.length || ds.any (fun d => 4 < u8At d 0 || !zeroAt d 0x11 3)) (secIx pc),
    badWhen ((secBytes im (secOfF ss 5 f)).length ≠ 32 * ds.foldl (fun n d => n + leAt d 8 2) 0) (secIx (secOfF ss 5 f))]

/-- Code 0x06 for PHV_LAYOUT: a field declaration that does not lie in its container (R73), the form of declarations being open. -/
def badLayout (im : List Byte) : Bad :=
  let s := secOf (imgSecs im) 2
  badWhen (Config.layoutBad (secBytes im s)) (secIx s)

/-- A TABLE_REGIONS record uses a reserved field or code (R77, R121). -/
def reservedRegion (r : Region) : Bool := r.id = 0 || r.kind = 0 || r.kind = 7 || r.res ≠ 0

/-- Code 0x06 for the SLOT_TABLE and TABLE_REGIONS (R73, R75, R121). -/
def badTables (im : List Byte) : Bad :=
  let ss := imgSecs im
  let m := imgManifest im
  firstBad [badWhen ((secBytes im (secOf ss 6)).length ≠ 8 * (leAt m 0x10 4 + leAt m 0x14 4)
      || (imgSlots im).any (fun r => (slotRec r).kind = 3 || (slotRec r).res ≠ 0)) (secIx (secOf ss 6)),
    badWhen ((secBytes im (secOf ss 8)).length ≠ 16 * leAt m 0x18 2 || (imgTables im).any reservedRegion) (secIx (secOf ss 8))]

/-- An intrinsic container, or none of R97. -/
def badContainer (id : Nat) : Bool := id < 2 || (32 ≤ id && id < 40) || 320 ≤ id


/-- The VALID extracts and transitions of a state. -/
def validExtracts (st : List Byte) : List (Nat × Nat) :=
  (upTo 8).filterMap (fun k => let e := extractAt st k; if e.2.2 then some (e.1, e.2.1) else none)

/-- A NEXT is out of range (R101). -/
def badNext (n count : Nat) : Bool := count ≤ n && n ≠ 0xFF

/-- A state record breaks R98 or R101.
DESIGN CHOICE, unsafe: log entry 29. -/
def badState (st : List Byte) (count : Nat) : Bool :=
  let flags := u8At st 0
  let lmin := leAt st 8 2
  let lmax := leAt st 10 2
  let o0 := leAt st 12 2
  let o1 := leAt st 14 2
  8 ≤ flags || 6 < u8At st 1 || 64 ≤ u8At st 6 || !zeroAt st 0x70 16
    || badNext (u8At st 7) count
    || lmin < 1 || lmax < lmin || 512 < lmax
    || (bitAt flags 1 && lmin ≤ u8At st 4)
    || (o0 ≠ 0xFFFF && lmin < o0 + 2)
    || (!bitAt flags 2 && o1 ≠ 0xFFFF && lmin < o1 + 1)
    || lmin < profileBytes (u8At st 1)
    || (upTo 8).any (fun k =>
        let w := leAt st (0x10 + 8 * k) 8
        bitAt w 63 && (w / 2 ^ 56 % 2 ^ 7 ≠ 0 || badNext (w / 2 ^ 48 % 2 ^ 8) count))
    || (upTo 8).any (fun k =>
        let w := leAt st (0x50 + 4 * k) 4
        bitAt w 31 && (w / 2 ^ 17 % 2 ^ 14 ≠ 0 || badContainer (w / 2 ^ 8 % 2 ^ 9)
          || lmin < w % 2 ^ 8 + contBytes (w / 2 ^ 8 % 2 ^ 9)))

/-- The states that follow a state in one step. -/
def nextStates (st : List Byte) : List Nat :=
  u8At st 7 :: (upTo 8).filterMap (fun k => let t := transAt st k; if t.2.2.2 then some t.2.2.1 else none)

/-- The states reachable from `todo`, within `fuel` rounds. -/
def reachStates (pg : List Byte) : Nat → List Nat → List Nat
  | 0, seen => seen
  | fuel + 1, seen =>
    let more := (seen.flatMap (fun i => nextStates (pgState pg i))).filter (fun i => i ≠ 0xFF && !seen.contains i)
    if more.isEmpty then seen else reachStates pg fuel (seen ++ more.eraseDups)

/-- The PARSE_GRAPH section breaks R96 to R101. -/
def badGraph (im : List Byte) : Bool :=
  let pg := imgGraph im
  let man := imgManifest im
  let n := leAt pg 0 2
  let scan := leAt pg 8 2
  let payAt := u8At pg 7
  let payC := leAt pg 10 2
  let rngC := leAt pg 12 2
  let states := (upTo n).map (pgState pg)
  let dsts := states.flatMap (fun st => (validExtracts st).map (·.2))
  n < 1 || 255 < n || pg.length ≠ 32 + 128 * n
    || u8At pg 2 < 1 || 32 < u8At pg 2 || u8At pg 3 < 1 || 32 < u8At pg 3
    || n ≤ u8At pg 4 || n ≤ u8At pg 5 || badNext (u8At pg 6) n
    || !zeroAt pg 0x0E 2 || !zeroAt pg 0x18 8
    || manParse man false ≠ graphParse pg false || manParse man true ≠ graphParse pg true
    || states.any (fun st => badState st n)
    || (scan ≠ 0 && (scan < 16 || 256 < scan || scan % 16 ≠ 0 || 48 < payAt || payC < 32 || 160 ≤ payC || badContainer payC
        || dsts.contains payC
        || (upTo 8).any (fun f => ((imgPinnae im f).take payAt).any (fun d => maskHas d payC))
        || (upTo 8).any (fun f => (boundaries (imgPinnae im f)).getD payAt 0 < 21)))
    || (rngC ≠ 0xFFFF && (32 ≤ rngC || badContainer rngC || dsts.contains rngC))
    || (upTo 4).any (fun k =>
        let w := leAt pg (0x10 + 2 * k) 2
        w ≠ 0xFFFF && (n ≤ w % 2 ^ 8 || leAt (pgState pg (w % 2 ^ 8)) 8 2 < w / 2 ^ 8 + 2))
    || (reachStates pg 255 [u8At pg 5]).any (fun i => bitAt (u8At (pgState pg i) 0) 0)

/-- The TCAM_LAYOUT section breaks R153. -/
def badTcam (im : List Byte) : Bool :=
  let s := secBytes im (secOf (imgSecs im) 9)
  let ts := imgTcam im
  let ids := (imgTables im).map (fun r => r.id)
  let searches := ((imgSlots im).map slotRec).filter (fun r => r.kind = 2)
  s.length ≠ 16 + 16 * leAt s 0 2 || leAt s 0 2 < 1 || 40 < leAt s 0 2 || !zeroAt s 2 14
    || ts.any (fun t => t.width = 3 || t.res ≠ 0 || t.id = 0 || ids.contains t.id || t.banks = 0
        || (upTo 40).any (fun k => bitAt t.banks k && !bitAt t.banks (k - k % groupBanks t.width))
        || (upTo 40).any (fun k => bitAt t.banks k &&
            !(upTo (groupBanks t.width)).all (fun i => bitAt t.banks (k - k % groupBanks t.width + i)))
        || ts.any (fun u => u.idx < t.idx && (u.id = t.id || u.banks &&& t.banks ≠ 0)))
    || searches.any (fun r =>
        let mine := searches.filter (fun q => q.frond = r.frond && q.pinna = r.pinna && q.table = r.table)
        match ts.find? (fun t => t.id = r.table) with
        | none => true
        | some t => mine.any (fun q => q.slot ≠ r.slot || !bitAt t.banks q.bank)
            || (upTo 40).any (fun k => bitAt t.banks k && (mine.filter (fun q => q.bank = k)).length ≠ 1))

/-- Code 0x06 (R77). -/
def check06 (im : List Byte) : Bad :=
  let ss := imgSecs im
  firstBad ([badHeader im, badSections im, badMissing im, badManifest im, badLayout im] ++ (upTo 16).map (badFrondSecs im)
    ++ [badTables im, badWhen (badGraph im) (secIx (secOf ss 3)),
        badWhen ((secOf ss 9).isSome && badTcam im) (secIx (secOf ss 9))])

/-- A pinna descriptor breaks R60, R67 or R512. -/
def badPinna (d : List Byte) : Bool :=
  let rd := u8At d 4
  let up := u8At d 5
  let tc := u8At d 6
  let hs := u8At d 7
  let mode := u8At d 0
  let bits := popcount 320 (leAt d 0x18 40)
  4 < u8At d 1 || 1280 < leAt d 2 2 || 640 * u8At d 1 < leAt d 2 2 || 4 < rd || 1 < up || 2 < tc || 2 < hs || 1024 < leAt d 8 2 || 16 < u8At d 10
    || 4 < u8At d 11 || 2048 < leAt d 12 2 || 32 < u8At d 14 || u8At d 14 ≠ bits || 2 < u8At d 15 || 1 < u8At d 16
    || (u8At d 16 = 1 && up ≠ 1) || leAt d 0x14 4 % 16 ≠ 0
    || ([1, 32, 33, 34, 35, 38]).any (maskHas d)
    || (if mode = 0 then !zeroAt d 1 16 || bits ≠ 0 else if mode = 1 then rd + up + tc + hs ≠ 0 else false)
    || (if tc ≠ 0 then mode ≠ 4 else if hs ≠ 0 then mode ≠ 3 else if rd + up ≠ 0 then mode ≠ 2 else false)

/-- Code 0x08 (R512). -/
def check08 (im : List Byte) : Bad :=
  let man := imgManifest im
  firstBad ((upTo 16).flatMap (fun f =>
    let ds := imgPinnae im f
    let r := manFrond man f
    let sum (o : Nat) : Nat := ds.foldl (fun n d => n + u8At d o) 0
    (ds.zipIdx.map (fun e => badWhen (badPinna e.1) (f * 64 + e.2)))
      ++ [badWhen (u8At r 2 ≠ (ds.filter (fun d => u8At d 0 ≠ 0)).length || u8At r 10 ≠ sum 15 || u8At r 11 ≠ sum 16
            || 96 < u8At r 10 || 48 < u8At r 11) (f * 64 + 63)]))

/-- Code 0x09: the latencies that the image states against those recomputed (R69, R81, R87). -/
def check09 (im : List Byte) : Bad :=
  let man := imgManifest im
  let cyc (f : Nat) : Nat := frondCycles (imgPinnae im f)
  firstBad ((upTo 16).flatMap (fun f =>
      let bt := secBytes im (secOfF (imgSecs im) 7 f)
      ((boundaries (imgPinnae im f)).zipIdx.map (fun e => badWhen (leAt bt (2 * e.2) 2 ≠ e.1) (f * 64 + e.2)))
        ++ [badWhen (manCycles man f ≠ cyc f) (f * 64 + 49)])
    ++ [badWhen (manRecircMax man ≠ recircMax man (ingressMax cyc) || manWindow man ≠ drainWindow man cyc) 0xFFFF])

/-- Code 0x0A (R62, R75, R154, R512): the records of one table are one search of its pinna, which takes one of its search slots.
DEDUCED, unsafe: log entry 184. -/
def check0A (im : List Byte) : Bad :=
  let man := imgManifest im
  let rs := (imgSlots im).map slotRec
  let count (p : SlotRec → Bool) : Nat := (rs.filter p).length
  firstBad ((rs.zipIdx.map (fun e =>
      let r := e.1
      badWhen (47 < r.pinna || r.cycle ≠ (boundaries (imgPinnae im r.frond)).getD r.pinna 0 + 2
        || (r.kind = 1 && r.slot ≠ 0) || (r.kind = 2 && (1 < r.slot || 39 < r.bank))
        || (rs.take e.2).any (fun q => q.kind = r.kind && q.bank = r.bank && q.slot = r.slot)) e.2))
    ++ (upTo 16).flatMap (fun f => (imgPinnae im f).zipIdx.map (fun e =>
        let mine (k : Nat) : List SlotRec := rs.filter (fun r => r.frond = f && r.pinna = e.2 && r.kind = k)
        badWhen ((mine 0).length ≠ u8At e.1 4 || (mine 1).length ≠ u8At e.1 5
          || ((mine 2).map (fun r => r.table)).eraseDups.length ≠ u8At e.1 6) (0xE000 + f * 64 + e.2)))
    ++ (upTo 16).map (fun f =>
        let n (k : Nat) : Nat := count (fun r => r.frond = f && r.kind = k)
        let m := manFrond man f
        badWhen (leAt m 4 2 ≠ n 0 || leAt m 6 2 ≠ n 1 || leAt m 8 2 ≠ n 2) (0xF000 + f))
    ++ [badWhen (leAt man 0x10 4 ≠ count (fun r => r.kind ≠ 2) || leAt man 0x14 4 ≠ count (fun r => r.kind = 2)) 0xFFFF])

/-- Code 0x0B: a slot that the active image claims for another pinna (R63). -/
def check0B (im : List Byte) (active : Option (List Byte)) : Bad :=
  match active with
  | none => none
  | some act =>
    let old := (imgSlots act).map slotRec
    firstBad (((imgSlots im).map slotRec).zipIdx.map (fun e =>
      badWhen (old.any (fun q => q.kind = e.1.kind && q.bank = e.1.bank && q.slot = e.1.slot
        && !(q.frond = e.1.frond && q.pinna = e.1.pinna))) e.2))

/-- Two regions share a word. -/
def regionOverlap (r q : Region) : Bool := r.quad = q.quad && r.first < q.first + q.len && q.first < r.first + r.len

/-- Two regions coincide under one LAYOUT_ID (R122). -/
def regionSame (r q : Region) : Bool := r.quad = q.quad && r.first = q.first && r.len = q.len && r.layout = q.layout

/-- A region breaks R121 or the partition in force (R122). -/
def Block.badRegion (b : Block) (r : Region) : Bool :=
  r.len < 1 || 24576 < r.first + r.len
    || (if r.kind = 1 || r.kind = 2 then 19 < r.level && r.level ≠ 31 else r.level ≠ 0)
    || r.units.any (fun u => b.unitClass (LKP.PART_ACTIVE_0 0) u ≠ kindClass r.kind)

/-- The level sequences of a copy: KIND, LEVEL and LENGTH of its regions in order, level by level (R122).
DEDUCED, unsafe: log entry 187. -/
def copyShape (rs : List Region) (c : Nat) : List (List (Nat × Nat)) :=
  (upTo 32).flatMap (fun l => ([1, 2, 3, 4, 5, 6]).map (fun k =>
    ((copyOf rs c).filter (fun r => r.level = l && r.kind = k)).map (fun r => (r.kind, r.len))))

/-- The table of a region breaks R122: the record at fault. A table is of one KIND, but for the RESULT regions of an LPM
table.
DESIGN CHOICE, unsafe: log entry 188. -/
def badTable (rs : List Region) : Bad :=
  let cs := copiesOf rs
  let c0 := cs.headD 0
  let lpm := rs.any (fun r => r.kind = 1 || r.kind = 2)
  let kinds := (rs.map (fun r => r.kind)).filter (fun k => !(lpm && k = 6))
  let bad0 := (rs.headD ⟨0, 0, 0, 0, 0, 0, 0, 0, 0, 0⟩).idx
  firstBad ((cs.map (fun c => badWhen (copyShape rs c ≠ copyShape rs c0) (((copyOf rs c).map (fun r => r.idx)).headD bad0)))
    ++ [badWhen (lpm && !(rs.any (fun r => r.level = 0 && r.kind ≠ 6) && rs.any (fun r => r.level = 31)
            && rs.any (fun r => r.kind = 6))) bad0,
        badWhen (kinds.any (fun k => k ≠ kinds.headD k)) bad0])

/-- Code 0x0C (R122, R153). -/
def Block.check0C (b : Block) (im : List Byte) (active : Option (List Byte)) : Bad :=
  let rs := imgTables im
  let old := (active.map imgTables).getD []
  let oldT := (active.map imgTcam).getD []
  firstBad ((rs.map (fun r =>
      badWhen (b.badRegion r || rs.any (fun q => q.idx < r.idx && regionOverlap r q)
        || old.any (fun q => regionOverlap r q && !regionSame r q)) r.idx))
    ++ ((rs.map (fun r => r.id)).eraseDups.map (fun i => badTable (rs.filter (fun r => r.id = i))))
    ++ (imgTcam im).map (fun t =>
        badWhen (oldT.any (fun u => u.banks &&& t.banks ≠ 0
          && !(u.id = t.id && u.width = t.width && u.banks = t.banks && u.miss = t.miss))) (0x8000 + t.idx)))

/-- Code 0x0D (R56, R77). -/
def Block.check0D (b : Block) (im : List Byte) : Bad :=
  firstBad (badWhen (4 < manRecircLimit (imgManifest im)) 0
    :: (upTo 8).map (fun f => badWhen (!b.calImageOk (FRD.CAL_ACTIVE f 0) im) f))

/-- Codes 0x07 to 0x0E against an active image: code and DETAIL of the first failure (R77, R78). -/
def Block.recheck (b : Block) (im : List Byte) (active : Option (List Byte)) : Option (Nat × Nat) :=
  let at_ (code : Nat) (x : Bad) : Option (Nat × Nat) := x.map (fun d => (code, d))
  ([at_ 0x07 (badWhen (imgId im = 0 || decide (active.map imgId = some (imgId im))) 0), at_ 0x08 (check08 im),
    at_ 0x09 (check09 im), at_ 0x0A (check0A im), at_ 0x0B (check0B im active), at_ 0x0C (b.check0C im active),
    at_ 0x0D (b.check0D im),
    at_ 0x0E (badWhen (!imgBreak im && (match active with
      | some act => imgLayout act ≠ imgLayout im
      | none => false)) 0)]).findSome? id

/-- Codes 0x01 to 0x06 (R77). -/
def earlyChecks (im : List Byte) (loadLen : Nat) : Option (Nat × Nat) :=
  if leAt im 0 4 ≠ 0x4F4E5A45 || leAt im 10 2 ≠ 0x40 then some (1, 0)
  else if u8At im 5 ≠ 1 || 2 < u8At im 4 then some (2, leAt im 4 2)
  else if leAt im 6 2 ≠ 0x1280 || u8At im 8 ≠ 0x0B then some (3, 0)
  else if leAt im 12 4 ≠ loadLen || 0x2000000 < leAt im 12 4 || leAt im 12 4 % 64 ≠ 0 then some (4, 0)
  else if imgSeal im ≠ leAt im 0x38 8 then some (5, 0)
  else (check06 im).map (fun d => (6, d))

/-- Every check of R77 on a loaded image.
DEDUCED, unsafe: log entry 27. -/
def Block.imageChecks (b : Block) (im : List Byte) (loadLen : Nat) : Option (Nat × Nat) :=
  match earlyChecks im loadLen with
  | some x => some x
  | none => b.recheck im ((b.bankIn 3).map b.bankImage)

end Sys2Proof.Machine
end

