-- ==== Sys2Proof/Machine/Program.lean ====
section
/-! DEFINITION. The program loader and the swap: START, ABORT and ACTIVATE (R76), PROGRAM_BLOCK (R419), the verdict (R77, R78), the
swap and the activation (R80, R84). -/

namespace Sys2Proof.Machine

/-- Change the loader. -/
def Block.withProg (b : Block) (f : ProgSt → ProgSt) : Block := { b with fd := { b.fd with prog := f b.fd.prog } }

/-- Put bytes into a bank. -/
def Block.setImage (b : Block) (n : Nat) (im : List Byte) : Block :=
  b.withProg (fun p => if n = 0 then { p with bank0 := { image := im } } else { p with bank1 := { image := im } })

/-- A bank that fails the re-check becomes REFUSED with the new code and its DETAIL (R78). No register shows a code that no load gave.
DESIGN CHOICE, unsafe: log entry 25. -/
def Block.refuseBank (b : Block) (n : Nat) (why : Nat × Nat) : Block :=
  (b.withProg (fun p => if n = 0 then { p with bank0 := { p.bank0 with refused := some why } }
    else { p with bank1 := { p.bank1 with refused := some why } })).setBank n 6

/-- `PROG_LOAD_STS.STATE` (R76). -/
def Block.loadState (b : Block) : Nat := b.fld GLB.PROG_LOAD_STS GLB.PROG_LOAD_STS_STATE

/-- A load receives or is verified. -/
def Block.loading (b : Block) : Bool := b.loadState = 1 || b.loadState = 2

/-- The outcome of a load, beside its BANK; START reads 1 while STATE is 1 or 2. -/
def Block.loadOut (b : Block) (st code detail : Nat) : Block :=
  (((b.setFld GLB.PROG_LOAD_STS GLB.PROG_LOAD_STS_STATE st).setFld GLB.PROG_LOAD_STS GLB.PROG_LOAD_STS_REFUSE_CODE code).setFld
    GLB.PROG_LOAD_STS GLB.PROG_LOAD_STS_DETAIL detail).setFld GLB.PROG_LOAD_CTL GLB.PROG_LOAD_CTL_START (b2n (st = 1 || st = 2))

/-- A load ends refused or aborted, with PROGRAM event 0x02 (R77). -/
def Block.loadFail (b : Block) (st code detail : Nat) : Block :=
  (b.loadOut st code detail).event 0 1 2 (leBytes 1 code ++ leBytes 2 detail)

/-- The modes in which a program may be loaded and swapped (R76, R80). -/
def progMode : Mode → Bool
  | .quiescent | .forwarding | .degraded | .drain | .handover => true
  | _ => false

/-- The bank a load goes to (R76). -/
def Block.loadTarget (b : Block) : Nat :=
  match b.bankIn 3 with
  | some a => 1 - a
  | none => if b.fd.prog.everLoaded then 1 - b.fld GLB.PROG_LOAD_STS GLB.PROG_LOAD_STS_BANK else 0

/-- START (R76). -/
def Block.loadStart (b : Block) (src : Source) : Block :=
  if b.loading then b.captureAt GLB.PROG_LOAD_CTL src 0 3
  else if !progMode b.mode.mode || (b.bankIn 4).isSome then b.loadFail 4 0x0F 0
  else if b.fld GLB.PROG_LOAD_LEN GLB.PROG_LOAD_LEN_LEN = 0 then b.loadFail 4 0x04 0
  else
    let t := b.loadTarget
    let b1 := ((b.setImage t []).withProg (fun p => { p with received := [], everLoaded := true })).setBank t 1
    (b1.setFld GLB.PROG_LOAD_STS GLB.PROG_LOAD_STS_BANK t).loadOut 1 0 0

/-- A load ends aborted: its bank becomes EMPTY (R76, R419). -/
def Block.loadAbort (b : Block) : Block :=
  if b.loading then
    let t := b.fld GLB.PROG_LOAD_STS GLB.PROG_LOAD_STS_BANK
    (((b.setImage t []).withProg (fun p => { p with received := [] })).setBank t 0).loadFail 5 0x0F 0
  else b

/-- The outcome of an attempt at a swap or an activation (R80). -/
def Block.swapOut (b : Block) (result : Nat) : Block :=
  let b1 := (b.setFld GLB.PROG_SWAP_STS GLB.PROG_SWAP_STS_RESULT result).setFld GLB.PROG_SWAP_STS GLB.PROG_SWAP_STS_EPOCH_AFTER
    b.fd.prog.epoch
  if result = 1 then b1.event 0 1 3 (leBytes 2 b.fd.prog.epoch) else b1.event 0 1 4 (leBytes 1 result)

/-- ACTIVATE: in QUIESCENT the bit waits for the tick boundary (R37). -/
def Block.activate (b : Block) : Block :=
  if b.mode.mode = .quiescent then b.setFld GLB.PROG_LOAD_CTL GLB.PROG_LOAD_CTL_ACTIVATE 1
  else (b.setFld GLB.PROG_LOAD_CTL GLB.PROG_LOAD_CTL_ACTIVATE 0).swapOut 5

/-- A write of `PROG_LOAD_CTL`: ABORT, then START, then ACTIVATE (R76). ABORT reads 0, and START and ACTIVATE stand as they
stood until the write acts. -/
def effProgLoad (src : Source) (w : WriteOut) (old : Word) (b : Block) : Block :=
  let b0 := (b.setReg GLB.PROG_LOAD_CTL old).setFld GLB.PROG_LOAD_CTL GLB.PROG_LOAD_CTL_ABORT 0
  let b1 := if wf w.took GLB.PROG_LOAD_CTL_ABORT = 1 then b0.loadAbort else b0
  let b2 := if wf w.took GLB.PROG_LOAD_CTL_START = 1 then b1.loadStart src else b1
  if wf w.took GLB.PROG_LOAD_CTL_ACTIVATE = 1 then b2.activate else b2

/-- A bank becomes ACTIVE: the epoch number advances, the record of a layout break follows the image, and the other bank, if
VERIFIED, is checked again against it (R37, R78, R84). The break is recorded for an image that sets LAYOUT_BREAK, whether or not its
META_LAYOUT_ID differs.
DEDUCED, unsafe: log entry 183. -/
def Block.goActive (b : Block) (n : Nat) : Block :=
  let im := b.bankImage n
  let e := (b.fd.prog.epoch + 1) % 2 ^ 16
  let b1 := (b.withProg (fun p => { p with epoch := e })).setBank n 3
  let b2 := b1.setReg GLB.PROG_BREAK_EPOCH (if imgBreak im then BitVec.ofNat 32 (2 ^ 16 + e) else 0#32)
  if b2.bankState (1 - n) = 2 then
    match b2.recheck (b2.bankImage (1 - n)) (some im) with
    | some why => b2.refuseBank (1 - n) why
    | none => b2
  else b2

/-- What the re-check of a bank against the active image finds (R78). -/
def Block.recheckFails (b : Block) (n : Nat) : Option (Nat × Nat) :=
  b.recheck (b.bankImage n) ((b.bankIn 3).map b.bankImage)

/-- The tick boundary after ACTIVATE (R37).
DESIGN CHOICE, unsafe: log entry 36. -/
def Block.activateApply (b : Block) : Block :=
  if !b.flag GLB.PROG_LOAD_CTL GLB.PROG_LOAD_CTL_ACTIVATE then b
  else
    let b0 := b.setFld GLB.PROG_LOAD_CTL GLB.PROG_LOAD_CTL_ACTIVATE 0
    if b0.mode.mode ≠ .quiescent then b0.swapOut 5
    else
      let last := b0.fld GLB.PROG_LOAD_STS GLB.PROG_LOAD_STS_BANK
      let pick := if b0.bankState 0 = 2 && b0.bankState 1 = 2 then some last else b0.bankIn 2
      match pick with
      | none => b0.swapOut 2
      | some n =>
        match b0.recheckFails n with
        | some why => (b0.refuseBank n why).swapOut 2
        | none => match b0.bankIn 3 with
          | some old => (((b0.setBank old 5).goActive n).expireBank old).swapOut 1
          | none => (b0.goActive n).swapOut 1

/-- The bank that holds an IMAGE_ID: in a state in which its register shows one, VERIFIED, ACTIVE, DRAINING or RETIRED, and of two such
one that the swap may take (R80).
DEDUCED, unsafe: log entry 31. -/
def Block.bankOfId (b : Block) (id : Nat) : Option Nat :=
  let has (n : Nat) : Bool := 2 ≤ b.bankState n && b.bankState n ≤ 5 && imgId (b.bankImage n) = id
  let fit (n : Nat) : Bool := has n && (b.bankState n = 2 || b.bankState n = 5)
  ([0, 1].find? fit).orElse (fun _ => [0, 1].find? has)

/-- A swap to an IMAGE_ID: its conditions in order, and the swap (R80, R81). -/
def Block.swapTo (b : Block) (id : Nat) : Block × Nat :=
  let no (x : Block) (r : Nat) : Block × Nat := (x.swapOut r, r)
  match b.bankOfId id with
  | none => no b 3
  | some n =>
    if b.bankState n ≠ 2 && b.bankState n ≠ 5 then no b 2
    else if (b.bankIn 4).isSome then no b 4
    else if !progMode b.mode.mode then no b 5
    else match b.recheckFails n with
    | some why => no (b.refuseBank n why) 2
    | none =>
      let b1 := match b.bankIn 3 with
        | some old => (b.setBank old 4).withProg (fun p => { p with drainLeft := 100 * manWindow (imgManifest (b.bankImage old)) })
        | none => b
      (((b1.goActive n).swapOut 1).drainCheck, 1)

/-- A PROGRAM_SWAP entry comes due (R80, R379). -/
def Block.programSwap (b : Block) : Block := b.ancExec 1 (fun e x => x.swapTo e.operand)

/-- Bytes written into the target bank by a PROGRAM_BLOCK; with the last byte verification starts (R419). -/
def Block.blockWrite (b : Block) (bs : List Byte) : Block :=
  let got := b.fd.prog.received ++ bs
  let b1 := b.withProg (fun p => { p with received := got })
  if got.length = b.fld GLB.PROG_LOAD_LEN GLB.PROG_LOAD_LEN_LEN then
    (b1.setImage (b.fld GLB.PROG_LOAD_STS GLB.PROG_LOAD_STS_BANK) got).loadOut 2 0 0
  else b1

/-- A PROGRAM_BLOCK descriptor: BAD_LEN, BAD_TARGET and DMA_ERR, or its bytes in order (R411, R419). -/
def programDesc (d : List Byte) (b : Block) : Block :=
  let len := leAt d 8 3
  let off := leAt d 0x10 4
  let end_ (x : Block) (st : Nat) : Block := x.giveBack 67 st
  if len = 0 || len % 64 ≠ 0 || 0x100000 < len || leAt d 0 8 % 64 ≠ 0 then end_ b 2
  else if b.loadState ≠ 1 then end_ b 3
  else if off ≠ b.fd.prog.received.length || b.fld GLB.PROG_LOAD_LEN GLB.PROG_LOAD_LEN_LEN < off + len then end_ b.loadAbort 2
  else if b.host.fails (leAt d 0 8) len then end_ b 4
  else end_ (b.blockWrite (b.dmaRead (leAt d 0 8) len)) 0

/-- The PROGRAM_BLOCK descriptor at the head of the table-bulk-load ring (R419).
DESIGN CHOICE, unsafe: log entry 37. -/
def Block.programBlock (b : Block) : Block := b.bulkTable 8 (fun d _ x => programDesc d x)

/-- The verdict on a loaded image (R77). -/
def Block.imageVerify (b : Block) : Block :=
  if b.loadState ≠ 2 then b
  else
    let t := b.fld GLB.PROG_LOAD_STS GLB.PROG_LOAD_STS_BANK
    match b.imageChecks (b.bankImage t) (b.fld GLB.PROG_LOAD_LEN GLB.PROG_LOAD_LEN_LEN) with
    | none => ((b.setBank t 2).loadOut 3 0 0).event 0 1 1 []
    | some x => (b.setBank t 6).loadFail 4 x.1 x.2

end Sys2Proof.Machine
end

