-- ==== Sys2Proof/Machine/Scheduler.lean ====
section
/-! DEFINITION. The scheduler's decisions and departures (R222 to R235), its records and calendars (R230, R232, R243), virtual
output queues, requests and grants (R237 to R241), and its resets (R242). -/

namespace Sys2Proof.Machine

/-- The scheduler decides and the block's data runs (R242, R274). -/
def Block.schRuns (b : Block) : Bool := dataRuns b.mode.mode && !b.quietHandover

/-- Everything of the scheduler but its frozen FAULT-HOLD (R242). -/
def Block.schLive (b : Block) : Bool := coreOn b.mode.mode && decide (b.mode.mode ≠ .faultHold)

/-- A departing packet is charged on its node and every ancestor, each by its own phase, and lowers their DEFICITs (R223,
R228). -/
def Block.chargePath (b : Block) (q len : Nat) : Block :=
  (upTo 5).foldl (fun y l =>
    let i := b.pathNode q l
    let x := b.nodeNow l i
    let commit := if b.committed l i then b.charged (b.nodeCommit l i) x.commit len else x.commit
    y.setNodeSt l i { x with commit := commit, peak := b.charged (b.nodePeak l i) x.peak len
                             deficit := if l < 4 then x.deficit - len else x.deficit }) b

/-- A packet too large for its port's FIFO is dropped at departure and counted (R209).
DEDUCED, unsafe: log entry 58. -/
def Block.oversize (b : Block) (q : Nat) : Block :=
  match b.headPacket q with
  | none => b
  | some ss =>
    let x := b.queue q
    let b1 := (b.setQueue q { x with head := x.head.drop ss.length, packets := x.packets - 1 }).freeSlots ss
    (((b1.count QMG.C_EGF_OVERSIZE_LO 0).starveCheck q).touch q).deficitCheck

/-- The chunks that a packet takes on the bridge: for each cell its header chunk and its payload (R21, R233). -/
def Block.packetChunks (b : Block) (q : Nat) : Nat :=
  match b.headPacket q with
  | none => 0
  | some ss => ss.foldl (fun n s => n + 1 + ceilDiv (b.swardAt s.addr).pay.length 32) 0


/-- The slice holds what the departure of a queue's packet takes from the pace buckets (R233). -/
def Block.paceHas (b : Block) (k q : Nat) : Bool :=
  !b.flag BRG.STS BRG.STS_HALF || 1000 * b.packetChunks q ≤ (b.paceNow k).chunks

/-- One decision's cost in the pace buckets (R233). -/
def Block.paceTake (b : Block) (k chunks : Nat) : Block :=
  let x := b.paceNow k
  b.setPace k { x with tokens := x.tokens - 12800
                       chunks := if b.flag BRG.STS BRG.STS_HALF then x.chunks - 1000 * chunks else x.chunks }

/-- A packet starts to depart on wire group `g` toward an egress frond (R193, R209, R217). -/
def Block.depart (b : Block) (g q p : Nat) : Block :=
  let len := b.headLen q
  let cells := ((b.headPacket q).getD []).length
  let need := if p < 256 then creditNeed len else 0
  let b1 := b.chargePath q len
  let b2 := if p < 256 then b1.setEgf p { b1.egf p with tdCredits := (b1.egf p).tdCredits - need, held := none } else b1
  let x := b2.group 1 g
  let b3 := b2.setGroup 1 g { x with departing := x.departing ++
    [{ queue := q, left := cells, idx := 0, tag := 0, outLport := if p < 256 then p else 0xFF, outNone := decide (256 ≤ p)
       credits := need, poison := false }] }
  (b3.setQueue q { b3.queue q with sending := true }).deficitCheck

/-- The queue that a LINE, RECIRC or HOST node sends from: its held choice, or the one that the tree gives (R222, R235). -/
def Block.choose (b : Block) (p : Nat) : Block × Option Nat :=
  match (if p < 256 then b.heldOf p else none) with
  | some q => (b, some q)
  | none => b.descend 4 p

/-- A decision of slice `k` for its node `p` (R209, R222, R235), which takes from the pace buckets whatever comes of it (R233). A packet
beyond SHARE is dropped; one whose need exceeds the credits held becomes the port's held choice. -/
def Block.sliceDecide (b : Block) (k g p : Nat) : Block :=
  let r := b.choose p
  match r.2 with
  | none => b
  | some q =>
    if !r.1.paceHas k q then b
    else
      let b1 := r.1.paceTake k (r.1.packetChunks q)
      let x := b1.egf p
      let need := creditNeed (b1.headLen q)
      if p < 256 && 32 * x.share < need then (b1.setEgf p { x with held := none }).oversize q
      else if p < 256 && x.tdCredits < need then b1.setEgf p { x with held := some q }
      else b1.depart g q p

/-- An owner code of a departure calendar as an L5 node of slice `k` (R231). -/
def ownerNode (k owner : Nat) : Option Nat :=
  if owner < 0x20 then some (32 * k + owner)
  else if owner = 0x20 then some (264 + k)
  else if owner = 0x21 then some (272 + k)
  else none

/-- The node of a calendar entry that the engine takes: it is eligible and sends no packet (R193, R231). -/
def Block.ownerReady (b : Block) (k owner : Nat) : Option Nat :=
  match ownerNode k owner with
  | none => none
  | some p => if b.eligible 4 p && !b.nodeSending 4 p then some p else none

/-- The check of a departure calendar (R232): reserved owner codes, and the primaries of every enabled LINE node. -/
def Block.schCalOk (b : Block) (k : Nat) : Bool :=
  let base := SCH.CAL_SHADOW k 0
  let ok (o : Nat) : Bool := o ≤ 0x21 || o = 0x3F
  ((upTo 128).map (b.calEntry base)).all (fun e => ok e.1 && ok e.2)
    && (upTo 32).all (fun p => !b.nodeEn 4 (32 * k + p)
      || entriesFor (b.lportSpeed (32 * k + p)) ≤ b.calPrimaries base p)

/-- Slice `k`'s calendar stands at position 0: a pending commit is checked, and the shadow becomes active from this cycle, or
COMMIT_FAIL sets (R232). At another position nothing happens. -/
def Block.schCalCheck (b : Block) (k : Nat) : Block :=
  if !b.schLive || NMap.get 0 b.td.sched.calPos k ≠ 0 || !b.flag (SCH.CAL_CTL k) SCH.CAL_CTL_COMMIT then b
  else
    let b1 := b.setFld (SCH.CAL_CTL k) SCH.CAL_CTL_COMMIT 0
    if b.schCalOk k then b1.calCopy (SCH.CAL_SHADOW k 0) (SCH.CAL_ACTIVE k 0)
    else ((b1.setFld (SCH.CAL_CTL k) SCH.CAL_CTL_COMMIT_FAIL 1).intRaw 0x82 2).event 0x82 5 3 [BitVec.ofNat 8 k]

/-- The calendar position of slice `k` advances by one (R231). -/
def Block.calStep (b : Block) (k : Nat) : Block :=
  b.withSched { b.td.sched with calPos := NMap.set 0 b.td.sched.calPos k ((NMap.get 0 b.td.sched.calPos k + 1) % 128) }

/-- One cycle of line slice engine `k` (R225, R231): the calendar moves on, checked at its wrap, and the primary or the secondary owner
decides if the slice holds a pace token. `pick` says which of the slice's wire groups a packet takes. -/
def Block.sliceEngine (b0 : Block) (k pick : Nat) : Block :=
  let b := b0.schCalCheck k
  let e := b.calEntry (SCH.CAL_ACTIVE k 0) (NMap.get 0 b.td.sched.calPos k)
  let b1 := (b.calStep k).deficitCheck
  if (b1.paceNow k).tokens < 12800 then b1
  else
    match b1.ownerReady k e.1, b1.ownerReady k e.2 with
    | some p, _ => (b1.sliceDecide k (4 * k + pick % 4) p).pmc 0x0B k 1
    | none, some p => (b1.sliceDecide k (4 * k + pick % 4) p).pmc 0x0B k 1
    | none, none => b1.pmc 0x0B k 0

/-- The cells of a packet go into the staging of a fabric engine, each verified in the sward and given its FABRIC rind
(R263, R313, R319). A later cell that fails, and those after it, go out with inverted rinds. -/
def Block.stageCells (b : Block) (j q dev : Nat) : Nat → Bool → List Slot → List Seen → Block
  | _, _, [], _ => b
  | i, poison, s :: r, seens =>
    let c := b.swardAt s.addr
    let v := verify (.sward q s.cseq s.addr) c (seens.headD {})
    let bad := poison || v.bad
    let b1 := if poison && v.bad then b else b.chkCount 2 v (leBytes 4 q) i
    let f : FCell := { sop := c.sop, eop := c.eop, dest := dev, src := b1.devId, engine := j, metaW := c.metaW
                       pktLen := c.pktLen, port := b1.voqPort q, cls := b1.voqClass q, pay := c.pay }
    let rn := rindMove (.sward q s.cseq s.addr) (.fabric dev b1.devId j (b1.nextSeq j dev)) c c false
    let b2 := (b1.stageCell j { f with rind := if bad then ~~~rn else rn }).swardFree s.addr
    Block.stageCells b2 j q dev (i + 1) bad r (seens.drop 1)

/-- A VOQ's packet departs to the fabric by engine `j` (R237, R263): its BALANCE falls by its cells. If the first cell fails
its check the packet is dropped (R319). -/
def Block.fabricDepart (b : Block) (j q : Nat) (seens : List Seen) : Block :=
  match b.headPacket q with
  | none => b
  | some ss =>
    match ss with
    | [] => b
    | s :: _ =>
      let v := verify (.sward q s.cseq s.addr) (b.swardAt s.addr) (seens.headD {})
      if v.bad then ((b.chkCount 2 v (leBytes 4 q) 0).dropHeadPacket q).deficitCheck
      else
        let dev := b.voqDev q
        let b1 := (b.chargePath q (b.headLen q)).firstSync j dev
        let b2 := b1.stageCells j q dev 0 false ss seens
        let x := b2.queue q
        let y := b2.voq q
        let b3 := (b2.setQueue q { x with head := x.head.drop ss.length, packets := x.packets - 1 }).setVoq q
          { y with balance := y.balance - ss.length * 256 }
        ((b3.starveCheck q).touch q).deficitCheck

/-- A VOQ under a FABRIC node that holds packets for a destination no lane reaches (R261). -/
def Block.unreachVoq (b : Block) (p : Nat) : Option Nat :=
  let qs : List (Nat × Queue) := b.td.store.queues
  (qs.find? (fun e =>
    decide (e.1 < b.voqCount) && b.pathEnd e.1 = p && decide (0 < e.2.packets) && !b.reachable (b.voqDev e.1))).map (fun e => e.1)

/-- One cycle of fabric engine `j` (R225, R261, R263). -/
def Block.fabricEngine (b : Block) (j : Nat) (seens : List Seen) : Block :=
  let p := 256 + j
  let b0 := b.deficitCheck
  let b1 := match b0.unreachVoq p with
    | some q => b0.eventOnce 0x0605FF 0x83 6 5 (leBytes 2 (b0.voqDev q))
    | none => b0
  if 448 < (b1.staging j).length || !b1.eligible 4 p then b1
  else
    let r := b1.descend 4 p
    match r.2 with
    | none => b1
    | some q => (r.1.fabricDepart j q seens).pmc 0x0B (8 + j) 1

/-- A decision engine's cycle: 0 to 7 the line slices, 8 to 15 the FABRIC nodes (R225). While no decisions are made, a slice's calendar moves
on all the same, but in FAULT-HOLD (R231, R242).
DEDUCED, unsafe: log entry 69. -/
def Block.decision (b : Block) (engine pick : Nat) (seens : List Seen) : Block :=
  if !b.schRuns then (if b.schLive && engine < 8 then (b.schCalCheck engine).calStep engine else b)
  else if engine < 8 then b.sliceEngine engine pick
  else b.fabricEngine (engine - 8) seens


/-- A SHAPER_COMMIT waits in the anchor queue. -/
def Block.shaperPosted (b : Block) : Bool := b.anchors.any (fun e => e.type = 3)

/-- The effect of a write of `SCH.SHP_CTL`: a COMMIT while a SHAPER_COMMIT is posted is discarded and captured under R11
(R378).
DEDUCED, unsafe: log entry 71. -/
def effShpCtl (src : Source) (w : WriteOut) (old : Word) (b : Block) : Block :=
  if fldGet SCH.SHP_CTL_COMMIT w.took = 1 && b.shaperPosted && fldGet SCH.SHP_CTL_COMMIT old = 0 then
    (b.setFld SCH.SHP_CTL SCH.SHP_CTL_COMMIT 0).captureAt SCH.SHP_CTL src 0 1
  else b

/-- The tick boundary with a profile commit pending (R230). -/
def Block.exchangeAtTick (b : Block) : Block :=
  if b.schLive && b.flag SCH.SHP_CTL SCH.SHP_CTL_COMMIT then b.profileExchange 0 else b

/-- SHAPER_COMMIT comes due (R230, R379). The spec gives its result no value: a free value.
DESIGN CHOICE, safe: log entry 70. -/
def shaperAnchor (_e : Anchor) (b : Block) : Block × Nat :=
  ((b.profileExchange 1).drawn, (Config.freeValue b.draws).toNat % 2 ^ 8)

/-- The number of nodes of a level (R216). -/
def levelCount (l : Nat) : Nat :=
  match l with
  | 0 => 1048576
  | 1 => 131072
  | 2 => 16384
  | 3 => 1024
  | _ => 288

/-- Whether an INDEX belongs to a KIND (R243). -/
def Block.schIndexOk (b : Block) (kind i : Nat) : Bool :=
  if kind ≤ 4 then i < levelCount kind
  else if kind = 5 then 1 ≤ i && i < 16384
  else if kind = 6 then i < 16384
  else if kind = 7 then i < b.voqCount
  else if kind = 8 then i < 256
  else if kind ≤ 13 then i < levelCount (kind - 9)
  else false

/-- A bucket in bits, signed, saturating at 32 bits (R243). -/
def bucketBits (v : Int) : Nat := ofSigned 32 (clampInt (-(2 ^ 31 : Nat)) (2 ^ 31 - 1) (v / 1000000))

/-- The words of a node state (R243). -/
def Block.nodeWords (b : Block) (l i : Nat) : List Nat :=
  let x := b.nodeNow l i
  let phase := if !b.eligible l i then 0 else if b.committed l i then 1 else 2
  let line := l = 4 && i < 256
  let w2 := phase + b2n (l = 0 && b.qPaused i) * 4 + b2n (l = 0 && b.misplaced i) * 8
    + b2n (line && (b.egf i).held.isSome) * 16 + (if line then min (b.egf i).tdCredits 0xFFFF * 2 ^ 16 else 0)
  [bucketBits x.commit, bucketBits x.peak, w2, ofSigned 20 x.deficit]

/-- The words that a READ loads (R243). -/
def Block.schWords (b : Block) (kind i : Nat) : List Nat :=
  if kind ≤ 4 then b.nodeRec kind i
  else if kind = 5 then b.shpWords (1 - b.profSet) i
  else if kind = 6 then b.shpWords b.profSet i
  else if kind = 7 then [NMap.get 0 b.td.sched.voqRec i, ofSigned 32 (b.voq i).balance, (b.voq i).state]
  else if kind = 8 then
    [b.grantWord i 0 % 2 ^ 14 + b2n (b.grant i).stopped * 2 ^ 31, b.grantWord i 1, b.grantWord i 2]
  else b.nodeWords (kind - 9) i

/-- Status of a record command: done, or failed with the first word at fault (R243). -/
def Block.schSts (b : Block) (failed : Option Nat) : Block :=
  match failed with
  | none => b.setReg SCH.STS 2
  | some w => (b.setReg SCH.STS 3).setFld SCH.STS SCH.STS_FAIL_WORD w

/-- KIND and INDEX of `SCH.SEL`. -/
def Block.schKind (b : Block) : Nat := b.fld SCH.SEL SCH.SEL_KIND
def Block.schIndex (b : Block) : Nat := b.fld SCH.SEL SCH.SEL_INDEX

/-- `SCH.CMD.READ` (R243): a node's buckets are first brought up to date. -/
def Block.schRead (b : Block) : Block :=
  let k := b.schKind
  let i := b.schIndex
  if !b.schIndexOk k i then b.schSts (some 0)
  else
    let b0 := if 9 ≤ k then b.nodeUp (k - 9) i else b
    let ws := b0.schWords k i
    ((upTo 4).foldl (fun y j => y.setReg (SCH.W j) (BitVec.ofNat 32 (ws.getD j 0))) b0).schSts none

/-- The first word of a node record that breaks a rule (R219, R243).
DEDUCED, unsafe: log entry 68. -/
def nodeBad (l : Nat) (ws : List Nat) : Option Nat :=
  let pfc := ws.getD 1 0 / 2 ^ 20 % 2 ^ 4
  if ws.getD 0 0 / 2 ^ 4 % 2 ^ 12 = 0 then some 0
  else if l < 4 && levelCount (l + 1) ≤ ws.getD 1 0 % 2 ^ 17 then some 1
  else if l = 0 && 8 ≤ pfc && pfc ≤ 14 then some 1
  else none

/-- The bits of a node record's words that exist (R243). -/
def nodeMask (l i : Nat) (ws : List Nat) : List Nat :=
  let w (k : Nat) : Nat := ws.getD k 0
  [w 0 % 2 ^ 16, w 1 % 2 ^ 17 + (if l = 0 then w 1 / 2 ^ 20 % 2 ^ 4 * 2 ^ 20 else 0),
   w 2 % 2 ^ 14 + w 2 / 2 ^ 16 % 2 ^ 14 * 2 ^ 16, if l = 4 && i < 256 then w 3 % 2 ^ 16 else 0]

/-- Write a node record (R224, R228): a new profile fills its bucket, and a new PARENT waits for the end of a packet that
the node is sending. -/
def Block.nodeWrite (b : Block) (l i : Nat) (ws : List Nat) : Block :=
  let b0 := b.nodeUp l i
  let oldW1 := b0.nodeWord l i 1
  let wait := l < 4 && b0.nodeSending l i && ws.getD 1 0 % 2 ^ 17 ≠ oldW1 % 2 ^ 17
  let w1 := if wait then ws.getD 1 0 - ws.getD 1 0 % 2 ^ 17 + oldW1 % 2 ^ 17 else ws.getD 1 0
  let key := nodeKey l i
  let rest := b0.td.sched.moves.filter (fun m => m.1 ≠ key)
  let b1 := (b0.setNodeRec l i (ws.set 1 w1)).withSched
    { (b0.setNodeRec l i (ws.set 1 w1)).td.sched with
      moves := if wait then rest ++ [(key, ws.getD 1 0 % 2 ^ 17)] else rest }
  let x := b1.nodeSt l i
  let c := if b1.nodeCommit l i ≠ b0.nodeCommit l i then b1.bucketFull (b1.nodeCommit l i) else x.commit
  let p := if b1.nodePeak l i ≠ b0.nodePeak l i then b1.bucketFull (b1.nodePeak l i) else x.peak
  ((b1.setNodeSt l i { x with commit := c, peak := p }).stopChecks).deficitCheck

/-- Write a grant generator's record (R240, R241). -/
def Block.grantWrite (b : Block) (p : Nat) (ws : List Nat) : Block :=
  let g := b.grantNow p
  let w := [ws.getD 0 0 % 2 ^ 14, ws.getD 1 0 % 2 ^ 28, ws.getD 2 0 % 2 ^ 28]
  let old := b.grantProf p
  let b1 := b.withSched { b.td.sched with grantRec := NMap.set [0, 0, 0] b.td.sched.grantRec p w }
  (b1.setGrant p { g with bucket := if b1.grantProf p ≠ old then b1.bucketFull (b1.grantProf p) else g.bucket }).stopCheck p

/-- `SCH.CMD.WRITE` (R243): the whole record is checked before anything is written. -/
def Block.schWrite (b : Block) : Block :=
  let k := b.schKind
  let i := b.schIndex
  let ws := (upTo 4).map (fun j => (b.reg (SCH.W j)).toNat)
  if !b.schIndexOk k i || k = 6 || 9 ≤ k then b.schSts (some 0)
  else if k ≤ 4 then
    (match nodeBad k ws with
      | some w => b.schSts (some w)
      | none => (b.nodeWrite k i (nodeMask k i ws)).schSts none)
  else if k = 5 then
    (b.withSched { b.td.sched with
      profiles := NMap.set [0, 0] b.td.sched.profiles ((1 - b.profSet) * 2 ^ 14 + i) (ws.take 2) }).schSts none
  else if k = 7 then
    let v := ws.getD 0 0
    let r := v % 2 ^ 11 + v / 2 ^ 16 % 2 ^ 11 * 2 ^ 16
    ((b.withSched { b.td.sched with voqRec := NMap.set 0 b.td.sched.voqRec i r }).schSts none).deficitCheck
  else if ws.getD 1 0 % 2 ^ 28 ≤ ws.getD 2 0 % 2 ^ 28 then b.schSts (some 2)
  else (b.grantWrite i ws).schSts none

/-- `SCH.CMD.COPY` (R230): the active set into the shadow. -/
def Block.schCopy (b : Block) : Block :=
  let a := b.profSet
  let act := b.td.sched.profiles.filter (fun e => e.1 / 2 ^ 14 = a)
  let sh := act.map (fun e => ((1 - a) * 2 ^ 14 + e.1 % 2 ^ 14, e.2))
  (b.withSched { b.td.sched with profiles := if a = 0 then act ++ sh else sh ++ act }).schSts none

/-- The shadow set takes no write: a commit is pending or an exchange is posted (R230). -/
def Block.shadowHeld (b : Block) : Bool := b.flag SCH.SHP_CTL SCH.SHP_CTL_COMMIT || b.shaperPosted

/-- A record command of SCH has not completed (R243). -/
def Block.schBusy (b : Block) : Bool := b.time.elapsed < b.td.sched.cmdUntil

/-- The effect of a write of `SCH.CMD`: WRITE, then COPY, then READ (R243); a write to the shadow while an exchange is
pending is discarded and captured (R230). -/
def effSchCmd (src : Source) (w : WriteOut) (_old : Word) (b : Block) : Block :=
  let b0 := b.setReg SCH.CMD 0
  let has (f : Fld) : Bool := fldGet f w.took ≠ 0
  if !has SCH.CMD_WRITE && !has SCH.CMD_COPY && !has SCH.CMD_READ then b0
  else if b.schBusy then b0.captureBusy SCH.CMD src 0
  else
    let b1 := if !has SCH.CMD_WRITE then b0
      else if b0.schKind = 5 && b0.shadowHeld then b0.captureBusy SCH.CMD src 1 else b0.schWrite
    let b2 := if !has SCH.CMD_COPY then b1
      else if b1.shadowHeld then b1.captureBusy SCH.CMD src 2 else b1.schCopy
    let b3 := if has SCH.CMD_READ then b2.schRead else b2
    (b3.withSched { b3.td.sched with cmdUntil := b.time.elapsed + b.cmdTime }).drawn

/-- REFRESH_TICKS and BALANCE_AGE (R237 to R239). -/
def Block.refreshTicks (b : Block) : Nat := b.fld SCH.REQ_CFG SCH.REQ_CFG_REFRESH_TICKS
def Block.balanceTicks (b : Block) : Nat := b.fld SCH.REQ_CFG SCH.REQ_CFG_BALANCE_AGE

/-- A VOQ that is not OFF sends its request again once REFRESH_TICKS ticks have fired since the last (R238). -/
def Block.requestRefresh (b : Block) (q : Nat) : Block :=
  let v := b.voq q
  if b.schLive && q < b.voqCount && v.state ≠ 0 && v.sentAt + b.refreshTicks ≤ b.ticks then
    (b.setVoq q { v with sentAt := b.ticks }).sendControl (b.voqDev q) (b.requestMsg q v.state)
  else b

/-- A VOQ whose depth has been 0 for BALANCE_AGE ticks fired loses a positive BALANCE (R237). -/
def Block.balanceAge (b : Block) (q : Nat) : Block :=
  let v := b.voq q
  if b.schLive && q < b.voqCount && (b.queue q).depth = 0 && 0 < v.balance
      && v.emptyAt.any (fun t => decide (t + b.balanceTicks ≤ b.ticks)) then
    (b.setVoq q { v with balance := 0 }).voqCheck q
  else b

/-- A request context's key: source device and source VOQ (R239). -/
def reqKey (src voq : Nat) : Nat := src * 2 ^ 20 + voq

/-- A REQUEST is received (R239): STATE 0 frees the context, 1 and 2 make or update it; 3 is reserved and does nothing. -/
def Block.requestIn (b : Block) (src voq port cls st : Nat) : Block :=
  let k := reqKey src voq
  let cs := b.td.sched.contexts
  if st = 0 then b.withSched { b.td.sched with contexts := NMap.del cs k }
  else if 3 ≤ st then b
  else if (NMap.find? cs k).isNone && 524288 ≤ cs.length then
    ((b.count SCH.CTX_FULL_LO 0).intRaw 0x82 3).eventOnce 0x0502FF 0x82 5 2 []
  else b.withSched { b.td.sched with contexts := NMap.put cs k ⟨port, cls, decide (st = 2), b.ticks⟩ }

/-- A context that has received nothing for 3 × REFRESH_TICKS ticks fired is freed and counted (R239). -/
def Block.contextExpiry (b : Block) (src voq : Nat) : Block :=
  let k := reqKey src voq
  if b.schLive && (NMap.find? b.td.sched.contexts k).any (fun c => decide (c.at_ + 3 * b.refreshTicks ≤ b.ticks)) then
    (b.withSched { b.td.sched with contexts := NMap.del b.td.sched.contexts k }).count SCH.CTX_EXPIRED_LO 0
  else b

/-- The contexts of a port and class, in order of their keys (R240). -/
def Block.ctxsOf (b : Block) (p cls : Nat) : List (Nat × ReqCtx) :=
  b.td.sched.contexts.filter (fun e => e.2.port = p && e.2.cls = cls)

/-- The lowest class with a context of the port (R240). -/
def Block.grantClass (b : Block) (p : Nat) : Option Nat := (upTo 8).find? (fun c => !(b.ctxsOf p c).isEmpty)

/-- The first context after a key in round robin. -/
def nextCtx (cs : List (Nat × ReqCtx)) (after : Option Nat) : Option Nat :=
  match after with
  | none => cs.head?.map (fun e => e.1)
  | some j =>
    match (cs.map (fun e => e.1)).find? (fun k => decide (j < k)) with
    | some k => some k
    | none => cs.head?.map (fun e => e.1)

/-- The context that the next grant of a class serves, with how many in a row it then has (R240): a FAST context takes two
consecutive grants per round. -/
def Block.grantTo (b : Block) (p cls : Nat) : Option (Nat × Nat) :=
  let cs := b.ctxsOf p cls
  let next (k : Option Nat) : Option (Nat × Nat) := (nextCtx cs k).map (fun j => (j, 1))
  match NMap.find? (b.grant p).last cls with
  | none => next none
  | some (j, run) =>
    match NMap.find? cs j with
    | some c => if c.fast && run < 2 then some (j, run + 1) else next (some j)
    | none => next (some j)

/-- A grant generator issues one grant (R240). -/
def Block.grantIssue (b : Block) (p : Nat) : Block :=
  let g := b.grantNow p
  let b0 := b.setGrant p g
  if !b.schRuns || b.grantProf p = 0 || g.stopped || g.bucket < 0 || b.portHeld p then b
  else match b.grantClass p with
    | none => b0
    | some cls =>
      match b.grantTo p cls with
      | none => b0
      | some (k, run) =>
        let units := b.fld SCH.CREDIT_CFG SCH.CREDIT_CFG_GRANT_UNITS
        let b1 := b0.setGrant p { g with bucket := g.bucket - (units * 1024 * byteMicro : Nat)
                                         last := NMap.put g.last cls (k, run) }
        (b1.sendControl (k / 2 ^ 20)
          (2 * 2 ^ 124 + b.devId * 2 ^ 113 + k % 2 ^ 20 * 2 ^ 93 + units * 2 ^ 86)).count SCH.GRANTS_SENT_LO 0

/-- A GRANT is received (R237, R273): the VOQ's BALANCE rises, up to twice the granted unit.
DEDUCED, unsafe: log entry 72. -/
def Block.grantIn (b : Block) (q units : Nat) : Block :=
  let b1 := b.count SCH.GRANTS_RECEIVED_LO 0
  if b.voqCount ≤ q then b1.count KCL.CREDIT_EXCESS_LO 0
  else
    let v := b1.voq q
    let unit : Int := (units * 1024 : Nat)
    let want := v.balance + unit
    let got := max v.balance (min want (2 * unit))
    ((b1.setVoq q { v with balance := got }).countIf (got < want) SCH.CREDIT_EXCESS_LO 0).voqCheck q

/-- A page soft reset of SCH (R242). -/
def Block.schPageReset (b : Block) : Block :=
  let s := b.td.sched
  let b1 := b.withSched { s with contexts := [], pointers := [], cmdUntil := 0, voqs := s.voqs.filterMap (fun e =>
    let v : Voq := { e.2 with balance := 0 }
    if v = {} then none else some (e.1, v)) }
  let b2 := b1.td.sched.nodeSt.foldl (fun y e =>
    y.setNodeSt (e.1 / 2 ^ 20) (e.1 % 2 ^ 20) { y.nodeSt (e.1 / 2 ^ 20) (e.1 % 2 ^ 20) with deficit := 0 }) b1
  let b3 := (upTo 256).foldl (fun y p => y.setEgf p { y.egf p with held := none }) b2.bucketsFill
  b3.td.store.queues.foldl (fun y e => if e.1 < y.voqCount then y.voqCheck e.1 else y) b3

end Sys2Proof.Machine
end

