-- ==== Sys2Proof/Machine/LineObj.lean ====
section
/-! DEFINITION. The objects of the line side (R305): their lanes (R279, R282, R283, R290, R297), RAW and REPORTED defects with
their suppression, and what goes down with them (R281, R286, R305). -/

namespace Sys2Proof.Machine

/-- The key under which the state lists an object. -/
def LineObj.key : LineObj → Nat
  | .mac k => k % 128
  | .phy g i => 0x100 + 8 * g + i
  | .group g => 0x180 + g
  | .client g c => 0x200 + 64 * g + c
  | .otn c => 0x400 + c
  | .trib c => 0x440 + c
  | .lane n l => 0x500 + 8 * n + l

/-- The object of a key. -/
def objOf (k : Nat) : LineObj :=
  if k < 0x100 then .mac k
  else if k < 0x180 then .phy ((k - 0x100) / 8) (k % 8)
  else if k < 0x200 then .group (k - 0x180)
  else if k < 0x400 then .client ((k - 0x200) / 64) (k % 64)
  else if k < 0x440 then .otn (k - 0x400)
  else if k < 0x500 then .trib (k - 0x440)
  else .lane ((k - 0x500) / 8) (k % 8)

/-- The register that holds an object's RAW and REPORTED bits (R305); a lane has none of its own. -/
def LineObj.reg : LineObj → Nat
  | .mac k => LIN.MAC_DEF (k / 16) (k % 16)
  | .phy g i => FLX.PHY_DEF g i
  | .group g => FLX.GRP_DEF g
  | .client g c => FLX.CLIENT_DEF g c
  | .otn c => OTN.DEF c
  | .trib c => OTN.TRIB_DEF c
  | .lane n l => LIN.LANE_STS n l

/-- The page and the `INT_RAW` bit that a change of REPORTED bits raises (R306). -/
def LineObj.int : LineObj → Nat × Nat
  | .mac k => (0x30 + k / 16, 1)
  | .phy .. => (0x38, 0)
  | .group .. => (0x38, 1)
  | .client .. => (0x38, 2)
  | .otn .. => (0x39, 0)
  | .trib .. => (0x39, 1)
  | .lane n _ => (0x30 + n, 0)

/-- RAW and REPORTED bits of an object. -/
def Block.raw (b : Block) (o : LineObj) : Nat := (b.reg o.reg).toNat % 2 ^ 16
def Block.reported (b : Block) (o : LineObj) : Nat := (b.reg o.reg).toNat / 2 ^ 16

/-- A lane mode by MODE code: its lanes, their rate code, the FEC codes it allows as a bit mask, and its speed units (R282). -/
def modeRow (m : Nat) : Option (Nat × Nat × Nat × Nat) :=
  match m with
  | 0x01 => some (1, 0, 1, 2)
  | 0x02 => some (1, 1, 3, 5)
  | 0x03 => some (1, 3, 4, 10)
  | 0x04 => some (4, 1, 3, 20)
  | 0x05 => some (4, 2, 4, 20)
  | 0x06 => some (2, 3, 4, 20)
  | 0x07 => some (1, 4, 4, 20)
  | 0x08 => some (4, 3, 4, 40)
  | 0x09 => some (2, 4, 4, 40)
  | 0x0A => some (1, 5, 4, 40)
  | 0x0B => some (8, 3, 4, 80)
  | 0x0C => some (4, 4, 4, 80)
  | 0x0D => some (2, 5, 4, 80)
  | 0x0E => some (8, 4, 4, 160)
  | 0x0F => some (4, 5, 4, 160)
  | 0x10 => some (8, 5, 4, 320)
  | _ => none

/-- The MAC port's registers and fields. -/
def macCfg (k : Nat) : Nat := LIN.MAC_CFG (k / 16) (k % 16)
def macSts (k : Nat) : Nat := LIN.MAC_STS (k / 16) (k % 16)
def macPause (k : Nat) : Nat := LIN.MAC_PAUSE (k / 16) (k % 16)
def Block.macEn (b : Block) (k : Nat) : Bool := b.flag (macCfg k) LIN.MAC_CFG_ENABLE
def Block.macBind (b : Block) (k : Nat) : Nat := b.fld (macCfg k) LIN.MAC_CFG_BIND

/-- `n` lanes from lane `l` of slice `s`. -/
def laneRun (s l n : Nat) : List (Nat × Nat) := (upTo n).map (fun j => (s, l + j))

/-- The slice of a FlexE PHY (R290). -/
def Block.phySlice (b : Block) (g i : Nat) : Nat :=
  b.fld (FLX.GRP_CFG g) FLX.GRP_CFG_BASE_SLICE + b.fld (FLX.PHY_CFG g i) FLX.PHY_CFG_SLICE

/-- The least power of two not below n, for n to 8 (R297). -/
def pow2Up (n : Nat) : Nat := if n ≤ 1 then 1 else if n ≤ 2 then 2 else if n ≤ 4 then 4 else 8

/-- The lanes that an OTN context's type takes (R297). -/
def Block.otnCount (b : Block) (c : Nat) : Nat :=
  match b.fld (OTN.CFG c) OTN.CFG_TYPE with
  | 0 => 1
  | 1 => 4
  | _ => b.fld (OTN.CFG c) OTN.CFG_N

/-- The lanes that an object's settings name (R282, R290, R297). -/
def Block.objLanes (b : Block) (o : LineObj) : List (Nat × Nat) :=
  match o with
  | .mac k =>
    if b.macBind k = 1 then
      match modeRow (b.fld (macCfg k) LIN.MAC_CFG_MODE) with
      | some r => laneRun (k / 16) (b.fld (macCfg k) LIN.MAC_CFG_FIRST_LANE) r.1
      | none => []
    else []
  | .phy g i =>
    (match modeRow (b.fld (FLX.PHY_CFG g i) FLX.PHY_CFG_MODE) with
      | some r => laneRun (b.phySlice g i) (b.fld (FLX.PHY_CFG g i) FLX.PHY_CFG_FIRST_LANE) r.1
      | none => [])
  | .otn c => laneRun (c / 8) (c % 8) (b.otnCount c)
  | _ => []

/-- An owner is enabled. -/
def Block.objEn (b : Block) (o : LineObj) : Bool :=
  match o with
  | .mac k => b.macEn k
  | .phy g i => b.flag (FLX.PHY_CFG g i) FLX.PHY_CFG_ENABLE
  | .group g => b.flag (FLX.GRP_CFG g) FLX.GRP_CFG_ENABLE
  | .client g c => b.flag (FLX.CLIENT g c) FLX.CLIENT_VALID && b.flag (FLX.GRP_CFG g) FLX.GRP_CFG_ENABLE
  | .otn c => b.flag (OTN.CFG c) OTN.CFG_ENABLE
  | .trib c => b.flag (OTN.CFG c) OTN.CFG_ENABLE && b.fld (OTN.CFG c) OTN.CFG_TYPE = 2
  | .lane n l => b.flag (LIN.LANE_CFG n l) LIN.LANE_CFG_ENABLE

/-- Every object that can own lanes of a slice. -/
def Block.owners (b : Block) (n : Nat) : List LineObj :=
  ((upTo 16).map (fun m => LineObj.mac (16 * n + m))).filter (fun o => b.objEn o)
    ++ ((upTo 64).map (fun j => LineObj.phy (j / 8) (j % 8))).filter (fun o => b.objEn o)
    ++ ((upTo 8).map (fun l => LineObj.otn (8 * n + l))).filter (fun o => b.objEn o)

/-- The owner of a lane: an enabled object whose settings name it. -/
def Block.laneOwner (b : Block) (n l : Nat) : Option LineObj :=
  (b.owners n).find? (fun o => (b.objLanes o).contains (n, l))

/-- The code of an owner in `LANEl_STS.OWNER`. -/
def LineObj.ownerCode : LineObj → Nat
  | .mac _ => 1
  | .phy .. => 2
  | .otn _ => 3
  | _ => 0

/-- An OTUCn's contexts by its first (R297). -/
def Block.tribCtxs (b : Block) (c : Nat) : List Nat := (upTo (b.otnCount c)).map (fun i => c + i)

/-- The context whose settings an OTUCn's later contexts take (R297). -/
def Block.otnBase (b : Block) (c : Nat) : Nat :=
  ((upTo 8).filterMap (fun i =>
    if i ≤ c % 8 && b.objEn (.trib (c - i)) && i < b.otnCount (c - i) then some (c - i) else none)).getLast?.getD c

/-- The defects of a context that take it down (R305). -/
def Block.otnDownMask (b : Block) (c : Nat) : Nat :=
  0xDC3F + (if b.flag (OTN.CFG (b.otnBase c)) OTN.CFG_TIM_ACT then 0x40 else 0)

/-- The calendar of a group that the receiver uses: slot to client ID (R291, R295). -/
def Block.calSlot (b : Block) (g cal s : Nat) : Nat :=
  let a := if cal = 0 then FLX.CAL_A g (s / 2) else FLX.CAL_B g (s / 2)
  (b.reg a).toNat / 2 ^ (16 * (s % 2)) % 2 ^ 16

/-- The slots a group uses (R291). -/
def Block.slotCount (b : Block) (g : Nat) : Nat := if b.flag (FLX.GRP_CFG g) FLX.GRP_CFG_SPAN then 640 else 320

/-- The slots of a client in a calendar, 320 at most; 0x0000 and 0xFFFF name no client (R291).
DEDUCED, unsafe: log entry 203. -/
def Block.clientSlots (b : Block) (g c cal : Nat) : List Nat :=
  let id := b.fld (FLX.CLIENT g c) FLX.CLIENT_CLIENT_ID
  if id = 0 || id = 0xFFFF then [] else ((upTo (b.slotCount g)).filter (fun s => b.calSlot g cal s = id)).take 320

/-- The FlexE instances of a PHY (R290). -/
def Block.phyInsts (b : Block) (g i : Nat) : Nat :=
  match modeRow (b.fld (FLX.PHY_CFG g i) FLX.PHY_CFG_MODE) with
  | some r => r.2.2.2 / 20
  | none => 0

/-- The enabled PHYs of a group in PHY_NUM order (R291). -/
def Block.phyOrder (b : Block) (g : Nat) : List Nat :=
  let num (i : Nat) : Nat := b.fld (FLX.PHY_CFG g i) FLX.PHY_CFG_PHY_NUM
  (upTo 256).flatMap (fun k => (upTo 8).filter (fun i => b.objEn (.phy g i) && num i = k))

/-- The first slot of each enabled PHY with its number of slots (R291). -/
def Block.phySlots (b : Block) (g : Nat) : List (Nat × Nat × Nat) :=
  ((b.phyOrder g).foldl (fun (acc : List (Nat × Nat × Nat) × Nat) i =>
    let n := 20 * b.phyInsts g i
    (acc.1 ++ [(i, acc.2, n)], acc.2 + n)) ([], 0)).1

/-- The PHYs that carry slots of a client. -/
def Block.clientPhys (b : Block) (g c cal : Nat) : List Nat :=
  let ss := b.clientSlots g c cal
  ((b.phySlots g).filter (fun e => ss.any (fun s => e.2.1 ≤ s && s < e.2.1 + e.2.2))).map (fun e => e.1)

/-- The receiver's calendar of a group. -/
def Block.rxCal (b : Block) (g : Nat) : Nat := b.fld (FLX.GRP_CTL g) FLX.GRP_CTL_RX_CAL

/-- The defects of the same object that suppress bit `k` (R305). -/
def suppressors (o : LineObj) (k : Nat) : Nat :=
  match o with
  | .group _ => if k = 1 then 1 else 0
  | .client .. => 2 ^ k - 1
  | .phy .. => if k = 9 || k = 10 then 0xFF else 2 ^ k - 1
  | .otn _ =>
    if k ≤ 5 then 2 ^ k - 1
    else if k ≤ 10 then 0x3F
    else if k = 11 then 0x43F
    else if k = 12 then 0xC3F
    else if k = 15 then 0x5C3F
    else 0x1C3F
  | .trib _ => if k = 4 then 7 else if k = 5 then 0x17 else 0
  | _ => 2 ^ k - 1

/-- A raw defect stands on an object that contains this one (R305). -/
def Block.contained (b : Block) (o : LineObj) : Bool :=
  match o with
  | .group g => (upTo 8).any (fun i => b.objEn (.phy g i) && b.raw (.phy g i) ≠ 0)
  | .client g c => b.raw (.group g) ≠ 0 || (b.clientPhys g c (b.rxCal g)).any (fun i => b.raw (.phy g i) ≠ 0)
  | .trib c => (b.tribCtxs c).any (fun x => b.raw (.otn x) &&& b.otnDownMask x ≠ 0)
  | _ => false

/-- The REPORTED bits that the RAW bits call for (R305). -/
def Block.wantReported (b : Block) (o : LineObj) : Nat :=
  let r := b.raw o
  if b.contained o then 0
  else (upTo 16).foldl (fun m k => if bitAt r k && r &&& suppressors o k = 0 then m + 2 ^ k else m) 0

/-- Recompute REPORTED (R306): a change raises the object's interrupt and is held for the event at the tick's end.
DEDUCED, unsafe: log entry 86. -/
def Block.report (b : Block) (o : LineObj) : Block :=
  let was := b.reported o
  let now := b.wantReported o
  if was = now then b
  else
    let b1 := (b.setReg o.reg (BitVec.ofNat 32 (b.raw o + now * 2 ^ 16))).intRaw o.int.1 o.int.2
    let ch := b1.line.changed
    if (NMap.find? ch o.key).isSome then b1
    else { b1 with line := { b1.line with changed := NMap.put ch o.key was
                                          changedTick := if ch.isEmpty then b1.ticks else b1.line.changedTick } }

/-- The objects whose REPORTED bits depend on an object. -/
def Block.dependents (b : Block) (o : LineObj) : List LineObj :=
  match o with
  | .phy g _ => .group g :: (upTo 64).map (fun c => LineObj.client g c)
  | .group g => (upTo 64).map (fun c => LineObj.client g c)
  | .otn c => [.trib (b.otnBase c)]
  | _ => []

/-- A FlexE PHY is down (R294). -/
def Block.phyDown (b : Block) (g i : Nat) : Bool := !b.objEn (.phy g i) || b.raw (.phy g i) ≠ 0

/-- An object's own condition keeps it from being up (R286, R293, R305). -/
def Block.objDown (b : Block) (o : LineObj) : Bool :=
  !b.objEn o || (match o with
    | .mac k =>
      if b.macBind k = 2 then
        let g := b.fld (macCfg k) LIN.MAC_CFG_GROUP
        let c := b.fld (macCfg k) LIN.MAC_CFG_CLIENT
        !b.objEn (.client g c) || b.raw (.client g c) ≠ 0 || bitAt (b.raw (.group g)) 0
      else b.raw o % 2 ^ 8 ≠ 0
    | .client g _ => b.raw o ≠ 0 || bitAt (b.raw (.group g)) 0
    | .otn c =>
      (b.tribCtxs c).any (fun x => (b.raw (.otn x) &&& b.otnDownMask x) ≠ 0)
        || (b.objEn (.trib c) && b.raw (.trib c) &&& 0x77 ≠ 0)
    | _ => b.raw o ≠ 0)

/-- The source of a logical port (R280). -/
def Block.lportSource (b : Block) (p : Nat) : Option LineObj :=
  let a := LIN.LPORT_MAP (p / 32) (p % 32)
  match b.fld a LIN.LPORT_MAP_KIND with
  | 1 => some (.mac (16 * (p / 32) + b.fld a LIN.LPORT_MAP_MAC))
  | 2 => some (.client (b.fld a LIN.LPORT_MAP_GROUP) (b.fld a LIN.LPORT_MAP_CLIENT))
  | 3 => some (.otn (b.fld a LIN.LPORT_MAP_CONTEXT))
  | _ => none

/-- The slot count of a client, its rate in 5 Gbit/s units (R291), in the calendar that the group transmits by. -/
def Block.clientUnits (b : Block) (g c : Nat) : Nat :=
  (b.clientSlots g c (b.fld (FLX.GRP_CTL g) FLX.GRP_CTL_ACTIVE_CAL)).length

/-- The speed of a source in units of 5 Gbit/s, by its binding (R281). -/
def Block.sourceSpeed (b : Block) (o : LineObj) : Nat :=
  match o with
  | .mac k =>
    (match b.macBind k with
      | 1 => (match modeRow (b.fld (macCfg k) LIN.MAC_CFG_MODE) with | some r => r.2.2.2 | none => 0)
      | 2 => b.clientUnits (b.fld (macCfg k) LIN.MAC_CFG_GROUP) (b.fld (macCfg k) LIN.MAC_CFG_CLIENT)
      | _ => 0)
  | .client g c => b.clientUnits g c
  | .otn c =>
    (match b.fld (OTN.CFG c) OTN.CFG_TYPE with
      | 0 => 2
      | 1 => 20
      | _ => 20 * b.fld (OTN.CFG c) OTN.CFG_N)
  | _ => 0

/-- An object is up (R286). -/
def Block.isUp (b : Block) (o : LineObj) : Bool := b.line.up.contains o.key

/-- `LPORTp_SPEED` follows the binding and its source (R281, R286); a port that goes down discards what it holds.
DEDUCED, unsafe: log entry 87. -/
def Block.lportShow (b : Block) (p : Nat) : Block :=
  let a := LIN.LPORT_SPEED (p / 32) (p % 32)
  let src := b.lportSource p
  let speed := match src with | some o => b.sourceSpeed o | none => 0
  let up := match src with | some o => b.isUp o | none => false
  let was := b.flag a LIN.LPORT_SPEED_UP
  let b1 := (b.setFld a LIN.LPORT_SPEED_SPEED speed).setFld a LIN.LPORT_SPEED_UP (b2n up)
  if was && !up then b1.egfPortDown p else b1

/-- The logical ports of a slice follow their sources. -/
def Block.sliceShow (b : Block) (n : Nat) : Block := (upTo 32).foldl (fun y p => y.lportShow (32 * n + p)) b

/-- The slices that an object reaches (R290). -/
def Block.objSlices (b : Block) (o : LineObj) : List Nat :=
  let grp (g : Nat) : List Nat :=
    let s := b.fld (FLX.GRP_CFG g) FLX.GRP_CFG_BASE_SLICE
    if b.flag (FLX.GRP_CFG g) FLX.GRP_CFG_SPAN then [s, s + 1] else [s]
  match o with
  | .lane n _ => [n]
  | .mac k => [k / 16]
  | .phy g _ => grp g
  | .group g => grp g
  | .client g _ => grp g
  | .otn c => [c / 8]
  | .trib c => [c / 8]

/-- A cause squelches a SyncE output (R376): it is disabled, its lane is not UP or shows LOS, or a defect of the lane's owner is
raw. -/
def Block.synceCause (b : Block) (k : Nat) : Bool :=
  let c := TMB.SYNCE_CFG k
  let n := b.fld c TMB.SYNCE_CFG_SLICE
  let l := b.fld c TMB.SYNCE_CFG_LANE
  !b.flag c TMB.SYNCE_CFG_ENABLE || b.fld (LIN.LANE_STS n l) LIN.LANE_STS_STATE ≠ 2 || b.flag (LIN.LANE_STS n l) LIN.LANE_STS_LOS
    || (match b.laneOwner n l with
      | some o => decide (b.raw o ≠ 0)
      | none => false)

/-- Squelch of an output begins with its cause, and the 10 ms after which it lifts begin when its last cause clears (R376). -/
def Block.synceShow (b : Block) (k : Nat) : Block :=
  let q := (b.reg TMB.SYNCE_STS).toNat
  if b.synceCause k then
    { b with line := { b.line with synceClear := NMap.del b.line.synceClear k } }.setReg TMB.SYNCE_STS (BitVec.ofNat 32 (bitOn q k))
  else if bitAt q k && (NMap.find? b.line.synceClear k).isNone then
    { b with line := { b.line with synceClear := NMap.put b.line.synceClear k b.time.elapsed } }
  else b

/-- Both SyncE outputs follow their lanes (R376). -/
def Block.synceUpdate (b : Block) : Block := (b.synceShow 0).synceShow 1

/-- Squelch of output `k` lifts, 10 ms after its last cause cleared (R376). -/
def Block.squelchLift (b0 : Block) (k : Nat) : Block :=
  let b := b0.synceShow k
  match NMap.find? b.line.synceClear k with
  | some t => if t + 10000000 ≤ b.time.elapsed then
      { b with line := { b.line with synceClear := NMap.del b.line.synceClear k } }.setReg TMB.SYNCE_STS
        (BitVec.ofNat 32 (bitOff (b.reg TMB.SYNCE_STS).toNat k))
    else b
  | none => b

/-- Objects that are up and whose condition has gone are down from this cycle (R286); the ports follow. -/
def Block.lineSettle (b : Block) (slices : List Nat) : Block :=
  let gone := b.line.up.filter (fun k => b.objDown (objOf k))
  let b1 := { b with line := { b.line with up := b.line.up.filter (fun k => !gone.contains k) } }
  let b2 := gone.foldl (fun y k => if k < 128 then y.setFld (macSts k) LIN.MAC_STS_UP 0 else y) b1
  (slices.foldl (fun y n => y.sliceShow n) b2).synceUpdate

/-- The defects of an object that keep it down (R286, R293, R294, R305). -/
def Block.downMask (b : Block) (o : LineObj) : Nat :=
  match o with
  | .mac _ => 0xFF
  | .group _ => 1
  | .otn c => b.otnDownMask c
  | .trib _ => 0x77
  | _ => 0xFFFF

/-- The ns from which an object has been without the defects that keep it down. -/
def Block.clearFrom (b : Block) (o : LineObj) : Block :=
  { b with line := { b.line with clearAt := NMap.put b.line.clearAt o.key b.time.elapsed } }

/-- The RAW bits of an object are stored; the last defect that keeps it down may have cleared. -/
def Block.storeRaw (b : Block) (o : LineObj) (r : Nat) : Block :=
  let m := b.downMask o
  (if b.raw o &&& m ≠ 0 && r &&& m = 0 then b.clearFrom o else b).setFld o.reg ⟨0, 16⟩ r

/-- The slots of a group whose received client ID differs from the receiver's calendar, with that ID (R296). -/
def Block.wrongIds (b : Block) (g : Nat) : List (Nat × Nat) :=
  (NMap.get [] b.line.rxIds g).filter (fun e => e.1 < b.slotCount g && b.calSlot g (b.rxCal g) e.1 ≠ e.2)

/-- The state LOST of each client of a group: a slot on a PHY that is down (R294), or slots that differ (R296): its own hold another
ID, or another's hold its ID. -/
def Block.lostCheck (b : Block) (g : Nat) : Block :=
  let cal := b.rxCal g
  let wrong := b.wrongIds g
  (upTo 64).foldl (fun y c =>
    if !b.objEn (.client g c) then y
    else
      let ss := b.clientSlots g c cal
      let id := b.fld (FLX.CLIENT g c) FLX.CLIENT_CLIENT_ID
      let lost := (b.phySlots g).any (fun e => b.phyDown g e.1 && ss.any (fun s => e.2.1 ≤ s && s < e.2.1 + e.2.2))
        || wrong.any (fun e => ss.contains e.1 || e.2 = id)
      y.storeRaw (.client g c) (if lost then bitOn (y.raw (.client g c)) 0 else bitOff (y.raw (.client g c)) 0)) b

/-- What follows a change of an object's RAW bits (R294, R305, R306). -/
def Block.rawChanged (b : Block) (o : LineObj) : Block :=
  let b1 := match o with
    | .phy g _ => b.lostCheck g
    | .group g => b.lostCheck g
    | _ => b
  let b2 := (b1.dependents o).foldl (fun y d => y.report d) (b1.report o)
  b2.lineSettle (b2.objSlices o)

/-- An object's RS sends remote fault for these RAW bits (R305): a MAC port's for bits 3 to 6, a FlexE PHY's for bits 3 to 5. -/
def LineObj.sendsRf (o : LineObj) (r : Nat) : Bool :=
  match o with
  | .mac _ => r / 8 % 16 ≠ 0
  | .phy .. => r / 8 % 8 ≠ 0
  | _ => false

/-- The RAW bits of an object change, and its RS may begin or end sending remote fault (R305). -/
def Block.rawTo (b : Block) (o : LineObj) (r : Nat) : Block :=
  let was := o.sendsRf (b.raw o)
  let now := o.sendsRf r
  let b1 := b.storeRaw o r
  if was = now then b1 else b1.emitOut (.remoteFault o.key now)

/-- A raw defect of an object sets or clears (R305). -/
def Block.setRaw (b : Block) (o : LineObj) (k : Nat) (on : Bool) : Block :=
  let r := b.raw o
  let r' := if on then bitOn r k else bitOff r k
  if r = r' then b else (b.rawTo o r').rawChanged o

/-- CAL_MM of a group and LOST of its clients follow the calendars and what is received (R291, R294, R296). -/
def Block.groupSettle (b : Block) (g : Nat) : Block := (b.setRaw (.group g) 1 (!(b.wrongIds g).isEmpty)).rawChanged (.group g)

/-- FAILED, LOS and LOL of an owner follow its lanes (R279, R283, R305). -/
def Block.ownerDefects (b : Block) (o : LineObj) : Block :=
  let ls := b.objLanes o
  let any (f : Nat × Nat → Bool) : Bool := b.objEn o && ls.any f
  let b1 := b.setRaw o 0 (any (fun e => b.fld (LIN.LANE_STS e.1 e.2) LIN.LANE_STS_STATE = 4))
  let b2 := b1.setRaw o 1 (any (fun e => !b.objEn (.lane e.1 e.2) || b.flag (LIN.LANE_STS e.1 e.2) LIN.LANE_STS_LOS))
  b2.setRaw o 2 (any (fun e => b.flag (LIN.LANE_STS e.1 e.2) LIN.LANE_STS_LOL))

/-- An OTN context beside its registers. -/
def Block.otnCtx (b : Block) (c : Nat) : OtnCtx := NMap.get {} b.line.otn c

/-- Replace it. -/
def Block.setOtn (b : Block) (c : Nat) (x : OtnCtx) : Block :=
  { b with line := { b.line with otn := NMap.set {} b.line.otn c x } }

/-- LFD holds while the GFP receiver of an enabled context is not in SYNC (R304): a defect of the context, or of its tributary. -/
def Block.lfd (b : Block) (c : Nat) : Block :=
  let out := (b.otnCtx c).gfp ≠ 2
  if b.objEn (.trib c) then b.setRaw (.trib c) 5 out else if b.objEn (.otn c) then b.setRaw (.otn c) 15 out else b

/-- The framers of an OTN context search anew (R298, R299, R304, R309): it is out of frame and of multiframe from now, and GFP hunts. -/
def Block.otnRelock (b : Block) (c : Nat) (x : OtnCtx) : Block :=
  let t := b.time.elapsed
  let b1 := if !b.objEn (.otn (b.otnBase c)) then b.setOtn c {}
    else b.setOtn c { x with streams := [], gfp := 0, framed := false, framedAt := t, multi := false, multiAt := t }
  ((b1.setFld (OTN.STS c) OTN.STS_IN_FRAME 0).setFld (OTN.STS c) OTN.STS_IN_MF 0).lfd c

/-- What follows a change of a lane: its owner's defects, the LANE condition and the SyncE outputs (R279, R376). -/
def Block.laneChanged (b : Block) (n l : Nat) : Block :=
  let b1 := match b.laneOwner n l with
    | some o => b.ownerDefects o
    | none => b
  (b1.synceUpdate).follow40

end Sys2Proof.Machine
end

