-- ==== Sys2Proof/Machine/Line.lean ====
section
/-! DEFINITION. Line lanes (R277, R278), enabling owners and binding logical ports (R280, R283), FlexE groups (R290 to R296) and
cages (R307, R308). -/

namespace Sys2Proof.Machine

/-- Line receive state moves with the core on; in FAULT-HOLD it is frozen (R309). -/
def Block.lineLive (b : Block) : Bool := coreOn b.mode.mode && decide (b.mode.mode ≠ .faultHold)

/-- A line lane's STATE (R277). -/
def Block.lstate (b : Block) (n l : Nat) : Nat := b.fld (LIN.LANE_STS n l) LIN.LANE_STS_STATE

/-- A line lane moves to a state, with its interrupt. -/
def Block.lineTo (b : Block) (n l st : Nat) : Block :=
  if b.lstate n l = st then b else (b.setFld (LIN.LANE_STS n l) LIN.LANE_STS_STATE st).intRaw (0x30 + n) 0

/-- A lane beside its registers. -/
def Block.lineLane (b : Block) (n l : Nat) : LineLane := NMap.get {} b.line.lanes (8 * n + l)

/-- Replace it. -/
def Block.setLineLane (b : Block) (n l : Nat) (x : LineLane) : Block :=
  { b with line := { b.line with lanes := NMap.set {} b.line.lanes (8 * n + l) x } }

/-- Set LOS and LOL of a lane, and note from when it has lost lock with its signal present (R278). -/
def Block.laneSignal (b : Block) (n l : Nat) (los lol : Bool) : Block :=
  let x := b.lineLane n l
  ((b.setFld (LIN.LANE_STS n l) LIN.LANE_STS_LOS (b2n los)).setFld (LIN.LANE_STS n l) LIN.LANE_STS_LOL (b2n lol)).setLineLane n l
    { x with lolAt := if lol && !los then some (x.lolAt.getD b.time.elapsed) else none }

/-- A lane is enabled: DISABLED to ACQUIRE, with no signal known yet (R277, R283).
DEDUCED, unsafe: log entry 81. -/
def Block.lineEnable (b : Block) (n l : Nat) : Block :=
  if b.lstate n l = 0 then ((b.lineTo n l 1).laneSignal n l true true).laneChanged n l else b

/-- A lane is disabled and squelched (R277). -/
def Block.lineDisable (b : Block) (n l : Nat) : Block :=
  if b.lstate n l = 0 then b
  else
    ((((b.lineTo n l 0).laneSignal n l false false).setFld (LIN.LANE_CFG n l) LIN.LANE_CFG_RETRAIN 0).setLineLane n l {}).laneChanged
      n l

/-- A lane enters RETRAIN: RETRAINS counts it and attempts start anew (R278). -/
def Block.lineRetrain (b : Block) (n l : Nat) : Block :=
  let b1 := b.satFld (LIN.LANE_STS n l) LIN.LANE_STS_RETRAINS 1
  let b2 := b1.setLineLane n l { attempts := 0, fromFailed := decide (b.lstate n l = 4) }
  ((b2.lineTo n l 3).setFld (LIN.LANE_STS n l) LIN.LANE_STS_LOL 1).laneChanged n l

/-- The effect of a write of `LINn.LANEl_CFG` (R277, R278): ENABLE first, then RETRAIN.
DEDUCED, unsafe: log entry 88. -/
def effLineLane (n l : Nat) (src : Source) (w : WriteOut) (old : Word) (b : Block) : Block :=
  let a := LIN.LANE_CFG n l
  let en := fldGet LIN.LANE_CFG_ENABLE w.value = 1
  let was := fldGet LIN.LANE_CFG_ENABLE old = 1
  let b1 := if en && !was then b.lineEnable n l else if !en && was then b.lineDisable n l else b
  if fldGet LIN.LANE_CFG_RETRAIN w.took = 0 then b1
  else if b1.lstate n l = 0 || b1.lstate n l = 3 then
    (b1.setFld a LIN.LANE_CFG_RETRAIN 0).captureAt a src 8 1
  else b1.lineRetrain n l

/-- RATE changes only while ENABLE is 0 (LANEl_CFG). -/
def badLineLane (old v : Word) : List Nat :=
  badIf (fldGet LIN.LANE_CFG_ENABLE old = 1 && fldGet LIN.LANE_CFG_RATE old ≠ fldGet LIN.LANE_CFG_RATE v) 0

/-- The CDR of a lane in ACQUIRE locks (R277). -/
def Block.cdrLock (b : Block) (n l : Nat) : Block :=
  if b.lineLive && b.lstate n l = 1 then ((b.lineTo n l 2).laneSignal n l false false).laneChanged n l else b

/-- Loss of lock for more than 20 ms with signal present (R278).
DEDUCED, unsafe: log entry 202. -/
def Block.lockLoss (b : Block) (n l : Nat) : Block :=
  if b.lineLive && b.lstate n l = 2 && (b.lineLane n l).lolAt.any (fun t => decide (t + 20000000 < b.time.elapsed)) then
    b.lineRetrain n l
  else b

/-- A retrain ends in a state; RETRAIN then reads 0 (R278). -/
def Block.retrainEnd (b : Block) (n l st : Nat) : Block :=
  ((b.setFld (LIN.LANE_CFG n l) LIN.LANE_CFG_RETRAIN 0).setLineLane n l {}).lineTo n l st

/-- A retrain attempt ends (R278): it locks, its signal is lost and it does not count, or it fails. Without a signal none runs. -/
def Block.retrainAttempt (b : Block) (n l : Nat) (locked lost : Bool) : Block :=
  if !b.lineLive || b.lstate n l ≠ 3 then b
  else
    let x := b.lineLane n l
    let here := leBytes 1 n ++ leBytes 1 l
    if lost || b.flag (LIN.LANE_STS n l) LIN.LANE_STS_LOS then ((b.setFld (LIN.LANE_STS n l) LIN.LANE_STS_LOS 1)).laneChanged n l
    else if locked then
      let b1 := (b.retrainEnd n l 2).laneSignal n l false false
      (b1.eventIf x.fromFailed (0x30 + n) 7 2 here).laneChanged n l
    else if x.attempts + 1 < 3 then b.setLineLane n l { x with attempts := x.attempts + 1 }
    else ((b.retrainEnd n l 4).event (0x30 + n) 7 1 here).laneChanged n l

/-- A defect sets or clears (R305). On a lane, bit 0 is LOS and bit 1 LOL. -/
def Block.defectChange (b : Block) (o : LineObj) (k : Nat) (on : Bool) : Block :=
  if !b.lineLive then b
  else match o with
    | .lane n l =>
      if b.lstate n l = 0 then b
      else
        let los := b.flag (LIN.LANE_STS n l) LIN.LANE_STS_LOS
        let lol := b.flag (LIN.LANE_STS n l) LIN.LANE_STS_LOL
        (b.laneSignal n l (if k = 0 then on else los) (if k = 0 then lol else on)).laneChanged n l
    | _ => if b.objEn o then b.setRaw o k on else b

/-- The objects whose defects keep an object down (R286, R293, R305). -/
def Block.upNeeds (b : Block) (o : LineObj) : List LineObj :=
  match o with
  | .mac k =>
    if b.macBind k = 2 then
      let g := b.fld (macCfg k) LIN.MAC_CFG_GROUP
      [o, .client g (b.fld (macCfg k) LIN.MAC_CFG_CLIENT), .group g]
    else [o]
  | .client g _ => [o, .group g]
  | .otn c => .trib c :: (b.tribCtxs c).map (fun x => LineObj.otn x)
  | _ => [o]

/-- An object has been enabled and without defects for 10 ms (R286). -/
def Block.clearLong (b : Block) (o : LineObj) : Bool :=
  !b.objDown o && (b.upNeeds o).all (fun x => NMap.get 0 b.line.clearAt x.key + 10000000 ≤ b.time.elapsed)

/-- An object has been clear of defects for 10 ms (R286).
DEDUCED, unsafe: log entry 85. -/
def Block.portUp (b : Block) (o : LineObj) : Block :=
  if !b.lineLive || !b.clearLong o then b
  else
    let ups := match o with
      | .client g c => o.key :: (upTo 128).filter (fun k => b.macEn k && b.macBind k = 2
          && b.fld (macCfg k) LIN.MAC_CFG_GROUP = g && b.fld (macCfg k) LIN.MAC_CFG_CLIENT = c && b.clearLong (.mac k))
      | _ => [o.key]
    let fresh := ups.filter (fun k => !b.line.up.contains k)
    let b1 := { b with line := { b.line with up := fresh ++ b.line.up } }
    let b2 := fresh.foldl (fun y k => if k < 128 then y.setFld (macSts k) LIN.MAC_STS_UP 1 else y) b1
    (b2.objSlices o).foldl (fun y n => y.sliceShow n) b2

/-- At the tick's end, one event for each object whose REPORTED bits differ from those before the tick (R306). A MAC port is
named by its number; a FlexE object by its group and a byte that is the PHY, 0x40 + the client or 0xFF; a context by its
number and a tributary by 0x40 + the context.
DEDUCED, unsafe: log entry 80. -/
def Block.lineEvents (b : Block) : Block :=
  if !b.lineLive || b.ticks ≤ b.line.changedTick then b
  else
    let b1 := { b with line := { b.line with changed := [] } }
    b.line.changed.foldl (fun y e =>
      let o := objOf e.1
      let r := y.reported o
      if r = e.2 then y
      else match o with
        | .mac k => y.event o.int.1 7 3 (leBytes 1 k ++ leBytes 2 r)
        | .phy g i => y.event 0x38 7 4 (leBytes 1 g ++ leBytes 1 i ++ leBytes 2 r)
        | .client g c => y.event 0x38 7 4 (leBytes 1 g ++ leBytes 1 (0x40 + c) ++ leBytes 2 r)
        | .group g => y.event 0x38 7 4 (leBytes 1 g ++ leBytes 1 0xFF ++ leBytes 2 r)
        | .otn c => y.event 0x39 7 7 (leBytes 1 c ++ leBytes 2 r)
        | .trib c => y.event 0x39 7 7 (leBytes 1 (0x40 + c) ++ leBytes 2 r)
        | .lane .. => y) b1

/-- The register and the ENABLE field of an owner. -/
def LineObj.cfg : LineObj → Nat
  | .mac k => macCfg k
  | .phy g i => FLX.PHY_CFG g i
  | .otn c => OTN.CFG c
  | .lane n l => LIN.LANE_CFG n l
  | .group g => FLX.GRP_CFG g
  | .client g c => FLX.CLIENT g c
  | .trib c => OTN.CFG c

/-- An enable's settings are sound by themselves (R282, R283, R290, R297). -/
def Block.settingsOk (b : Block) (o : LineObj) : Bool :=
  match o with
  | .mac k =>
    let c := macCfg k
    (match b.macBind k with
      | 1 =>
        (match modeRow (b.fld c LIN.MAC_CFG_MODE) with
          | some r => b.fld c LIN.MAC_CFG_FIRST_LANE % r.1 = 0 && bitAt r.2.2.1 (b.fld c LIN.MAC_CFG_FEC)
          | none => false)
      | 2 => true
      | _ => false)
  | .phy g i =>
    let c := FLX.PHY_CFG g i
    let m := b.fld c FLX.PHY_CFG_MODE
    4 ≤ m && m ≤ 0xD && b.phySlice g i < 8
      && (b.fld c FLX.PHY_CFG_SLICE = 0 || b.flag (FLX.GRP_CFG g) FLX.GRP_CFG_SPAN)
      && (match modeRow m with
        | some r => b.fld c FLX.PHY_CFG_FIRST_LANE % r.1 = 0
        | none => false)
  | .otn c =>
    let l := c % 8
    let n := b.fld (OTN.CFG c) OTN.CFG_N
    (match b.fld (OTN.CFG c) OTN.CFG_TYPE with
      | 0 => true
      | 1 => l % 4 = 0
      | 2 => 1 ≤ n && n ≤ 8 && l % pow2Up n = 0 && l + n ≤ 8
      | _ => false)
  | _ => true

/-- The rate code that an owner's lanes need (R282, R290, R297). -/
def Block.needRate (b : Block) (o : LineObj) : Nat :=
  match o with
  | .mac k => (match modeRow (b.fld (macCfg k) LIN.MAC_CFG_MODE) with | some r => r.2.1 | none => 0)
  | .phy g i => (match modeRow (b.fld (FLX.PHY_CFG g i) FLX.PHY_CFG_MODE) with | some r => r.2.1 | none => 0)
  | .otn c => (match b.fld (OTN.CFG c) OTN.CFG_TYPE with | 0 => 0 | 1 => 2 | _ => 4)
  | _ => 0

/-- The lanes that an enable claims are free and run at the rate it needs (R283). -/
def Block.claimOk (b : Block) (o : LineObj) : Bool :=
  (b.objLanes o).all (fun e =>
    b.fld (LIN.LANE_STS e.1 e.2) LIN.LANE_STS_OWNER = 0
      && b.fld (LIN.LANE_CFG e.1 e.2) LIN.LANE_CFG_RATE = b.needRate o)

/-- The status bit CFG_FAIL of an owner; a FlexE PHY's status has none. -/
def Block.cfgFail (b : Block) (o : LineObj) (v : Nat) : Block :=
  match o with
  | .mac k => b.setFld (macSts k) LIN.MAC_STS_CFG_FAIL v
  | .otn c => b.setFld (OTN.STS c) OTN.STS_CFG_FAIL v
  | _ => b

/-- Lanes take an owner code, or none. -/
def Block.ownLanes (b : Block) (ls : List (Nat × Nat)) (code : Nat) : Block :=
  ls.foldl (fun y e => y.setFld (LIN.LANE_STS e.1 e.2) LIN.LANE_STS_OWNER code) b

/-- The slices that an owner's change reaches. -/
def Block.ownerSettle (b : Block) (o : LineObj) : Block :=
  let b1 := match o with
    | .phy g _ => b.groupSettle g
    | _ => b
  (b1.lineSettle (b1.objSlices o)).follow40

/-- What an owner begins with as it is enabled: the 10 ms of R286 start, and an OTN context and those of its OTUCn search for their
frames (R298, R304). -/
def Block.ownerStart (b : Block) (o : LineObj) : Block :=
  let b1 := b.clearFrom o
  match o with
  | .otn c => (b1.tribCtxs c).foldl (fun y x => (y.clearFrom (.otn x)).otnRelock x {}) b1
  | _ => b1

/-- An owner whose ENABLE has been written from 0 to 1: it claims its lanes, or is refused and captured (R283). -/
def Block.ownerEnable (b : Block) (o : LineObj) (src : Source) : Block :=
  if b.settingsOk o && b.claimOk o then
    let b1 := (b.cfgFail o 0).ownLanes (b.objLanes o) o.ownerCode
    ((b1.ownerStart o).ownerDefects o).ownerSettle o
  else (((b.cfgFail o 1).setFld o.cfg ⟨31, 1⟩ 0)).captureAt o.cfg src 31 1

/-- An owner whose ENABLE has been written from 1 to 0 releases the lanes that its old settings named (R283); its defects are
no longer raised. -/
def Block.ownerDisable (b : Block) (o : LineObj) (lanes : List (Nat × Nat)) : Block :=
  let b1 := (b.ownLanes lanes 0).rawTo o 0
  ((b1.report o).rawChanged o).ownerSettle o

/-- The effect of a write of an owner's CFG register. -/
def effOwner (o : LineObj) (src : Source) (w : WriteOut) (old : Word) (b : Block) : Block :=
  let en := fldGet ⟨31, 1⟩ w.value = 1
  let was := fldGet ⟨31, 1⟩ old = 1
  if en && !was then b.ownerEnable o src
  else if !en && was then b.ownerDisable o ((b.setReg o.cfg old).objLanes o)
  else b.lineSettle (b.objSlices o)

/-- A write that leaves ENABLE at 1 changes no setting of a MAC port, a FlexE PHY or an OTN context (R283): each changed field
is treated as a reserved code. -/
def badOwner (fs : List Fld) (old v : Word) : List Nat :=
  if fldGet ⟨31, 1⟩ old = 1 && fldGet ⟨31, 1⟩ v = 1 then
    (fs.filter (fun f => fldGet f old ≠ fldGet f v)).map (fun f => f.lsb)
  else []

/-- The settings of each owner that R283 names. -/
def macSettings : List Fld := [LIN.MAC_CFG_MODE, LIN.MAC_CFG_FIRST_LANE, LIN.MAC_CFG_FEC, LIN.MAC_CFG_BIND]
def phySettings : List Fld := [FLX.PHY_CFG_MODE, FLX.PHY_CFG_FIRST_LANE, FLX.PHY_CFG_SLICE]
def otnSettings : List Fld := [OTN.CFG_TYPE, OTN.CFG_N]

/-- The effect of a write of `LPORTp_MAP` (R280): a source that another logical port has, or one outside the slice, leaves
the register as it was and is captured.
DEDUCED, unsafe: log entry 83. -/
def effLportMap (p : Nat) (src : Source) (_w : WriteOut) (old : Word) (b : Block) : Block :=
  let a := LIN.LPORT_MAP (p / 32) (p % 32)
  let n := p / 32
  match b.lportSource p with
  | none => b.lportShow p
  | some o =>
    let taken := (upTo 256).any (fun q => q ≠ p && b.lportSource q = some o)
    let inside := match o with
      | .mac _ => true
      | .client g _ =>
        let s := b.fld (FLX.GRP_CFG g) FLX.GRP_CFG_BASE_SLICE
        s = n || (b.flag (FLX.GRP_CFG g) FLX.GRP_CFG_SPAN && s + 1 = n)
      | .otn c => c / 8 = n
      | _ => false
    if taken || !inside then (b.setReg a old).captureAt a src 0 1 else b.lportShow p

/-- Overhead frame lock and multiframe lock (R292). -/
def FlexPhy.next (x : FlexPhy) (o : FlexeOh) : FlexPhy :=
  let y := if o.found then
      { x with found := x.found + 1, missed := 0, frameLock := x.frameLock || decide (2 ≤ x.found + 1) }
    else { x with found := 0, missed := x.missed + 1, frameLock := x.frameLock && decide (x.missed + 1 < 5) }
  match o.multiframe with
  | none => y
  | some true => { y with same := y.same + 1, other := 0, multiLock := y.multiLock || decide (2 ≤ y.same + 1) }
  | some false => { y with same := 0, other := y.other + 1, multiLock := y.multiLock && decide (y.other + 1 < 2) }

/-- Several raw bits of an object at once. -/
def Block.setRaws (b : Block) (o : LineObj) (vs : List (Nat × Bool)) : Block := vs.foldl (fun y v => y.setRaw o v.1 v.2) b

/-- An overhead frame in lock brings the C bit, which the receiver follows at once (R295), and client IDs of slots for the calendar
then in use (R296). -/
def Block.flexeIds (b : Block) (g : Nat) (c : Bool) (ids : List (Nat × Nat)) : Block :=
  let was := if b.rxCal g = b2n c then NMap.get [] b.line.rxIds g else []
  let kept := was.filter (fun e => !ids.any (fun i => i.1 = e.1))
  let b1 := b.setFld (FLX.GRP_CTL g) FLX.GRP_CTL_RX_CAL (b2n c)
  { b1 with line := { b1.line with rxIds := NMap.set [] b1.line.rxIds g (kept ++ ids) } }

/-- The measured skew of a group (R293): above 4 µs it is a defect, and from its return within 4 µs 10 ms are counted. -/
def Block.flexeSkew (b : Block) (g ns : Nat) : Block :=
  let b1 := b.setReg (FLX.GRP_SKEW g) (BitVec.ofNat 32 (min ns 0x1FFF))
  let m := b1.line.skewOk
  if 4000 < ns then { b1 with line := { b1.line with skewOk := NMap.del m g } }.setRaw (.group g) 0 true
  else if (NMap.find? m g).isSome then b1
  else { b1 with line := { b1.line with skewOk := NMap.put m g b1.time.elapsed } }

/-- A FlexE overhead frame of a PHY (R292 to R296). -/
def Block.flexeOverhead (b : Block) (g i : Nat) (o : FlexeOh) : Block :=
  if !b.lineLive || !b.objEn (.phy g i) || !b.objEn (.group g) then b
  else
    let k := 8 * g + i
    let x := (NMap.get {} b.line.phys k).next o
    let sat := FLX.PHY_SAT g i
    let b0 := { b with line := { b.line with phys := NMap.set {} b.line.phys k x } }
    let b1 := ((b0.framerAdd (FLX.PHY_FEC_CORR_CW g i) sat 0 o.corr).framerAdd (FLX.PHY_FEC_UNCORR_CW g i) sat 1
      o.uncorr).framerAdd (FLX.PHY_OH_CRC g i) sat 2 o.ohCrc
    let b2 := b1.intRawIf (b1.reg sat ≠ b.reg sat) 0x38 5
    let nums := ((upTo 8).filter (fun j => b.objEn (.phy g j))).map (fun j =>
      b.fld (FLX.PHY_CFG g j) FLX.PHY_CFG_PHY_NUM)
    let same := o.phyMap.all (fun n => nums.contains n) && nums.all (fun n => o.phyMap.contains n)
    let b3 := b2.setRaws (.phy g i) [(6, !x.frameLock), (7, !x.multiLock)]
    let b4 := if !x.frameLock then b3
      else b3.setRaws (.phy g i)
        [(8, decide (o.groupNum ≠ b.fld (FLX.GRP_CFG g) FLX.GRP_CFG_GROUP_NUM)),
         (9, decide (o.phyNum ≠ b.fld (FLX.PHY_CFG g i) FLX.PHY_CFG_PHY_NUM)), (10, !same), (11, o.rpf)]
    let b5 := if x.frameLock then b4.flexeIds g o.c o.ids else b4
    let b9 := (b5.flexeSkew g o.skew).groupSettle g
    b9.emitOut (.flexe g i (bitAt (b9.raw (.phy g i)) 6 || bitAt (b9.raw (.phy g i)) 7)
      (b9.flag (FLX.GRP_CTL g) FLX.GRP_CTL_CAL_REQ) (b9.flag (FLX.GRP_CTL g) FLX.GRP_CTL_ACTIVE_CAL))

/-- Skew has been held within 4 µs for 10 ms (R293). -/
def Block.skewRecovery (b : Block) (g : Nat) : Block :=
  if b.lineLive && (NMap.find? b.line.skewOk g).any (fun t => decide (t + 10000000 ≤ b.time.elapsed)) then
    b.setRaw (.group g) 0 false
  else b

/-- The effect of a write of `FLX.GRPg_CTL` (R295): a CAL_REQ while one is pending is discarded and captured. -/
def effGrpCtl (g : Nat) (src : Source) (w : WriteOut) (old : Word) (b : Block) : Block :=
  if fldGet FLX.GRP_CTL_CAL_REQ w.took = 1 && fldGet FLX.GRP_CTL_CAL_REQ old = 1 then
    b.captureAt (FLX.GRP_CTL g) src 0 1
  else if fldGet FLX.GRP_CTL_CAL_REQ w.took = 1 then
    { b with line := { b.line with calReqAt := NMap.put b.line.calReqAt g b.time.elapsed } }
  else b

/-- The far end's CA matches: the transmit side switches calendars (R295). -/
def Block.calSwitch (b : Block) (g : Nat) : Block :=
  if !b.lineLive || !b.flag (FLX.GRP_CTL g) FLX.GRP_CTL_CAL_REQ then b
  else
    let now := 1 - b.fld (FLX.GRP_CTL g) FLX.GRP_CTL_ACTIVE_CAL
    let b1 := (b.setFld (FLX.GRP_CTL g) FLX.GRP_CTL_CAL_REQ 0).setFld (FLX.GRP_CTL g) FLX.GRP_CTL_ACTIVE_CAL now
    let b2 := (b1.intRaw 0x38 3).event 0x38 7 5 (leBytes 1 g ++ leBytes 1 now)
    (b2.objSlices (.group g)).foldl (fun y n => y.sliceShow n) b2

/-- A pending calendar switch ends as a timeout (R295, R309). -/
def Block.calGiveUp (b : Block) (g : Nat) : Block :=
  if !b.flag (FLX.GRP_CTL g) FLX.GRP_CTL_CAL_REQ then b
  else
    let b1 := (b.setFld (FLX.GRP_CTL g) FLX.GRP_CTL_CAL_REQ 0).setFld (FLX.GRP_CTL g) FLX.GRP_CTL_CAL_TIMEOUT 1
    (b1.intRaw 0x38 4).event 0x38 7 6 (leBytes 1 g)

/-- CA has not matched within 10 ms (R295). -/
def Block.calTimeout (b : Block) (g : Nat) : Block :=
  if b.lineLive && NMap.get 0 b.line.calReqAt g + 10000000 ≤ b.time.elapsed then b.calGiveUp g else b

/-- The effect of a write of calendar `cal` of a group at address `a` (R310): the active calendar, and the other while CAL_REQ
reads 1, take no write. -/
def effFlexCal (g cal a : Nat) (src : Source) (_w : WriteOut) (old : Word) (b : Block) : Block :=
  if b.fld (FLX.GRP_CTL g) FLX.GRP_CTL_ACTIVE_CAL = cal || b.flag (FLX.GRP_CTL g) FLX.GRP_CTL_CAL_REQ then
    b.discardWrite a src old 1
  else b.groupSettle g

/-- The effect of a write of a group's or a client's configuration (R286, R290, R291). -/
def effFlexCfg (o : LineObj) (_w : WriteOut) (old : Word) (b : Block) : Block :=
  let g := match o with | .client g _ => g | .group g => g | _ => 0
  let rises := fldGet ⟨31, 1⟩ old = 0 && fldGet ⟨31, 1⟩ (b.reg o.cfg) = 1
  (if rises then b.clearFrom o else b).groupSettle g

/-- SPAN with an odd BASE_SLICE is out of range (R290): BASE_SLICE does not take it, and over an odd one SPAN does not either. -/
def badGrpCfg (old v : Word) : List Nat :=
  if fldGet FLX.GRP_CFG_SPAN v = 1 && fldGet FLX.GRP_CFG_BASE_SLICE v % 2 = 1 then
    0 :: badIf (fldGet FLX.GRP_CFG_BASE_SLICE old % 2 = 1) 30
  else []

/-- The mode of the lanes' owner that a module's application has to match (R307): a MODE code, or 0x20 and an OTN TYPE. -/
def Block.hostMode (b : Block) (o : LineObj) : Nat :=
  match o with
  | .mac k => b.fld (macCfg k) LIN.MAC_CFG_MODE
  | .phy g i => b.fld (FLX.PHY_CFG g i) FLX.PHY_CFG_MODE
  | .otn c => 0x20 + b.fld (OTN.CFG (b.otnBase c)) OTN.CFG_TYPE
  | _ => 0

/-- The ApSel that the sorus chooses: the first advertised application whose host interface matches the mode of the lanes' owner and
whose host lane count is LANES; 0 for none (R307). -/
def Block.chooseAp (b : Block) (n c : Nat) (apps : List (Nat × Nat)) : Nat :=
  let a := LIN.CAGE_CFG n c
  match b.laneOwner n (b.fld a LIN.CAGE_CFG_FIRST_LANE) with
  | none => 0
  | some o =>
    let i := apps.findIdx (fun e => e.1 = b.hostMode o && e.2 = b.fld a LIN.CAGE_CFG_LANES)
    if i < min 15 apps.length then i + 1 else 0

/-- The 10 ms since a cage's last poll have passed (R307). -/
def Block.pollDue (b : Block) (n c : Nat) : Bool :=
  (NMap.find? b.line.polledAt (8 * n + c)).all (fun t => decide (t + 10000000 ≤ b.time.elapsed))

/-- The sorus polls a cage (R307); in HANDOVER and in SPORE it manages none (R308).
PRESUMED, unsafe: log entry 84. -/
def Block.cagePoll (b0 : Block) (n c : Nat) (q : CagePoll) : Block :=
  let a := LIN.CAGE_STS n c
  if !b0.flag (LIN.CAGE_CFG n c) LIN.CAGE_CFG_ENABLE || b0.mode.mode = .handover || !b0.lineLive || !b0.pollDue n c then b0
  else
    let b := { b0 with line := { b0.line with polledAt := NMap.put b0.line.polledAt (8 * n + c) b0.time.elapsed } }
    let was := b.reg a
    let here := leBytes 1 n ++ leBytes 1 c
    if !q.present then
      if b.flag a LIN.CAGE_STS_PRESENT then ((b.setReg a 0).intRaw (0x30 + n) 4).event (0x30 + n) 7 8 here
      else b.setReg a 0
    else
      let fresh := !b.flag a LIN.CAGE_STS_PRESENT
      let ap := b.chooseAp n c q.apps
      let res := if !q.busOk then 3 else if q.rev / 16 ≠ 5 then 2 else if ap = 0 then 1 else if q.fault then 4 else 0
      let st := if res = 0 then 3 else if res = 4 then 5 else 1
      let b0 := (b.setFld a LIN.CAGE_STS_PRESENT 1).setFld a LIN.CAGE_STS_INT (b2n q.int)
      let steps : List CageStep := if !fresh then []
        else .release :: (if res = 0 || res = 4 then [.stage ap, .initPath] else [.lowPower])
      let b1 := steps.foldl (fun y s => y.emitOut (.cage n c s)) b0
      let b2 := if fresh || q.fault then
          (((b1.setFld a LIN.CAGE_STS_CMIS_REV q.rev).setFld a LIN.CAGE_STS_RESULT res).setFld a LIN.CAGE_STS_APSEL
            (if res = 0 then ap else 0)).setFld a LIN.CAGE_STS_MODULE_STATE st
        else b1
      let b3 := b2.intRawIf (b2.reg a ≠ was) (0x30 + n) 4
      let b4 := b3.eventIf (!b.flag a LIN.CAGE_STS_PRESENT) (0x30 + n) 7 8 here
      b4.eventIf (fresh || q.fault) (0x30 + n) 7 9
        (leBytes 1 (b4.fld a LIN.CAGE_STS_RESULT) ++ leBytes 1 (b4.fld a LIN.CAGE_STS_APSEL))

/-- A page soft reset of LINn (R309): its enabled lanes return to ACQUIRE, what they carry goes down, and its OTN contexts re-acquire
frame, multiframe and GFP. -/
def Block.linReset (b : Block) (n : Nat) : Block :=
  let b1 := (upTo 8).foldl (fun y l =>
    if y.lstate n l = 0 then y
    else (((y.retrainEnd n l 1).laneSignal n l true true)).laneChanged n l) b
  let b2 := (upTo 8).foldl (fun y l => y.otnRelock (8 * n + l) (y.otnCtx (8 * n + l))) b1
  (upTo 32).foldl (fun y p => y.egfReset (32 * n + p)) b2

/-- A page soft reset of FLX (R309): overhead lock is lost, and a pending CAL_REQ ends as a timeout. -/
def Block.flxReset (b : Block) : Block :=
  let b1 := (upTo 8).foldl (fun y g => y.calGiveUp g) b
  let b2 := { b1 with line := { b1.line with phys := [], rxIds := [] } }
  (upTo 64).foldl (fun y k =>
    if y.objEn (.phy (k / 8) (k % 8)) then y.setRaws (.phy (k / 8) (k % 8)) [(6, true), (7, true)] else y) b2

end Sys2Proof.Machine
end

