-- ==== Sys2Proof/Machine/Otn.lean ====
section
/-! DEFINITION. The OTN framer: frame alignment by trackers (R298), multiframes (R299), SM and PM overhead (R300 to R303). -/

namespace Sys2Proof.Machine

/-- The trackers of a stream that is not in frame, at one position of a frame period (R298): a tracker whose pattern is missing there
is freed, one that has found it in 3 consecutive frames takes the stream in frame, and a match that no tracker holds takes a free one
of the 4. -/
def OtnStream.searchAt (hits : List Nat) (x : OtnStream) (p : Nat) : OtnStream :=
  if x.at_.isSome then x
  else match x.trackers.find? (fun t => t.1 = p) with
    | some t =>
      if !hits.contains p then { x with trackers := x.trackers.erase t }
      else if 3 ≤ t.2 + 1 then { x with trackers := [], at_ := some p, missed := 0 }
      else { x with trackers := (x.trackers.erase t) ++ [(p, t.2 + 1)] }
    | none => if hits.contains p && x.trackers.length < 4 then { x with trackers := x.trackers ++ [(p, 1)] } else x

/-- The positions of a frame period at which a pattern is found or looked for, in order. -/
def OtnStream.places (x : OtnStream) (hits : List Nat) : List Nat :=
  ((hits ++ x.trackers.map (fun t => t.1)).foldl (fun (m : NMap Unit) p => NMap.put m p ()) []).map (fun e => e.1)

/-- The search over a frame period, position by position (R298). -/
def OtnStream.search (x : OtnStream) (hits : List Nat) : OtnStream := (x.places hits).foldl (OtnStream.searchAt hits) x

/-- Frame alignment over one frame period (R298): in frame, 5 consecutive misses declare out-of-frame.
DEDUCED, unsafe: log entry 82. -/
def OtnStream.align (x : OtnStream) (hits : List Nat) : OtnStream :=
  match x.at_ with
  | none => x.search hits
  | some p =>
    if hits.contains p then { x with missed := 0 }
    else if x.missed + 1 < 5 then { x with missed := x.missed + 1 }
    else { x with at_ := none, missed := 0, trackers := [], inMf := false, mfGood := 0, mfBad := 0 }

/-- Multiframe alignment (R299). -/
def OtnStream.multi (x : OtnStream) (mfas : Nat) : OtnStream :=
  if x.at_.isNone then x
  else
    let ok := mfas = (x.mfas + 1) % 256
    let want := if ok || !x.inMf then mfas else (x.mfas + 1) % 256
    let g := if ok then x.mfGood + 1 else 0
    let d := if ok then 0 else x.mfBad + 1
    { x with mfas := want, mfGood := g, mfBad := d, inMf := if x.inMf then decide (d < 5) else decide (2 ≤ g) }


/-- The aligned streams of a context (R298). -/
def Block.otnStreams (b : Block) (c : Nat) : Nat := if b.fld (OTN.CFG (b.otnBase c)) OTN.CFG_TYPE = 1 then 20 else 1

/-- A defect that takes `need` consecutive frames to raise and to clear (R301, R302). `slot` is the detector's own number. -/
def Block.debounce (b : Block) (c slot : Nat) (o : LineObj) (bit need : Nat) (cond : Bool) : Block :=
  let x := b.otnCtx c
  let was := bitAt (b.raw o) bit
  if cond = was then b.setOtn c { x with runs := NMap.set 0 x.runs slot 0 }
  else
    let n := NMap.get 0 x.runs slot + 1
    if n < need then b.setOtn c { x with runs := NMap.set 0 x.runs slot n }
    else (b.setOtn c { x with runs := NMap.set 0 x.runs slot 0 }).setRaw o bit cond

/-- Add to an OTN counter with its SAT bit (framer family). -/
def Block.otnAdd (b : Block) (c k n : Nat) : Block :=
  if n = 0 then b
  else
    let a := OTN.SM_BIP c + 4 * k
    let b1 := b.framerAdd a (OTN.SAT c) k n
    b1.intRawIf (b1.reg (OTN.SAT c) ≠ b.reg (OTN.SAT c)) 0x39 2

/-- BIP violations: the ones of the received BIP-8 XOR the computed (R300). -/
def bipViol (rx own : Nat) : Nat := popcount 8 (rx ^^^ own)

/-- A BEI counts 0 to 8; every other value counts nothing (R301). -/
def beiCount (v : Nat) : Nat := if v ≤ 8 then v else 0

/-- A trace takes the byte of a frame; a whole value counts its repeats, and a broken multiframe ends them (R302). -/
def Tti.next (t : Tti) (mfas : Nat) (x : Byte) : Tti :=
  let j := mfas % 64
  if t.now.length ≠ j then { t with now := if j = 0 then [x] else [], runs := 0 }
  else
    let now := t.now ++ [x]
    if now.length < 64 then { t with now := now }
    else { now := [], last := now, runs := if now = t.last then t.runs + 1 else 1 }

/-- An accepted trace is readable: `half` is 0 for SM and 1 for PM (R302). -/
def Block.accTti (b : Block) (c half : Nat) (v : List Byte) : Block :=
  (upTo 16).foldl (fun y j => y.setReg (OTN.ACC_TTI c (16 * half + j)) (BitVec.ofNat 32 (leAt v (4 * j) 4))) b

/-- Bytes `off` to `off + n - 1` of EXP_TTI. -/
def Block.expTti (b : Block) (c off n : Nat) : List Byte :=
  bytesAt ((upTo 16).flatMap (fun j => leBytes 4 (b.reg (OTN.EXP_TTI c j)).toNat)) off n

/-- TIM_SM by TIM_MODE: the SAPI is bytes 0 to 15 of the trace and the DAPI bytes 16 to 31 (R302). -/
def Block.timSm (b : Block) (c : Nat) (v : List Byte) : Bool :=
  let m := b.fld (OTN.CFG c) OTN.CFG_TIM_MODE
  (bitAt m 0 && bytesAt v 0 16 ≠ b.expTti c 0 16) || (bitAt m 1 && bytesAt v 16 16 ≠ b.expTti c 16 16)

/-- The trail traces and the PT of a frame (R302). `trib` says that PLM belongs to the tributary record. -/
def Block.otnTraces (b : Block) (c mfas : Nat) (o : OtnOh) (trib : Bool) : Block :=
  let x := b.otnCtx c
  let sm := x.sm.next mfas o.smTti
  let pm := x.pm.next mfas o.pmTti
  let ptRun := match o.pt with | some v => if v = x.pt then x.ptRun + 1 else 1 | none => x.ptRun
  let b1 := b.setOtn c { x with sm := sm, pm := pm, pt := o.pt.getD x.pt, ptRun := ptRun }
  let b2 := if 3 ≤ sm.runs then
      ((b1.accTti c 0 sm.last).setFld (OTN.STS c) OTN.STS_SM_TTI 1).setRaw (.otn c) 6 (b1.timSm c sm.last)
    else b1
  let b3 := if 3 ≤ pm.runs then (b2.accTti c 1 pm.last).setFld (OTN.STS c) OTN.STS_PM_TTI 1 else b2
  match o.pt with
  | none => b3
  | some v =>
    if ptRun < 3 then b3
    else
      let b4 := b3.setFld (OTN.STS c) OTN.STS_ACC_PT v
      let plm := decide (v ≠ b4.fld (OTN.CFG c) OTN.CFG_EXP_PT)
      if trib then b4.setRaw (.trib c) 4 plm else b4.setRaw (.otn c) 14 plm

/-- The tributary record of a frame (R305). -/
def Block.otnTrib (b : Block) (c : Nat) (t : TribOh) : Block :=
  let o := LineObj.trib c
  let b1 := ((b.debounce c 16 o 0 3 (t.stat = 7)).debounce c 17 o 1 3 (t.stat = 6)).debounce c 18 o 2 3 (t.stat = 5)
  let v := bipViol t.rxBip t.calcBip
  let b2 := ((b1.debounce c 19 o 3 5 t.bdi).setRaw o 6 (!t.msiOk)).otnAdd c 6 v
  let b3 := b2.otnAdd c 7 (beiCount t.bei)
  b3.setOtn c { b3.otnCtx c with tribBei := v }

/-- The overhead of a frame (R300 to R302). -/
def Block.otnOverhead (b : Block) (c mfas : Nat) (o : OtnOh) : Block :=
  let v := bipViol o.smRx o.smCalc
  let w := bipViol o.pmRx o.pmCalc
  let b1 := (((b.otnAdd c 0 v).otnAdd c 1 (beiCount o.smBei)).otnAdd c 2 w).otnAdd c 3 (beiCount o.pmBei)
  let b2 := (b1.otnAdd c 4 o.corr).otnAdd c 5 o.uncorr
  let x := LineObj.otn c
  let b3 := ((b2.debounce c 7 x 7 5 o.smBdi).debounce c 8 x 8 3 (o.smBei = 11)).setRaw x 9 o.iae
  let b4 := (((b3.debounce c 10 x 10 3 (o.stat = 7)).debounce c 11 x 11 3 (o.stat = 6)).debounce c 12 x 12 3
    (o.stat = 5)).debounce c 13 x 13 5 o.pmBdi
  let b5 := b4.otnTraces c mfas o (b4.objEn (.trib c))
  let b6 := match o.trib with | some t => if b5.objEn (.trib c) then b5.otnTrib c t else b5 | none => b5
  b6.setOtn c { b6.otnCtx c with smBei := if o.iae then 11 else v, pmBei := w }

/-- The TX_TTI of a context. -/
def Block.txTti (b : Block) (c : Nat) : List Byte := (upTo 16).flatMap (fun j => leBytes 4 (b.reg (OTN.TX_TTI c j)).toNat)

/-- What fills the payload of a context (R303): idles of its kind while the egress of its logical port has no packet to send. -/
def Block.otnFill (b : Block) (c : Nat) : Nat :=
  let base := b.otnBase c
  let ports := (upTo 32).map (fun i => 32 * (c / 8) + i)
  let busy := ports.any (fun p => b.lportSource p = some (.otn base) && !(b.egf p).pkts.isEmpty)
  if busy then 0 else if b.fld (OTN.CFG base) OTN.CFG_TYPE = 2 then 2 else 1

/-- The frame that a context sends next (R300, R303): STAT 001, its PT and TX_TTI, BEI and BDI, and its payload. -/
def Block.otnSend (b : Block) (c : Nat) : Block :=
  let r := b.raw (.otn c)
  let bdiSm := decide (r &&& (0x3F + (if b.flag (OTN.CFG (b.otnBase c)) OTN.CFG_TIM_ACT then 0x40 else 0)) ≠ 0)
  let x := b.otnCtx c
  let f : OtnSent := {
    stat := 1, pt := b.fld (OTN.CFG (b.otnBase c)) OTN.CFG_EXP_PT, tti := b.txTti c, smBei := x.smBei, smBdi := bdiSm
    pmBei := x.pmBei, pmBdi := bdiSm || decide (r &&& 0x1C00 ≠ 0), tribBei := x.tribBei
    tribBdi := bdiSm || decide (b.raw (.trib c) &&& 7 ≠ 0), fill := b.otnFill c }
  (b.emitOut (.otn c f)).setOtn c { x with smBei := 0, pmBei := 0, tribBei := 0 }

/-- The streams of a context are deskewed (R299): the markers of an OTL4.4 name each of the 20 logical lanes once, and the lanes
arrive within the skew that G.709 allows. -/
def Block.otnDeskewed (b : Block) (c : Nat) (ss : List OtnStream) : Bool :=
  b.otnStreams c = 1
    || ((upTo 20).all (fun m => ss.any (fun s => s.marker = m))
      && ss.all (fun s => ss.all (fun t => s.delay ≤ t.delay + Config.otlSkew)))

/-- Traces and the PT begin anew where overhead is missed, since they need consecutive multiframes (R302). -/
def OtnCtx.missed (x : OtnCtx) : OtnCtx := { x with sm := { x.sm with now := [], runs := 0 }, pm := { x.pm with now := [], runs := 0 }, ptRun := 0 }

/-- An OTN frame period passes (R298 to R303). -/
def Block.otnFrame (b : Block) (c : Nat) (f : OtnFrame) : Block :=
  if !b.lineLive || !b.objEn (.otn (b.otnBase c)) then b
  else
    let x := b.otnCtx c
    let s := ((NMap.get {} x.streams f.stream).align f.hits).multi f.mfas
    let st := NMap.set {} x.streams f.stream { s with marker := f.marker, delay := f.delay }
    let ss := (upTo (b.otnStreams c)).map (fun k => NMap.get {} st k)
    let inF := ss.all (fun t => t.at_.isSome)
    let inMf := ss.all (fun t => t.inMf)
    let ok := inF && b.otnDeskewed c ss
    let t := b.time.elapsed
    let y := { x with streams := st, framed := ok, framedAt := if ok = x.framed then x.framedAt else t
                      multi := inMf, multiAt := if inMf = x.multi then x.multiAt else t }
    let b1 := ((b.setOtn c (if ok then y else y.missed)).setFld (OTN.STS c) OTN.STS_IN_FRAME (b2n inF)).setFld (OTN.STS c)
      OTN.STS_IN_MF (b2n inMf)
    let b2 := match f.oh with
      | some o => if ok then b1.otnOverhead c f.mfas o else b1
      | none => b1
    b2.otnSend c

/-- 3 ms out of frame, deskew included, or of multiframe raise LOF or LOM; 3 ms in frame or multiframe clear it (R298, R299). -/
def Block.otnLof (b : Block) (c : Nat) (multiframe : Bool) : Block :=
  let x := b.otnCtx c
  let long (t : Nat) : Bool := t + 3000000 ≤ b.time.elapsed
  if !b.lineLive || !b.objEn (.otn (b.otnBase c)) then b
  else if multiframe then (if long x.multiAt then b.setRaw (.otn c) 5 (!x.multi) else b)
  else if long x.framedAt then b.setRaw (.otn c) 4 (!x.framed)
  else b

/-- A page soft reset of OTN (R309). -/
def Block.otnReset (b : Block) : Block :=
  (upTo 64).foldl (fun y c =>
    let z := (((y.otnRelock c {}).setFld (OTN.STS c) OTN.STS_SM_TTI 0).setFld (OTN.STS c) OTN.STS_PM_TTI 0).setFld (OTN.STS c)
      OTN.STS_ACC_PT 0
    (z.accTti c 0 []).accTti c 1 []) b

end Sys2Proof.Machine
end

