-- ==== Sys2Proof/Machine/Staging.lean ====
section
/-! DEFINITION. Frames as they arrive: MAC control frames and received pauses (R287, R288), port ingress staging (R91 to R94, R31),
generated pause frames (R289), and GFP delineation (R304). -/

namespace Sys2Proof.Machine

/-- A VLAN tag's TPID.
PRESUMED, unsafe: log entry 50. -/
def isTpid (t : Nat) : Bool := t = 0x8100 || t = 0x88A8

/-- The class of a frame (R289): the PCP of its first VLAN tag, or the class of untagged frames. -/
def frameClass (bs : List Byte) (untagged : Nat) : Nat :=
  if isTpid (beNat (bytesAt bs 12 2)) then beNat (bytesAt bs 14 1) / 32 else untagged

/-- The bytes of a frame in staging: its FCS is stored with it (R92, R94).
DEDUCED, unsafe: log entry 51. -/
def stagedBytes (k : Pkt) : Nat := k.bytes.length + 4

/-- The packets of a logical port whose bytes staging holds: those staged, and those admitted whose hand-off, which reads
them, is still to come (R315). -/
def Block.stagePkts (b : Block) (p : Nat) : List Pkt :=
  let f := b.frond (p / 32)
  (b.staged p).map (fun s => s.pkt)
    ++ ((f.parser ++ f.pinnae).map (fun x => x.pkt)).filter (fun k => k.lport = p && !k.fromRecirc && !k.inject && !k.noLport)

/-- The bytes of staging that a logical port occupies. -/
def Block.stageOcc (b : Block) (p : Nat) : Nat := (b.stagePkts p).foldl (fun n k => n + stagedBytes k) 0

/-- The logical port that a source feeds (R280). -/
def Block.lportOf (b : Block) (o : LineObj) : Option Nat :=
  let ps := (b.objSlices o).flatMap (fun n => (upTo 32).map (fun p => 32 * n + p))
  ps.find? (fun p => b.lportSource p = some o)

/-- The bytes in staging of a MAC port's class; 8 is every class (R289). -/
def Block.classOcc (b : Block) (k cls : Nat) : Nat :=
  match b.lportOf (.mac k) with
  | none => 0
  | some p =>
    let un := b.fld (macPause k) LIN.MAC_PAUSE_UNTAG_CLASS
    (b.stagePkts p).foldl (fun n q => if cls = 8 || frameClass q.bytes un = cls then n + stagedBytes q else n) 0

/-- The ns that quanta take at a MAC port's speed: 512 bit times each (R288). -/
def Block.quantaNs (b : Block) (k quanta : Nat) : Nat := ceilDiv (quanta * 512) (5 * b.sourceSpeed (.mac k))

/-- A pause or PFC frame of a class, or 8 for the whole port, goes out, counted (R289). -/
def Block.sendPause (b0 : Block) (k cls classes quanta : Nat) : Block :=
  let b := { b0 with line := { b0.line with pausedAt := NMap.put b0.line.pausedAt (16 * k + cls) b0.time.elapsed } }
  let lo := if b.fld (macPause k) LIN.MAC_PAUSE_TX_MODE = 1 then LIN.TX_PAUSE_LO (k / 16) (k % 16)
    else LIN.TX_PFC_LO (k / 16) (k % 16)
  (b.count lo 3).emitOut (.pause k classes quanta)

/-- One class, or 8 for the whole port in pause mode, is held against its thresholds (R289). -/
def Block.xoffCheck (b : Block) (k cls : Nat) : Block :=
  let mask := if cls = 8 then 0xFF else 2 ^ cls
  let now := b.fld (macSts k) LIN.MAC_STS_XOFF
  let n := b.classOcc k cls
  let thr := LIN.MAC_PFC_THR (k / 16) (k % 16)
  if now &&& mask = 0 && 1024 * b.fld thr LIN.MAC_PFC_THR_XOFF < n then
    (b.setFld (macSts k) LIN.MAC_STS_XOFF (now ||| mask)).sendPause k cls mask (b.fld (macPause k) LIN.MAC_PAUSE_TX_QUANTA)
  else if now &&& mask ≠ 0 && n ≤ 1024 * b.fld thr LIN.MAC_PFC_THR_XON then
    (b.setFld (macSts k) LIN.MAC_STS_XOFF (now - (now &&& mask))).sendPause k cls mask 0
  else b

/-- The classes that a MAC port watches (R289). -/
def Block.txClasses (b : Block) (k : Nat) : List Nat :=
  match b.fld (macPause k) LIN.MAC_PAUSE_TX_MODE with
  | 1 => [8]
  | 2 => (upTo 8).filter (fun c => bitAt (b.fld (macPause k) LIN.MAC_PAUSE_TX_CLASS_EN) c)
  | _ => []

/-- A MAC port's staging has changed (R289). -/
def Block.txPauseCheck (b : Block) (k : Nat) : Block :=
  if b.macEn k then (b.txClasses k).foldl (fun y c => y.xoffCheck k c) b else b

/-- The MAC ports of a slice whose thresholds its staging may have crossed. -/
def Block.slicePauseCheck (b : Block) (n : Nat) : Block := (upTo 16).foldl (fun y m => y.txPauseCheck (16 * n + m)) b

/-- Half of TX_QUANTA has passed with a class above XON: the frame is sent again (R289). `cls` 8 is the whole port. -/
def Block.pfcResend (b : Block) (k cls : Nat) : Block :=
  let mask := if cls = 8 then 0xFF else 2 ^ cls
  let q := b.fld (macPause k) LIN.MAC_PAUSE_TX_QUANTA
  let due := 2 * NMap.get 0 b.line.pausedAt (16 * k + cls) + b.quantaNs k q ≤ 2 * b.time.elapsed
  if b.lineLive && b.macEn k && (b.txClasses k).contains cls && b.fld (macSts k) LIN.MAC_STS_XOFF &&& mask ≠ 0 && due then
    b.sendPause k cls mask q
  else b

/-- `MACm_STS` shows the pauses that hold. -/
def Block.showPause (b : Block) (k : Nat) : Block :=
  let on (c : Nat) : Bool := NMap.get 0 b.td.sched.pauses (16 * k + c) ≠ 0
  (b.setFld (macSts k) LIN.MAC_STS_PAUSED (b2n (on 8))).setFld (macSts k) LIN.MAC_STS_PFC_HELD
    ((upTo 8).foldl (fun m c => if on c then m + 2 ^ c else m) 0)

/-- A pause of a class, or 8 for the whole port, begins, is replaced or ends (R236, R288). A beginning counts in
PAUSE_EVENTS. -/
def Block.pauseSet (b : Block) (k cls quanta : Nat) : Block :=
  let key := 16 * k + cls
  let was := NMap.get 0 b.td.sched.pauses key
  let end_ := if quanta = 0 then 0 else b.time.elapsed + b.quantaNs k quanta
  let b1 := b.withSched { b.td.sched with pauses := NMap.set 0 b.td.sched.pauses key end_ }
  ((b1.countIf (was = 0 && quanta ≠ 0) SCH.PAUSE_EVENTS_LO 0).showPause k).deficitCheck

/-- A pause's quanta have run out (R288). -/
def Block.pauseExpiry (b : Block) (k cls : Nat) : Block :=
  if b.lineLive && NMap.get 0 b.td.sched.pauses (16 * k + cls) ≤ b.time.elapsed then b.pauseSet k cls 0 else b

/-- A frame that a MAC port recognises as a MAC control frame, its FCS apart (R287). -/
def Block.isMacControl (b : Block) (k : Nat) (bs : List Byte) : Bool :=
  let n := k / 16
  let m := k % 16
  let own := (b.reg (LIN.MAC_SA_LO n m)).toNat + (b.reg (LIN.MAC_SA_HI n m)).toNat % 2 ^ 16 * 2 ^ 32
  let dst := beNat (bytesAt bs 0 6)
  (dst = 0x0180C2000001 || dst = own) && beNat (bytesAt bs 12 2) = 0x8808

/-- What a consumed MAC control frame does (R287).
DEDUCED, unsafe: log entry 53. -/
def Block.macControlAct (b : Block) (k : Nat) (bs : List Byte) : Block :=
  let n := k / 16
  let m := k % 16
  let mode := b.fld (macPause k) LIN.MAC_PAUSE_RX_MODE
  let op := beNat (bytesAt bs 14 2)
  if op = 1 && mode = 1 then (b.count (LIN.RX_PAUSE_LO n m) 3).pauseSet k 8 (beNat (bytesAt bs 16 2))
  else if op = 0x0101 && mode = 2 then
    let en := beNat (bytesAt bs 16 2)
    (upTo 8).foldl (fun y c => if bitAt en c then y.pauseSet k c (beNat (bytesAt bs (18 + 2 * c) 2)) else y)
      (b.count (LIN.RX_PFC_LO n m) 3)
  else b.count (LIN.PAUSE_OTHER_LO n m) 3

/-- The cells and chunks of a packet on the bridge (R21, R31). -/
def chunkCount (len : Nat) : Nat := cellsOf len + ceilDiv len 32

/-- The chunk budget of an ingress frond brought up to now (R31).
DESIGN CHOICE, unsafe: log entry 52. -/
def Block.budgetNow (b : Block) (k : Nat) : Nat × Nat :=
  let x := NMap.get (576000, 0) b.fd.budget k
  (min 576000 (x.1 + 3072 * (b.time.elapsed - x.2)), b.time.elapsed)

/-- Replace a frond's chunk budget. -/
def Block.setBudget (b : Block) (k : Nat) (x : Nat × Nat) : Block :=
  { b with fd := { b.fd with budget := NMap.set (576000, 0) b.fd.budget k x } }

/-- A drop of staging, counted against the logical port: 0 STAGE_FULL, 1 OVERSIZE, 2 BRIDGE_LIMIT (R92). -/
def Block.stageDrop (b : Block) (p cause : Nat) : Block := b.count (0x202000 + 0x18 * p + 8 * cause) 2

/-- Packets of a port are taken: the mode forwards, no QUIESCENT request holds them, and the slice is not draining (R42,
R286, R488). -/
def Block.portAdmits (b : Block) (p : Nat) : Bool :=
  b.frondsRun && !b.mode.portHold && !b.lportDown p && !bitAt (b.reg PWR.SLICE_STS).toNat (p / 32) && !bitAt (b.reg PWR.SLICE_STS).toNat (8 + p / 32)

/-- A frame reaches the staging of a logical port (R31, R91, R92, R315). -/
def Block.stageFrame (b : Block) (p mac : Nat) (bs : List Byte) (fcsOk : Bool) : Block :=
  if !b.portAdmits p then b
  else
    let a := PRS.STAGE p
    let n := bs.length + 4
    let room := 4096 * b.fld a PRS.STAGE_SHARE - b.stageOcc p
    let mtu := b.fld a PRS.STAGE_MTU
    if mtu < n && mtu ≤ room then b.stageDrop p 1
    else if room < n then b.stageDrop p 0
    else
      let half := b.flag BRG.STS BRG.STS_HALF
      let bud := b.budgetNow (p / 32)
      let need := 1000 * chunkCount bs.length
      if half && bud.1 < need then b.stageDrop p 2
      else
        let b1 := if half then b.setBudget (p / 32) (bud.1 - need, bud.2) else b
        let k : Pkt := { bytes := bs, len := bs.length, fcsOk := fcsOk, lport := p, noLport := false, macPort := mac
                         rinds := arrivalRinds p bs }
        (b1.setStaged p (b1.staged p ++ [⟨k, false⟩])).pmc 3 p n

/-- The framer counters of a MAC port: codewords where it runs a FEC, and BIP where its clause checks one, the 4-lane 100GBASE-R PCS
without RS-FEC (R284).
DESIGN CHOICE, unsafe: log entry 54.
DEDUCED, unsafe: log entry 204. -/
def Block.macFec (b : Block) (k : Nat) (f : FecSeen) : Block :=
  let n := k / 16
  let m := k % 16
  let s := LIN.MAC_SAT n m
  let add (y : Block) (a i v : Nat) : Block := if v = 0 then y else y.framerAdd a s i v
  let fec := decide (b.macBind k = 1 && b.fld (macCfg k) LIN.MAC_CFG_FEC ≠ 0)
  let bip := b.macBind k = 1 && b.fld (macCfg k) LIN.MAC_CFG_MODE = 4 && !fec
  let b0 := if fec then add (add (add b (LIN.MAC_FEC_CORR_CW n m) 0 f.corrCw) (LIN.MAC_FEC_UNCORR_CW n m) 1 f.uncorrCw)
    (LIN.MAC_FEC_CORR_SYM n m) 2 f.corrSym else b
  let b1 := if bip then add b0 (LIN.MAC_BIP n m) 3 f.bip else b0
  b1.intRawIf (b1.reg s ≠ b.reg s) (0x30 + n) 2

/-- A frame arrives from a source (R280, R285, R287, R291): a MAC port that is not up receives nothing. A frame that an uncorrectable
codeword touches has a bad FCS. A MAC control frame is consumed unless RX_MODE is 0.
DESIGN CHOICE, unsafe: log entry 49. -/
def Block.frameIn (b : Block) (o : LineObj) (bs : List Byte) (fcs : Bool) (fec : FecSeen) : Block :=
  let fcsOk := fcs && fec.uncorrCw = 0
  if !b.lineLive || !b.objEn o then b
  else match o with
    | .mac k =>
      let b1 := b.macFec k fec
      if !b1.isUp o then b1
      else if fcsOk && b1.isMacControl k bs && b1.fld (macPause k) LIN.MAC_PAUSE_RX_MODE ≠ 0 then b1.macControlAct k bs
      else (match b1.lportOf o with
        | some p => (b1.stageFrame p k bs fcsOk).txPauseCheck k
        | none => b1)
    | .client .. =>
      if !b.isUp o then b
      else (match b.lportOf o with | some p => b.stageFrame p 0xFF bs fcsOk | none => b)
    | .otn _ =>
      if !b.isUp o then b
      else (match b.lportOf o with | some p => b.stageFrame p 0xFF bs fcsOk | none => b)
    | _ => b

/-- The first packet of a port that is not ready becomes ready (R91). -/
def readyFirst : List Staged → List Staged
  | [] => []
  | s :: r => if s.ready then s :: readyFirst r else { s with ready := true } :: r

/-- 12 FD core cycles after its last byte (R91). -/
def Block.packetReady (b : Block) (p : Nat) : Block :=
  if b.fdLive then b.setStaged p (readyFirst (b.staged p)) else b

/-- A GFP frame is delineated (R304): 0 good cHEC, 1 a single-bit error, 2 uncorrectable. -/
def Block.gfpFrame (b : Block) (c hec : Nat) (f : GfpFrame) : Block :=
  if !b.lineLive || !b.objEn (.otn c) then b
  else
    let x := b.otnCtx c
    let g' := match x.gfp with
      | 0 => if hec = 0 then 1 else 0
      | 1 => if hec = 0 then 2 else 0
      | _ => if hec = 2 then 0 else 2
    let b2 := (b.setOtn c { x with gfp := g' }).lfd c
    if x.gfp ≠ 2 || hec = 2 then b2
    else match f with
      | .idle => b2
      | .other =>
        let b3 := b2.framerAdd (OTN.GFP_OTHER c) (OTN.SAT c) 8 1
        b3.intRawIf (b3.reg (OTN.SAT c) ≠ b2.reg (OTN.SAT c)) 0x39 2
      | .ethernet bs ok => b2.frameIn (.otn c) bs ok ⟨0, 0, 0, 0⟩

end Sys2Proof.Machine
end

