-- ==== Sys2Proof/Machine/Power.lean ====
section
/-! DEFINITION. Power states of the groups (R477 to R482) and the drain of a line slice (R488, R489). -/

namespace Sys2Proof.Machine

/-- A frond pair has a ready admission source (R55, R477). -/
def Block.pairReady (b : Block) (k : Nat) : Bool :=
  (upTo 35).any (fun o => (b.offer k o 0).isSome || (b.offer (k + 8) o 0).isSome)

/-- The conditions under which a group may leave P0 hold (R477). -/
def Block.groupIdle (b : Block) (g : Nat) : Bool :=
  let m := b.mode.mode
  if g < 8 then
    m = .quiescent || m = .lowPowerHold || bitAt (b.fld PWR.SLICE_STS PWR.SLICE_STS_DRAINED) g
      || (upTo 8).all (fun l => b.fld (LIN.LANE_STS g l) LIN.LANE_STS_STATE = 0)
  else if g < 20 then
    m = .lowPowerHold || !b.flag KCL.CTL KCL.CTL_ENABLE || (upTo 8).all (fun l => b.laneState (8 * (g - 8) + l) = 0)
  else if g < 28 then !b.pairReady (g - 20) && !b.loading
  else if g < 45 then
    let x := b.d5Chan (g - 28)
    x.wqA.isEmpty && x.wqB.isEmpty && x.rqA.isEmpty && x.rqB.isEmpty && b.owed (g - 28) = 0 && (b.groupFixed g).isNone
  else
    (upTo 8).all (fun k => b.groupState (20 + k) ≠ 0) && b.tcam.step.isNone && b.tcam.scrubQ.isEmpty
      && b.fld TCM.OP_STS TCM.OP_STS_STATE ≠ 1

/-- R477 allows a group a state. -/
def Block.groupAllows (b : Block) (g s : Nat) : Bool :=
  let hold := b.mode.mode = .lowPowerHold
  b.groupIdle g && (match s with
    | 1 => true
    | 2 => g < 20
    | 3 => 28 ≤ g && g < 45
    | 4 =>
      if g < 20 then hold
      else if g < 28 then
        let k := g - 20
        hold && (b.recirc k).path.isEmpty && (b.recirc k).fifo.isEmpty && (b.frond k).inject.isEmpty && (b.frond (k + 8)).inject.isEmpty
          && b.fld GLB.PROG_BANK_STS GLB.PROG_BANK_STS_BANK0 ≠ 4 && b.fld GLB.PROG_BANK_STS GLB.PROG_BANK_STS_BANK1 ≠ 4
      else if g < 45 then hold && b.d5State (g - 28) = d5Active
      else hold && (upTo 8).all (fun k => b.groupState (20 + k) = 4)
    | _ => false)

/-- A state is within a group's tolerance (R478). -/
def Block.tolerates (b : Block) (g s : Nat) : Bool := exitLatency s ≤ b.fld (PWR.LTR g) PWR.LTR_LTR

/-- DEEPEST: the deepest state that R477 and LTRg now allow (R478); what a group's kind holds it in is no choice. -/
def Block.deepest (b : Block) (g : Nat) : Nat :=
  if b.railsOff then 4
  else match b.groupFixed g with
    | some s => s
    | none => (([4, 3, 2, 1]).find? (fun s => b.groupAllows g s && b.tolerates g s)).getD 0

/-- The lanes of a fabric macro go DOWN before it leaves P0 (R274). The spec names no cause: a free value.
DESIGN CHOICE, safe: log entry 130. -/
def Block.macroSleeps (b : Block) (n : Nat) : Block :=
  (upTo 8).foldl (fun x j =>
    let l := 8 * n + j
    if x.laneState l = 0 || x.laneState l = 6 then x
    else (x.drawn).laneFall l ((Config.freeValue x.draws).toNat % 8) false) b

/-- A group enters a state, or is refused retention (R481): then false. -/
def Block.groupEnter (b : Block) (g s : Nat) : Block × Bool :=
  let b0 := if 8 ≤ g && g < 20 && b.groupState g = 0 then b.macroSleeps (g - 8) else b
  if s ≠ 4 then ((b0.groupTo g s).poolsCheck, true)
  else if b0.poolFree (b0.fld PWR.RET_CFG PWR.RET_CFG_RET_POOL) < retCells g then
    (((b.setFld (PWR.GSTS g) PWR.GSTS_RET_REFUSED 1).intRaw 0x63 1).event 0x63 0xC 3 (leBytes 1 g ++ leBytes 4 (retCells g)), false)
  else (((b0.groupTo g 4).poolsCheck.intRaw 0x63 0).eventOnce (0x0C0100 + g) 0x63 0xC 1 [BitVec.ofNat 8 g], true)

/-- Whether a group may now go into a state, deeper than its own, for which its conditions have held long enough. -/
def Block.mayEnter (b : Block) (g ready s : Nat) : Bool :=
  s ≤ ready && b.groupState g < s && b.groupAllows g s && b.tolerates g s
    && !(s = 4 && b.flag (PWR.GSTS g) PWR.GSTS_RET_REFUSED)

/-- A group takes the deepest state that it may (R478, R481). `ready` is the deepest state for which its conditions have held
for the hold-off.
DEDUCED, unsafe: log entry 129. -/
def Block.powerEntry (b : Block) (g ready : Nat) : Block :=
  if b.railsOff || b.mode.mode = .faultHold || b.mode.mode = .bringUp || (b.groupFixed g).isSome
    || b.flag (PWR.GSTS g) PWR.GSTS_MOVING then b
  else match ([4, 3, 2, 1]).find? (fun s => b.mayEnter g ready s) with
    | none => b
    | some s =>
      let r := b.groupEnter g s
      if r.2 then r.1
      else match ([3, 2, 1]).find? (fun t => r.1.mayEnter g ready t) with
        | some t => (r.1.groupEnter g t).1
        | none => r.1

/-- The mode leaves LOW-POWER HOLD, which breaks the conditions of P4: a group that was refused retention may try again (R477, R481). -/
def Block.refusedAnew (b : Block) : Block :=
  (upTo 46).foldl (fun x g => if x.flag (PWR.GSTS g) PWR.GSTS_RET_REFUSED then x.setFld (PWR.GSTS g) PWR.GSTS_RET_REFUSED 0 else x) b

/-- A request for QUIESCENT from LOW-POWER HOLD ends once no group is in P4 (R41, R480).
DEDUCED, unsafe: log entry 131. -/
def Block.wakeDone (b : Block) : Block :=
  match b.mode.inProgress with
  | some q =>
    if b.mode.mode = .lowPowerHold && q.code = 5 && b.retained.isEmpty then
      ((b.endRequest 2).enterMode .quiescent (if q.src = .service then 2 else 1)).refusedAnew
    else b
  | none => b

/-- A group is back in P0 (R479, R482). -/
def Block.wakeComplete (b : Block) (g : Nat) : Block :=
  if b.railsOff || b.mode.mode = .faultHold || !b.flag (PWR.GSTS g) PWR.GSTS_MOVING then b
  else
    let was := b.fld (PWR.GSTS g) PWR.GSTS_STATE
    let b1 := ((b.groupTo g 0).setFld (PWR.GSTS g) PWR.GSTS_MOVING 0).poolsCheck
    let x := b1.pwrGroup g
    let wraps := x.wakes + 1 = 2 ^ 48
    let b2 := (b1.setPwrGroup g { x with wakes := (x.wakes + 1) % 2 ^ 48
                                         wraps := if wraps then x.wraps ||| 0x20 else x.wraps }).intRawIf wraps 0x63 3
    if was = 4 then ((b2.intRaw 0x63 0).event 0x63 0xC 2 [BitVec.ofNat 8 g]).wakeDone else b2

/-- The effect of a write of `LTRg` (R478). -/
def effLtr (g : Nat) (_w : WriteOut) (_old : Word) (b : Block) : Block := b.ltrWritten g

/-- A write of `RET_CFG` while retention is held is captured under R11 (R481). -/
def badRet (b : Block) (a : Nat) (old v : Word) : List Nat :=
  badIf (a = PWR.RET_CFG && b.fld PWR.RET_USED PWR.RET_USED_CELLS ≠ 0 && wf old PWR.RET_CFG_RET_POOL ≠ wf v PWR.RET_CFG_RET_POOL) 0

/-- A write of a residency or wake-up counter's `_HI` clears its WRAP of the selected group (R443, R482). -/
def effPwrWrap (bit : Nat) (v : Word) (b : Block) : Block :=
  let g := b.fld PWR.RES_SEL PWR.RES_SEL_GROUP
  let x := b.pwrGroup g
  if bitAt v.toNat 31 then b.setPwrGroup g { x with wraps := bitOff x.wraps bit } else b

/-- A write of `PWR.SLICE_DRAIN` (R488): slices whose bit becomes 1 begin to drain. From the service port it changes nothing and
is captured under R11.
DEDUCED, unsafe: log entry 132. -/
def effSliceDrain (src : Source) (_w : WriteOut) (old : Word) (b : Block) : Block :=
  if src = .service then (b.setReg PWR.SLICE_DRAIN old).captureAt PWR.SLICE_DRAIN src 0 1
  else
    let on := (b.reg PWR.SLICE_DRAIN).toNat
    let was := b.fld PWR.SLICE_STS PWR.SLICE_STS_DRAINING
    let ks := upTo 8
    let starts := ks.filter (fun k => bitAt on k && !bitAt was k)
    let ends := ks.filter (fun k => !bitAt on k && bitAt old.toNat k)
    let pwr := { b.pwr with drainAt := starts.foldl (fun m k => NMap.put m k b.time.elapsed) b.pwr.drainAt
                            releaseAt := ends.foldl (fun m k => NMap.put m k b.ticks) b.pwr.releaseAt }
    { b with pwr := pwr }.setFld PWR.SLICE_STS PWR.SLICE_STS_DRAINING (was ||| (on % 2 ^ 8))

/-- The queues whose path ends at a LINE node of a slice (R216, R488). -/
def Block.sliceQueues (b : Block) (k : Nat) : List Nat :=
  (b.td.store.queues.map (fun e => e.1)).filter (fun q => b.pathEnd q / 32 = k)

/-- Packets that are whole in a queue. -/
def Block.queuePackets (b : Block) (q : Nat) : Nat := (b.queue q).packets

/-- Ten ms into a slice's drain (R488): what is still queued is discarded and counted per queue, the ports are held down, DRAINED
sets, and the mode follows R40. -/
def Block.sliceExpiry (b : Block) (k : Nat) : Block :=
  let sts := b.reg PWR.SLICE_STS
  if b.mode.mode = .faultHold || !bitAt sts.toNat k || bitAt sts.toNat (8 + k) || !bitAt (b.reg PWR.SLICE_DRAIN).toNat k
      || b.time.elapsed < NMap.get 0 b.pwr.drainAt k + 10000000 then b
  else
    let qs := b.sliceQueues k
    let n := qs.foldl (fun s q => s + b.queuePackets q) 0
    let b1 := qs.foldl (fun x q => x.purgeQueue q true) b
    let ups := (upTo 32).filter (fun j => !b1.lportDown (32 * k + j))
    let b2 := b1.setFld PWR.SLICE_STS PWR.SLICE_STS_DRAINED (bitOn (b1.fld PWR.SLICE_STS PWR.SLICE_STS_DRAINED) k)
    let b3 := ups.foldl (fun x j => x.egfPortDown (32 * k + j)) b2
    ((b3.intRaw 0x63 2).event 0x63 0xC 4 (leBytes 1 k ++ leBytes 4 n)).follow40

/-- At the tick boundary after the write, slices whose drain bit is 0 are released, or their drains abandoned (R488). -/
def Block.sliceRelease (b : Block) : Block :=
  let sts := b.reg PWR.SLICE_STS
  let go := (upTo 8).filter (fun k => (bitAt sts.toNat k || bitAt sts.toNat (8 + k)) && !bitAt (b.reg PWR.SLICE_DRAIN).toNat k
    && NMap.get 0 b.pwr.releaseAt k < b.ticks)
  if b.mode.mode = .faultHold || go.isEmpty then b
  else
    let keep (v : Nat) : Nat := go.foldl bitOff v
    let b1 := (b.setFld PWR.SLICE_STS PWR.SLICE_STS_DRAINING (keep (b.fld PWR.SLICE_STS PWR.SLICE_STS_DRAINING))).setFld
      PWR.SLICE_STS PWR.SLICE_STS_DRAINED (keep (b.fld PWR.SLICE_STS PWR.SLICE_STS_DRAINED))
    (go.foldl (fun x k => x.event 0x63 0xC 5 [BitVec.ofNat 8 k]) b1).follow40

/-- What is queued 10 ms after a QUIESCENT request is discarded and counted per queue (R42). -/
def Block.discardQueued (b : Block) : Block :=
  (b.td.store.queues.map (fun e => e.1)).foldl (fun x q => x.purgeQueue q true) b

/-- Every port that is up is cut off as it is held down (R42, R286). -/
def Block.portsDown (b : Block) : Block :=
  ((upTo 256).filter (fun p => !b.lportDown p)).foldl (fun x p => x.egfPortDown p) b

/-- A page soft reset of PWR: every group returns to P0 and retention is released; tolerances stay, and a slice drain
continues (R485). A group that leaves P4 is reported; in FAULT-HOLD no group changes state (R480). -/
def Block.pwrPageReset (b : Block) : Block :=
  if b.mode.mode = .faultHold then b
  else
    let b1 := b.retained.foldl (fun x g => (x.intRaw 0x63 0).event 0x63 0xC 2 [BitVec.ofNat 8 g]) b
    b1.groupsP0.poolsCheck.wakeDone

end Sys2Proof.Machine
end

