-- ==== Sys2Proof/Machine/Thermal.lean ====
section
/-! DEFINITION. The thermal monitor (R486, R487): temperatures are signed, in units of 0.125 °C. -/

namespace Sys2Proof.Machine

/-- The lowest core junction temperature of the grade, in units of 0.125 °C (R4). -/
def coreMin : Int := if Config.gradeExtended then -5 * 8 else 0

/-- A die's temperature: its hottest sensor (R486). -/
def dieTemp (t : List Int) (first n : Nat) : Int := ((t.drop first).take n).foldl max (-32768)

/-- A sensor past a level in this sample and the one before: the first such sensor. -/
def firstPast (past : Int → Bool) (prev now : List Int) : Option Nat :=
  (List.range now.length).find? (fun i =>
    match now[i]?, prev[i]? with
    | some x, some y => past x && past y
    | _, _ => false)

/-- Every sensor is on the near side of the clear level in this sample and the one before. -/
def allNear (near : Int → Bool) (prev now : List Int) : Bool := prev.all near && now.all near

/-- Raise limit `k` of THM.STS.NOW: CROSSED and its interrupt cause come with it (R487). -/
def Block.thmRaise (b : Block) (k sub : Nat) (data : List Byte) : Block :=
  let b1 := b.setFld THM.STS THM.STS_NOW (bitOn (b.fld THM.STS THM.STS_NOW) k)
  let b2 := b1.setFld THM.STS THM.STS_CROSSED (bitOn (b1.fld THM.STS THM.STS_CROSSED) k)
  (b2.intRaw 0x64 0).event 0x64 0x0D sub data

/-- Clear limit `k`, with its event where it has one. -/
def Block.thmClear (b : Block) (k : Nat) (sub : Option Nat) : Block :=
  let b1 := b.setFld THM.STS THM.STS_NOW (bitOff (b.fld THM.STS THM.STS_NOW) k)
  match sub with
  | none => b1
  | some e => b1.event 0x64 0x0D e []

/-- Limit `k` is raised now. -/
def Block.thmNow (b : Block) (k : Nat) : Bool := bitAt (b.fld THM.STS THM.STS_NOW) k

/-- A temperature as its two bytes. -/
def tempBytes (t : Int) : List Byte := leBytes 2 (ofSigned 16 t)

/-- One limit over single sensors: raised after two samples past it, cleared after two on the near side. -/
def Block.thmLimit (b : Block) (k : Nat) (past near : Int → Bool) (prev now : List Int) (sub : Nat)
    (data : Nat → List Byte) (subClear : Option Nat) : Block :=
  if b.thmNow k then (if allNear near prev now then b.thmClear k subClear else b)
  else match firstPast past prev now with
    | some i => b.thmRaise k sub (data i)
    | none => b

/-- Store the readings, the hottest sensor and the peaks (R486). -/
def Block.thmStore (b : Block) (t : List Int) : Block :=
  let b1 := (List.range 25).foldl (fun b i =>
    b.setReg (THM.TEMP i) (BitVec.ofNat 32 (2 ^ 31 + ofSigned 16 (t.getD i 0)))) b
  let hot := dieTemp t 0 25
  let ix := match (List.range 25).find? (fun i => t.getD i 0 = hot) with
    | some i => i
    | none => 0
  let fd := max (dieTemp t 0 12) (toSigned 16 (b1.fld THM.PEAK THM.PEAK_FD))
  let td := max (dieTemp t 12 12) (toSigned 16 (b1.fld THM.PEAK THM.PEAK_TD))
  ((b1.setFld THM.STS THM.STS_HOTTEST ix).setFld THM.PEAK THM.PEAK_FD (ofSigned 16 fd)).setFld
    THM.PEAK THM.PEAK_TD (ofSigned 16 td)

/-- The four limits of NOW after a sample (R487). -/
def Block.thmLimits (b : Block) (prev now : List Int) : Block :=
  let warn : Int := 8 * b.fld THM.LIMITS THM.LIMITS_WARN
  let b1 := b.thmLimit 0 (fun x => warn ≤ x) (fun x => x ≤ warn - 16) prev now 1
    (fun i => leBytes 1 i ++ tempBytes (now.getD i 0)) (some 2)
  let b2 := b1.thmLimit 1 (fun x => 105 * 8 ≤ x) (fun x => x ≤ 103 * 8) prev now 3 (fun i => leBytes 1 i) none
  let d (t : List Int) : Int := ((dieTemp t 0 12 - dieTemp t 12 12).natAbs : Nat)
  let b3 := if b2.thmNow 2 then (if d prev ≤ 23 * 8 && d now ≤ 23 * 8 then b2.thmClear 2 (some 5) else b2)
    else if 25 * 8 < d prev && 25 * 8 < d now then
      b2.thmRaise 2 4 (tempBytes (dieTemp now 0 12) ++ tempBytes (dieTemp now 12 12))
    else b2
  if coreOn b3.mode.mode then
    b3.thmLimit 3 (fun x => x < coreMin) (fun x => coreMin + 16 ≤ x) (prev.take 24) (now.take 24) 6
      (fun i => leBytes 1 i) none
  else b3

/-- The first of sensors 0 to 23 at or above 115 °C in two samples (SHUTDOWN). -/
def shutdownSensor (prev now : List Int) : Option Nat := firstPast (fun x => 115 * 8 ≤ x) (prev.take 24) (now.take 24)

/-- The first of sensors 0 to 23 at or above 120 °C in this sample (HARD_OFF). -/
def hardOffSensor (now : List Int) : Option Nat := (List.range 24).find? (fun i => 120 * 8 ≤ now.getD i 0)

/-- The gate of R4: both large dies report temperatures inside the grade's core range. -/
def gateOpen (t : List Int) : Bool :=
  coreMin ≤ dieTemp t 0 12 && dieTemp t 0 12 ≤ 105 * 8 && coreMin ≤ dieTemp t 12 12 && dieTemp t 12 12 ≤ 105 * 8

/-- Either large die is below the grade's core range (R497). -/
def gateCold (t : List Int) : Bool := dieTemp t 0 12 < coreMin || dieTemp t 12 12 < coreMin

/-- PEAK_CLR returns PEAK to its reset value (R486). -/
def Block.peakClr (b : Block) : Block := (b.clearReg THM.PEAK).setFld THM.STS THM.STS_PEAK_CLR 0

end Sys2Proof.Machine
end

