-- ==== Sys2Proof/Machine/Resets.lean ====
section
/-! DEFINITION. What each reset leaves (R483, and the reset tables of the chapters). -/

namespace Sys2Proof.Machine

/-- An address of a management-island page. -/
def islandAddr (a : Nat) : Bool := pageIsland (a / 0x10000)

/-- An address of the MSI-X table, which a warm reset keeps (R420).
PRESUMED, unsafe: log entry 8. -/
def msixAddr (a : Nat) : Bool := 0x18000 ≤ a && a < 0x1A000

/-- Every core block as after power-on; the island, the NV die and what lies outside the device stay, as `D5M.CFG` does (R367,
R483). A warm reset keeps the MSI-X table. Power groups return to P0 and slice drains are discarded (R484, R485).
DESIGN CHOICE, safe: log entry 167. -/
def Block.coreFresh (b : Block) (warm : Bool) : Block :=
  let keep (a : Nat) : Bool :=
    (islandAddr a && a ≠ PWR.SLICE_DRAIN && a ≠ PWR.SLICE_STS) || a = D5M.CFG || (warm && msixAddr a)
  let b := b.groupsP0.d5PinsLow
  { b with
    fd := {}
    td := {}
    line := {}
    tbl := {}
    tcam := {}
    d5 := { cfg := b.d5.cfg }
    cnt := {}
    chk := {}
    told := []
    regs := b.regs.filter (fun e => keep e.1)
    frozen := b.frozen.filter (fun e => islandAddr e.1)
    latches := b.latches.filter (fun e => islandAddr (e.1 % 2 ^ 26))
    armed := b.armed.filter (fun e => pageIsland e.1)
    rings := []
    lost := false
    sent := []
    time := { elapsed := b.time.elapsed }
    anchors := []
    csc := {}
    mode := { b.mode with role := 0 } }

/-- Everything as at power-on but the NV die, time that has passed, what has left the device and what lies outside. -/
def Block.powerOnFresh (b : Block) : Block :=
  { ({} : Block) with
    nv := b.nv
    host := b.host
    out := b.out
    draws := b.draws
    temps := b.temps
    pwr := { start := b.time.elapsed }
    time := { elapsed := b.time.elapsed } }

/-- The registers that read the identity region after reset: CHIP_UID and the service MAC (R448). -/
def Block.identity (b : Block) : Block :=
  let b1 := (b.setReg SVC.MAC_LO (BitVec.ofNat 32 b.nv.mac)).setReg SVC.MAC_HI (BitVec.ofNat 32 (b.nv.mac / 2 ^ 32))
  (b1.setReg GLB.CHIP_UID_LO (BitVec.ofNat 32 b.nv.uid)).setReg GLB.CHIP_UID_HI (BitVec.ofNat 32 (b.nv.uid / 2 ^ 32))

end Sys2Proof.Machine
end

