-- ==== Sys2Proof/Machine/Modes.lean ====
section
/-! DEFINITION. The operating modes: requests (R41), their precedence (R45), the boot flow (R455, R497, R503, R504), the
pins and the resets (R44, R483, R484, R496, R499, R505, R508). -/

namespace Sys2Proof.Machine

/-- The island drives MAIN_EN low: the rails go, and the PCIe link with them (R497, R498). -/
def Block.mainEnOff (b : Block) : Block := { b with mode := { b.mode with mainEn := false, railsGood := false } }

/-- The island raises MAIN_EN (R497). -/
def Block.mainEnOn (b : Block) : Block :=
  { b with mode := { b.mode with mainEn := true, mainEnSince := if b.mode.mainEn then b.mode.mainEnSince else b.time.elapsed } }

/-- No image runs on the sorus. -/
def Block.noImage (b : Block) : Block :=
  { (b.coreReset) with fw := { b.coreReset.fw with loaderDue := false } }

/-- Enter STANDBY with the main rails removed: the core blocks lose all (R44, R497). `auto` says whether the strap may
start the device from here (R41). -/
def Block.toStandby (b : Block) (cause : Nat) (auto : Bool) : Block :=
  let b1 := (((b.endRequest 5).mainEnOff).coreFresh false).noImage
  let b2 := { b1 with mode := { b1.mode with autoStart := auto, loaderOk := none, bootPending := none, gated := false,
                                             fromQuiescent := false } }
  b2.enterMode .standby cause

/-- Enter SPORE: MAIN_EN rises unless a die below the core range holds it low (R497). -/
def Block.toSpore (b : Block) (cause : Nat) : Block :=
  let b1 := b.noImage
  let b2 := { b1 with mode := { b1.mode with bootPending := none, gated := false, sporeRailLost := false } }
  let b3 := b2.enterMode .spore cause
  if b3.mode.tooCold then b3 else b3.mainEnOn

/-- Enter BOOT: MAIN_EN rises and the loader runs (R41, R497). -/
def Block.toBoot (b : Block) (cause : Nat) : Block :=
  let b1 := (b.enterMode .boot cause).mainEnOn
  { b1 with mode := { b1.mode with bootPending := none, gated := false, sporeRailLost := false }
            fw := { b1.fw with loaderDue := true } }

/-- Enter BRING-UP: the core blocks start from reset, and time starts from 0 s + 0 ns without a tick (R35, R41). -/
def Block.toBringUp (b : Block) (cause : Nat) (warm : Bool) : Block :=
  (((b.endRequest 5).coreFresh warm).d5BringUp).enterMode .bringUp cause

/-- BOOT ends once an image has started and the rails are good (R41). -/
def Block.bootDone (b : Block) : Block :=
  if b.mode.mode = .boot && b.fwRuns && b.mode.railsGood then b.toBringUp 4 false else b

/-- The precedence rank of a request (R45). -/
def reqRank (src : Source) (code : Nat) : Nat :=
  if code = 4 then 5
  else match src with
    | .service => 7
    | .host => 8
    | .firmware => 9

/-- The modes a request is allowed from (R41). -/
def reqFrom (code : Nat) (m : Mode) : Bool :=
  match code with
  | 1 => m = .standby || m = .spore
  | 2 => m = .standby
  | 3 => coreOn m
  | 4 => coreOn m
  | 5 => m = .lowPowerHold || forwards m
  | 6 => m = .quiescent
  | 7 => m = .quiescent
  | 8 => m = .quiescent || forwards m
  | 9 => bringUpToHold m
  | _ => false

/-- The requests that the service port alone may make (R41, last column). -/
def svcMay (code : Nat) : Bool := !(code = 6 || code = 7)

/-- A sealed program is active (R41): a bank is ACTIVE. -/
def Block.programActive (b : Block) : Bool :=
  b.fld GLB.PROG_BANK_STS GLB.PROG_BANK_STS_BANK0 = 3 || b.fld GLB.PROG_BANK_STS GLB.PROG_BANK_STS_BANK1 = 3

/-- The conditions that refuse a request with 0x6 (R41, R337, R503, R508). -/
def Block.reqCond (b : Block) (code : Nat) : Bool :=
  match code with
  | 1 => b.mode.mainRstN && b.mode.inRange
  | 2 => b.mode.mainRstN
  | 4 => !b.mode.scan
  | 6 => b.programActive && !b.flag D5M.STS D5M.STS_UNUSABLE
  | _ => true

/-- The ground on which a request is refused, 0 for none, in the order of R41: busy, mode, source, condition. -/
def Block.refusal (b : Block) (src : Source) (code : Nat) : Nat :=
  let busy := match b.mode.inProgress with
    | none => false
    | some q => reqRank q.src q.code ≤ reqRank src code
  if busy then 4
  else if !reqFrom code b.mode.mode then 3
  else if src = .service && !svcMay code then 7
  else if !b.reqCond code then 6
  else 0

/-- LAST_CAUSE of a request (R41). -/
def reqCause (src : Source) : Nat :=
  match src with
  | .service => 2
  | _ => 1

/-- RESULT of the present request. -/
def Block.result (b : Block) (r : Nat) : Block := { b with mode := { b.mode with reqResult := r } }

/-- A request that takes time: TRANSITION reads 1 and RESULT in progress. -/
def Block.startRequest (b : Block) (src : Source) (code : Nat) : Block :=
  { b with mode := { b.mode with inProgress := some ⟨code, src, b.mode.reqSeq⟩, transition := true, reqResult := 1
                                 reqAt := b.time.elapsed } }

/-- A warm reset (R484): the core starts again through BRING-UP with the rails up; PWR.SLICE_DRAIN and SLICE_STS
clear, and every power group returns to P0. -/
def Block.warmReset (b : Block) (cause : Nat) : Block :=
  b.toBringUp cause true

/-- Enter HANDOVER (R470). -/
def Block.toHandover (b : Block) (cause : Nat) : Block :=
  let b1 := b.endRequest 5
  { b1 with mode := { b1.mode with fromQuiescent := (b.mode.mode == Mode.quiescent), lateTold := false } }.enterMode .handover cause

/-- A request that is carried out (R41). A BOOT request waits for the check of the resident loader in STANDBY, and in SPORE unless
the present loader has passed it (R455, R469). -/
def Block.carryOut (b : Block) (src : Source) (code : Nat) : Block :=
  let cause := reqCause src
  match code with
  | 1 =>
    if b.mode.mode = .standby || b.mode.loaderOk ≠ some true then
      { b with mode := { b.mode with bootPending := some src, loaderOk := none } }.startRequest src code
    else (b.toBoot cause).result 2
  | 2 => (b.toSpore cause).result 2
  | 3 => (b.toStandby cause false).result 2
  | 4 => (b.warmReset cause).result 2
  | 5 =>
    if b.mode.mode = .lowPowerHold then
      (if b.retained.isEmpty then ((b.enterMode .quiescent cause).result 2).refusedAnew else b.wakeAll.startRequest src code)
    else { b with mode := { b.mode with portHold := true } }.startRequest src code
  | 6 => (b.enterMode b.mode40 cause).result 2
  | 7 => (b.enterMode .lowPowerHold cause).result 2
  | 8 => (b.toHandover cause).result 2
  | 9 => (((b.recordFatal 0x80 0x60 0x104 (sourceCode src) true).toFaultHold 8)).result 2
  | _ => b

/-- A mode request whose code has been placed in `AUX.MODE_REQ` (R41, R45). `same` says that it falls in the island clock
of the trigger before it: a request that the clock's winner outranks ends with 0x5.
DEDUCED, unsafe: log entry 166. -/
def Block.modeRequest (b : Block) (src : Source) (code : Nat) (same : Bool) : Block :=
  let b0 := { b with mode := { b.mode with reqSeq := (b.mode.reqSeq + 1) % 256, reqSrc := src, reqResult := 0 } }
  let r := b0.refusal src code
  let outranked := same && (match b0.mode.winner with
    | some w => w ≤ reqRank src code
    | none => false)
  if outranked then b0.result 5
  else if r ≠ 0 then b0.result r
  else
    let b1 := if b0.mode.inProgress.isSome then b0.endRequest 5 else b0
    (b1.wins (reqRank src code)).carryOut src code

/-- The effect of a write of AUX.MODE_REQ: a request code taken under an armed unlock starts a request; a refused or
locked write starts none (R9, R11, R41). -/
def effModeReq (src : Source) (same : Bool) (w : WriteOut) (_old : Word) (b : Block) : Block :=
  let code := fldGet AUX.MODE_REQ_REQ w.took
  if w.unlocked && w.codeLsb = none && code ≠ 0 then b.modeRequest src code same else b

/-- Ten ms after a QUIESCENT request from a forwarding mode: what is still queued is discarded, the ports are held down,
and the device is QUIESCENT (R42). -/
def Block.portHoldEnd (b : Block) : Block :=
  match b.mode.inProgress with
  | none => b
  | some q =>
    if b.mode.portHold && forwards b.mode.mode && b.mode.reqAt + 10000000 ≤ b.time.elapsed then
      let b1 := (b.discardQueued).portsDown
      (b1.endRequest 2).enterMode .quiescent (reqCause q.src)
    else b

/-- An image on trial that cannot read its settings asks for its own restart once the mode allows one (R465). -/
def Block.selfRestart (b : Block) : Block := if b.fw.restartWanted then b.modeRequest .firmware 8 false else b

/-- VAUX_IN rises past 4.6 V (R496). -/
def Block.vauxValid (b : Block) : Block :=
  if b.mode.vaux then b else { b with mode := { b.mode with vaux := true, vauxSince := b.time.elapsed } }

/-- A record of the NV die that a power loss tears while it is written (R449, R468). -/
def Nv.tear (n : Nv) (t : Torn) : Nv :=
  match t with
  | .none => n
  | .header slot => if slot then { n with hdrB := none } else { n with hdrA := none }
  | .boot =>
    match n.boot0, n.boot1 with
    | some x, some y => if seqLater y.seq x.seq then { n with boot1 := none } else { n with boot0 := none }
    | _, _ => n
  | .settings => n.setSettingsNone (1 - n.boot.settingsActive)
  | .map =>
    match n.map0, n.map1 with
    | some x, some y => if seqLater y.seq x.seq then { n with map1 := none } else { n with map0 := none }
    | _, _ => n
  | .log => { n with log := n.log.dropLast }

/-- VAUX_IN is lost: UNPOWERED, and nothing but the NV die survives (R41, R483, R499). -/
def Block.vauxLoss (b : Block) (t : Torn) : Block :=
  { b.powerOnFresh with
    nv := b.nv.tear t
    mode := { ({} : ModeSt) with mode := .unpowered, prev := b.mode.mode, vaux := false, mainRstN := b.mode.mainRstN,
                                 perstN := b.mode.perstN, perstSince := b.mode.perstSince, winner := some 1 } }

/-- Island power-on reset completes, 10 ms after VAUX_IN became valid: STANDBY, the straps sampled (R41, R504).
DEDUCED, unsafe: log entry 163. -/
def Block.islandPor (b : Block) (bootAuto sporeN : Bool) : Block :=
  if b.mode.mode = .unpowered && b.mode.vaux && b.mode.vauxSince + 10000000 ≤ b.time.elapsed then
    let b1 := { b.powerOnFresh with
      mode := { ({} : ModeSt) with mode := .unpowered, vaux := true, mainRstN := b.mode.mainRstN,
                                   perstN := b.mode.perstN, perstSince := b.mode.perstSince
                                   bootAuto := bootAuto, sporeN := sporeN } }
    let b2 := (b1.identity).enterMode .standby 0
    if !sporeN && b2.mode.mainRstN then b2.toSpore 3 else b2
  else b

/-- MAIN_RST_N taken low: main reset (R41, R483, R503). -/
def Block.mainReset (b : Block) : Block :=
  if b.mode.mode = .unpowered then { b with mode := { b.mode with mainRstN := false } }
  else
    let b1 := { b.powerOnFresh with
      mode := { ({} : ModeSt) with mode := b.mode.mode, mainRstN := false, perstN := b.mode.perstN,
                                   perstSince := b.mode.perstSince, bootAuto := b.mode.bootAuto, sporeN := b.mode.sporeN,
                                   inRange := b.mode.inRange, winner := some 2, tooCold := b.mode.tooCold, thermLow := b.mode.thermLow } }
    let b2 := ((b1.identity).setReg D5M.CFG (b.reg D5M.CFG)).enterMode .standby 0x0A
    b2.logRec 0x10 0x01 0 [1#8, BitVec.ofNat 8 (modeCode b.mode.mode), 0x0A#8]

/-- The rising edge of MAIN_RST_N: the straps are sampled and the boot ROM checks the loader (R455, R504). -/
def Block.mainRstRelease (b : Block) (bootAuto sporeN : Bool) : Block :=
  let b1 := { b with mode := { b.mode with mainRstN := true } }
  if b1.mode.mode = .standby then
    let b2 := { b1 with mode := { b1.mode with bootAuto := bootAuto, sporeN := sporeN, autoStart := true,
                                               loaderOk := none, gated := false } }
    if sporeN then b2 else b2.toSpore 3
  else b1

/-- The boot ROM's check of the resident loader ends (R41, R455).
DEDUCED, unsafe: log entry 164. -/
def Block.loaderResult (b : Block) (sigOk : Bool) : Block :=
  if !(b.mode.mode = .standby || b.mode.mode = .spore && b.mode.bootPending.isSome) || !b.mode.mainRstN then b
  else
    let code := b.nv.checkLoader sigOk
    let b1 := b.setFld FWM.BOOT_STS FWM.BOOT_STS_LOADER_CHECK code
    let b2 := { b1 with mode := { b1.mode with loaderOk := some (code = 0), winner := some 10 } }
    if code ≠ 0 then (if b.mode.mode = .spore then b2.endRequest 6 else (b2.endRequest 6).toSpore 4)
    else match b2.mode.bootPending with
      | some src => if b2.mode.inRange then (b2.endRequest 2).toBoot (reqCause src) else b2.endRequest 6
      | none =>
        if b2.mode.autoStart && b2.mode.bootAuto then
          if b2.mode.inRange then b2.toBoot 4 else { b2 with mode := { b2.mode with gated := true } }
        else b2

/-- The temperature gate of R4 releases: a start it held goes on (LAST_CAUSE 0x0B), and in SPORE MAIN_EN rises (R497). -/
def Block.gateRelease (b : Block) : Block :=
  if !b.mode.inRange then b
  else if b.mode.mode = .standby && b.mode.gated && b.mode.mainRstN then (b.wins 10).toBoot 0x0B
  else if b.mode.mode = .spore && !b.mode.mainEn && !b.mode.sporeRailLost then b.mainEnOn
  else b

/-- MAIN_PG is high and every main rail is within range (R498). -/
def Block.railsGood (b : Block) : Block :=
  if b.mode.mainEn then
    let from_ := if b.mode.railsGood then b.mode.railsSince else b.time.elapsed
    { b with mode := { b.mode with railsGood := true, railsSince := from_ } }.bootDone
  else b

/-- Main rails not good within 50 ms of MAIN_EN in BOOT (R41). -/
def Block.railTimeout (b : Block) : Block :=
  if b.mode.mode = .boot && !b.mode.railsGood && b.mode.mainEnSince + 50000000 ≤ b.time.elapsed then
    (b.wins 3).toStandby 9 false
  else b

/-- A main rail is lost while MAIN_EN is high (R44, R498).
DEDUCED, unsafe: log entry 165. -/
def Block.railLoss (b : Block) : Block :=
  if !b.mode.mainEn then b
  else
    let b1 := b.wins 3
    if b.mode.mode = .spore then
      let b2 := b1.mainEnOff.coreFresh false
      ({ b2 with mode := { b2.mode with sporeRailLost := true } }).logRec 0x10 0x01 0
        [2#8, BitVec.ofNat 8 (modeCode b.mode.prev), BitVec.ofNat 8 b.mode.cause]
    else if coreOn b.mode.mode || (b.mode.mode = .boot && b.mode.railsGood) then
      (b1.logRec 0x10 0x01 0 [1#8, BitVec.ofNat 8 (modeCode b.mode.mode), 9#8]).toStandby 9 false
    else b

/-- The loader's choice ends (R455): in BOOT an image starts or the device goes to SPORE; in HANDOVER the cores restart. -/
def Block.firmwareStart (b : Block) (sigA sigB : Bool) : Block :=
  if !b.fw.loaderDue || !(b.mode.mode = .boot || b.mode.mode = .handover) then b
  else
    let r := (b.wins 10).loader sigA sigB
    match r.2 with
    | .started => r.1.bootDone
    | .spore =>
      if b.mode.mode = .boot then r.1.toSpore 4
      else { r.1 with fw := { r.1.fw with loaderDue := false } }

/-- The new firmware reports ready: READY, its event, and the end of a HANDOVER (R41, R470). -/
def Block.firmwareReady (b : Block) : Block :=
  if !b.fwRuns || b.flag FWM.FW_STS FWM.FW_STS_SETTINGS_INCOMPATIBLE then b
  else
    let b1 := ((b.setFld FWM.FW_STS FWM.FW_STS_READY 1).intRaw 0x62 1).event 0x62 0x0E 0x09 (leBytes 4 b.fw.version)
    let b2 := b1.learnAgain
    if b2.mode.mode = .handover then
      ((b2.satAdd FWM.HANDOVER_CNT 1).wins 10).enterMode (if b2.mode.fromQuiescent then .quiescent else b2.mode40) 0x0D
    else b2

/-- The sorus cores reset within a HANDOVER, or for an image that asked for its own restart (R465, R470). -/
def Block.handoverReset (b : Block) : Block :=
  if b.mode.mode = .handover then
    let b1 := if b.mbBusy then b.mbEnd 4 else b
    (b1.coreReset).d5TrainingAbandoned
  else b

/-- The instant at which the watchdog expires unless it is kicked: WDT_MS after the last kick (R446). -/
def Block.wdtDue (b : Block) : Nat := b.fw.kickedAt + b.fld FWM.WDT FWM.WDT_WDT_MS * 10 ^ 6

/-- The watchdog expires (R446): counted, logged, and a HANDOVER without grace from the modes that allow one (R470).
DEDUCED, unsafe: log entry 217. -/
def Block.watchdogExpiry (b : Block) : Block :=
  if !b.fwRuns || b.mode.mode = .standby || b.mode.mode = .spore || b.time.elapsed < b.wdtDue then b
  else
    let b1 := (((b.wdtRestart.satAdd FWM.WDT_CNT 1).intRaw 0x62 3).event 0x62 0x0E 0x0A []).logRec 0x0E 0x0A 0 []
    if b1.mode.mode = .quiescent || forwards b1.mode.mode then
      ((b1.wins 6).toHandover 7).handoverReset
    else if b1.mode.mode = .handover then b1.handoverReset
    else b1


/-- New firmware has not reported ready within 10 s of a HANDOVER (R43). -/
def Block.handoverLate (b : Block) : Block :=
  if b.mode.mode = .handover && !b.mode.lateTold && b.mode.since + 10 * 10 ^ 9 ≤ b.time.elapsed then
    ({ b with mode := { b.mode with lateTold := true } }.emitOut .handoverLate).event 0 0x10 0x02 []
  else b

/-- BRING-UP fails (R41, R502): 0 bridge training, 1 core PLL lock, 2 sward initialisation. -/
def Block.bringUpFailure (b : Block) (kind : Nat) : Block :=
  if b.mode.mode = .bringUp then b.fatal (0x83 + kind) (if kind = 0 then 3 else if kind = 1 then 0 else 0x80) else b

/-- A test instruction is loaded through JTAG (R41, R508). -/
def Block.boundaryScan (b : Block) : Block :=
  if bringUpToHold b.mode.mode || ((b.mode.mode = .spore || b.mode.mode = .boot) && b.mode.railsGood) then
    let b1 := { b with mode := { b.mode with scan := true, winner := some 4 } }
    (b1.recordFatal 0x87 0 0 3 false).toFaultHold 0x0C
  else b

/-- A Function Level Reset (R413): rings without write-backs, the MSI-X table, VEC_MAP, the host's unlocks and the
window's base. -/
def Block.flr (b : Block) : Block :=
  let b1 := (List.range 69).foldl (fun b r =>
    if b.flag (PCI.RING_CFG r) PCI.RING_CFG_ENABLE then
      (b.idleRing r true).setFld (PCI.RING_CFG r) PCI.RING_CFG_ENABLE 0 else b) b
  let b2 := (b1.clearRange 0x11000 0x11FFF).clearRange 0x18000 0x1A03F
  { (b2.clearReg WIN.APERTURE_BASE) with armed := b2.armed.filter (fun e => decide (e.2 ≠ .host)), sent := [] }

/-- PCIE_PERST_N changes level (R505): low holds the link down and resets what a Function Level Reset does. -/
def Block.perst (b : Block) (level : Bool) : Block :=
  let rise := if level && !b.mode.perstN then b.time.elapsed else b.mode.perstSince
  let b1 := { b with mode := { b.mode with perstN := level, perstSince := rise } }
  if level then b1 else b1.flr

end Sys2Proof.Machine
end

