-- ==== Sys2Proof/Machine/BringUp.lean ====
section
/-! DEFINITION. The end of BRING-UP (R41, R340, R354). -/

namespace Sys2Proof.Machine

/-- BRING-UP ends (R41): the bridge has trained, at half width if it must; the march test has found faulty TCAM rows (R176); the
channels have trained, past step 1 in which their resets are released (R500), and logical channels are assigned (R340). -/
def Block.bringUpComplete (b : Block) (half : Bool) (faults : List (Nat × Nat)) (trained : List D5Train) : Block :=
  if b.mode.mode ≠ .bringUp || !b.d5Stepped then b
  else
    let b1 := (b.setFld BRG.STS BRG.STS_TRAINED 1).setFld BRG.STS BRG.STS_HALF (b2n half)
    let b2 := if half then (b1.withBridge { b1.fd.bridge with halfDue := false }).setReg SCH.PACE_STS 0xFF#32 else b1
    ((((b2.marchTest faults).d5Assign trained).wins 10).enterMode .quiescent 5).selfRestart

end Sys2Proof.Machine
end

