-- ==== Sys2Proof/Machine/Incoming.lean ====
section
/-! DEFINITION. What a command brings, brought to the bounds of its fields (Sys2Proof.WellFormed names the same bounds): a field keeps
as many bits as it has, a number of a place is taken modulo the places there are, and an entry of a list that names no place
is dropped. So every command has its effect, whatever its operands. -/

namespace Sys2Proof.Machine

/-- Differences of bytes that lie within `n` bytes. -/
def flipsNorm (n : Nat) (fl : List (Nat × Byte)) : List (Nat × Byte) := fl.filter (fun e => e.1 < n)

/-- Rows of the 40 banks (R149). -/
def rowsNorm (rs : List (Nat × Nat)) : List (Nat × Nat) := rs.filter (fun e => e.1 < 40 && e.2 < 8192)

/-- A stored cell has 32 bytes of header and 256 of payload (R314).
DESIGN CHOICE, unsafe: log entry 1. -/
def Seen.norm (s : Seen) : Seen := { s with flips := flipsNorm 288 s.flips }

def TcSeen.norm (s : TcSeen) : TcSeen := { flipped := rowsNorm s.flipped, copyErr := rowsNorm s.copyErr }

/-- Words are those of the 256 SRAM banks (R118). -/
def AccSeen.norm (s : AccSeen) : AccSeen := { sram := s.sram.filter (fun a => a < 24576 * 256), tcam := s.tcam.norm }

def AdmitSeen.norm (s : AdmitSeen) : AdmitSeen := { s with tcam := s.tcam.norm }

/-- Words of a block (R144). -/
def upsetsNorm (us : Upsets) : Upsets := us.filter (fun e => e.1 < 256)

/-- Rows of the 40 banks and their spares (R176). -/
def faultsNorm (fs : List (Nat × Nat)) : List (Nat × Nat) := fs.filter (fun e => e.1 < 40 && e.2 < 8256)

/-- Rows of the 40 banks that a scrub pass finds (R172). -/
def foundNorm (fs : List (Nat × Nat × ScrubSeen)) : List (Nat × Nat × ScrubSeen) :=
  fs.filter (fun e => e.1 < 40 && e.2.1 < 8192)

/-- Link errors of the 17 channels (R336). -/
def linkErrsNorm (es : List LinkErr) : List LinkErr := es.filter (fun e => e.chan < 17)

/-- A lane of the 96, CREDIT_RET of 8 bits, at most 16 messages in a cell (R248, R250, R252). -/
def CellRx.norm (r : CellRx) : CellRx := { r with lane := r.lane % 96, ret := r.ret % 256, badMsgs := min 16 r.badMsgs }

/-- The fields of a HELLO have one byte or two (R257). -/
def Hello.norm (h : Hello) : Hello :=
  { h with version := h.version % 256, role := h.role % 256, id := h.id % 65536, plane := h.plane % 256, port := h.port % 256
           mask := h.mask % 256, credits := h.credits % 65536 }

/-- The fields of a DATA cell (R248 to R250). -/
def FCell.norm (c : FCell) : FCell :=
  { c with dest := c.dest % 2048, src := c.src % 2048, engine := c.engine % 8, seq := c.seq % 65536, metaW := c.metaW % 2 ^ 64
           pktLen := c.pktLen % 32768, port := c.port % 256, cls := c.cls % 8, pay := c.pay.take 256 }

/-- The objects of the line that exist (R276, R281, R291, R297). -/
def LineObj.norm : LineObj → LineObj
  | .lane n l => .lane (n % 8) (l % 8)
  | .mac k => .mac (k % 128)
  | .phy g i => .phy (g % 8) (i % 8)
  | .group g => .group (g % 8)
  | .client g c => .client (g % 8) (c % 64)
  | .otn c => .otn (c % 64)
  | .trib c => .trib (c % 64)

/-- The fields of FlexE overhead (R292). -/
def FlexeOh.norm (o : FlexeOh) : FlexeOh :=
  { o with groupNum := o.groupNum % 2 ^ 20, phyNum := o.phyNum % 256, phyMap := o.phyMap.filter (fun n => n < 256)
           ids := (o.ids.filter (fun e => e.1 < 640)).map (fun e => (e.1, e.2 % 65536)) }

/-- The fields of a tributary's overhead. -/
def TribOh.norm (o : TribOh) : TribOh :=
  { o with stat := o.stat % 8, rxBip := o.rxBip % 256, calcBip := o.calcBip % 256, bei := o.bei % 16 }

/-- The fields of OTN overhead (R298 to R302). -/
def OtnOh.norm (o : OtnOh) : OtnOh :=
  { o with smRx := o.smRx % 256, smCalc := o.smCalc % 256, smBei := o.smBei % 16, pmRx := o.pmRx % 256, pmCalc := o.pmCalc % 256
           pmBei := o.pmBei % 16, stat := o.stat % 8, pt := o.pt.map (· % 256), trib := o.trib.map TribOh.norm }

/-- A frame period of one of at most 20 streams (R298). -/
def OtnFrame.norm (f : OtnFrame) : OtnFrame :=
  { f with stream := f.stream % 20, mfas := f.mfas % 256, marker := f.marker % 20, oh := f.oh.map OtnOh.norm }

/-- CMIS revision and applications of a module (R307). -/
def CagePoll.norm (q : CagePoll) : CagePoll := { q with rev := q.rev % 256, apps := q.apps.take 15 }

end Sys2Proof.Machine
end

