-- ==== Sys2Proof/Machine/CushionRx.lean ====
section
/-! DEFINITION. Messages as they arrive on the cascade links (R383 to R390). -/

namespace Sys2Proof.Machine

/-- A HELLO is delivered: the link is seen, and a master is followed by a joined device that has none (R383, R385, R386). -/
def Block.onHello (b : Block) (j : Nat) (eligible master paused : Bool) (seen : Nat) : Block :=
  let l := b.csc.link j
  let now := b.time.elapsed
  let b1 := b.setCLink j { l with farEligible := eligible, farMaster := master, farPaused := paused, farSeen := seen, heardAt := now
                                  masterAt := if master then now else l.masterAt
                                  pausedFrom := if master && paused then some (l.pausedFrom.getD now) else none }
  let b2 := (b1.setFld (CSC.LINK_STS j) CSC.LINK_STS_HELLO_SEEN 1).linkShow j
  let free := b2.csc.masterPos.isNone || b2.csc.masterPos = some j
  if master && b2.flag CSC.CTL CSC.CTL_JOIN && b2.mode.role ≠ roleMaster && free then (b2.setRole roleMember).masterSeen j paused
  else b2

/-- A message is delivered in its turn (R384). -/
def Block.deliver (b : Block) (j : Nat) (h : CHdr) (m : CMsg) : Block :=
  match m with
  | .hello e ma p s => b.onHello j e ma p s.toNat
  | .timeSync t => b.onTimeSync j t
  | .delayReq _ => b.onDelayReq j h.lseq
  | .delayResp t l => b.onDelayResp j t l
  | .prepare t ty op tag => b.onPrepare j t ty.toNat op.toNat tag.toNat
  | .accept tag => b.onAccept j tag.toNat
  | .refuse tag _ => b.onRefuse j tag.toNat
  | .confirm tag => b.onConfirm tag.toNat
  | .abandon tag => b.onAbandon tag.toNat
  | .learn s k v t a => b.onLearn j s.toNat t.toNat k.toNat v.toNat a
  | .bad _ => b.count CSC.BAD_MSG_LO 5

/-- Messages that wait and are now next in order are delivered (R384). -/
def Block.deliverEarly (b : Block) (j : Nat) : Nat → Block
  | 0 => b
  | n + 1 =>
    let l := b.csc.link j
    match l.early.find? (fun e => e.1 = l.nextIn) with
    | none => b
    | some e =>
      Block.deliverEarly ((b.setCLink j { l with nextIn := (l.nextIn + 1) % 65536
                                                 early := l.early.filter (fun x => x.1 ≠ e.1) }).deliver j e.2.1 e.2.2) j n

/-- A message arrives on a link (R384): its ACK releases what this end keeps, a duplicate is discarded, one ahead of its turn
waits, and the next in order is delivered with all that followed it. A HELLO on a link that is not UP sets the order anew.
DEDUCED, unsafe: log entry 133. -/
def Block.cscIn (b : Block) (link : Nat) (h : CHdr) (m : CMsg) : Block :=
  let j := link % 4
  if !b.cascadeOn || b.fld (CSC.LINK_STS j) CSC.LINK_STS_LANES_UP = 0 then b
  else
    let l0 := (b.csc.link j).acked h.ack.toNat
    let anew := !b.flag (CSC.LINK_STS j) CSC.LINK_STS_UP && (match m with | .hello .. => true | _ => false)
    let l := if anew then { l0 with nextIn := h.lseq.toNat, early := [] } else l0
    let ahead := (h.lseq.toNat + 65536 - l.nextIn) % 65536
    if ahead = 0 then
      let b1 := (b.setCLink j { l with nextIn := (l.nextIn + 1) % 65536 }).deliver j h m
      b1.deliverEarly j (l.early.length)
    else if ahead < 32768 && !(l.early.any (fun e => e.1 = h.lseq.toNat)) then
      b.setCLink j { l with early := l.early ++ [(h.lseq.toNat, h, m)] }
    else b.setCLink j l

/-- No HELLO for 1 ms takes a link out of UP (R383). -/
def Block.cscHelloLoss (b : Block) (link : Nat) : Block :=
  let j := link % 4
  if b.cascadeOn && (b.csc.link j).heardAt + 1000000 ≤ b.time.elapsed then b.linkDown j else b

/-- The effect of a write of `CSC.CTL` (R385). -/
def effCscCtl (_w : WriteOut) (old : Word) (b : Block) : Block :=
  let f (x : Word) : Nat := wf x CSC.CTL_JOIN * 8 + wf x CSC.CTL_ELIGIBLE * 4 + wf x CSC.CTL_POS
  if f old = f (b.reg CSC.CTL) then b else b.joinWrite

/-- `CSC.CTL` POS, ELIGIBLE and JOIN change only in QUIESCENT (R46, R385).
DEDUCED, unsafe: log entry 134. -/
def badCsc (b : Block) (a : Nat) (old v : Word) : List Nat :=
  if a = CSC.CTL && b.mode.mode ≠ .quiescent then
    badIf (wf old CSC.CTL_POS ≠ wf v CSC.CTL_POS) 0 ++ badIf (wf old CSC.CTL_ELIGIBLE ≠ wf v CSC.CTL_ELIGIBLE) 2
      ++ badIf (wf old CSC.CTL_JOIN ≠ wf v CSC.CTL_JOIN) 3
  else []

end Sys2Proof.Machine
end

