-- ==== Sys2Proof/Machine/Spaces.lean ====
section
/-! DEFINITION. The memory spaces that check engines and the shared window read (R327, R408, R448). -/

namespace Sys2Proof.Machine

/-- A log record as it stands in its 64 bytes (R473). -/
def LogRec.bytes (r : LogRec) : List Byte :=
  let body := leBytes 4 r.seq ++ leBytes 4 r.sec ++ leBytes 4 r.ns ++ leBytes 1 r.cls ++ leBytes 1 r.sub ++ leBytes 1 r.src ++ [0#8]
    ++ bytesAt r.data 0 44
  body ++ leBytes 4 (~~~(crc32cRaw 0xFFFFFFFF#32 body)).toNat

/-- The log record that stands in a place of the ring. -/
def Nv.logAt (n : Nv) (place : Nat) : Option LogRec := n.log.reverse.find? (fun r => r.seq % 32768 = place)

def MapRec.fields (r : MapRec) : List Nat := r.seq :: r.retired :: r.entries.map (fun e => e.getD 0x1F)
def SlotHdr.fields (h : SlotHdr) : List Nat := [h.state, b2n h.span, h.len, h.version, h.svn]
def BootRec.fields (r : BootRec) : List Nat :=
  [r.seq, r.layout, r.selected, b2n r.trial, r.trialCount, b2n r.rejected, b2n r.fallbackValid, r.settingsActive,
   b2n r.quarantine, r.minSvn]

/-- One byte of a settings copy: a header of 64 bytes, then the records (R463). -/
def settingsByte (s : Option Settings) (o : Nat) : Byte :=
  match s with
  | none => Config.nvRecord 2 [] o
  | some x => if o < 64 then Config.nvRecord 2 [x.format, x.seq, x.records.length] o else (x.records[o - 64]?).getD 0#8

/-- The fields of a record that may be absent. -/
def recFields {α : Type} (f : α → List Nat) (r : Option α) : List Nat :=
  match r with
  | some x => f x
  | none => []

/-- One byte of the NV die (R448). -/
def Nv.byte (n : Nv) (a : Nat) : Byte :=
  if a < 0x3100000 then Memory.read n.mem a
  else if a < 0x3500000 then settingsByte n.set0 (a - 0x3100000)
  else if a < 0x3900000 then settingsByte n.set1 (a - 0x3500000)
  else if a < 0x3B00000 then
    let p := (a - 0x3900000) / 64
    match n.logAt p with
    | some r => (r.bytes[a % 64]?).getD 0#8
    | none => Config.nvRecord 3 [] (a - 0x3900000)
  else if a < 0x3B01000 then Config.nvRecord 4 (recFields BootRec.fields n.boot0) (a % 4096)
  else if a < 0x3B02000 then Config.nvRecord 4 (recFields BootRec.fields n.boot1) (a % 4096)
  else if a < 0x3B03000 then Config.nvRecord 5 (recFields SlotHdr.fields n.hdrA) (a % 4096)
  else if a < 0x3B04000 then Config.nvRecord 5 (recFields SlotHdr.fields n.hdrB) (a % 4096)
  else if a < 0x3B05000 then Config.nvRecord 6 (recFields MapRec.fields n.map0) (a % 4096)
  else if a < 0x3B06000 then Config.nvRecord 6 (recFields MapRec.fields n.map1) (a % 4096)
  else if a < 0x3B07000 then
    let o := a - 0x3B06000
    if o < 8 then BitVec.ofNat 8 (n.uid / 2 ^ (8 * o))
    else if o < 14 then BitVec.ofNat 8 (n.mac / 2 ^ (8 * (o - 8)))
    else if 0x40 ≤ o && o < 0xA1 then Config.nvRecord 7 [] (o - 0x40)
    else Config.nvRecord 8 [] o
  else 0#8

/-- A cell as it stands in the sward or in a block: 32 header bytes and 256 payload bytes (R314, R327).
DESIGN CHOICE, unsafe: log entry 119. -/
def cellBytes (c : Cell) : List Byte := c.header ++ c.padded

/-- What follows a block in its middle: the next block, and the SOP and EOP marks of its cells (R196). -/
def Block.linkFields (b : Block) (n : Nat) : List Nat :=
  let next := (b.td.store.queues.flatMap (fun e => e.2.after n)).take 1
  let cells := (NMap.find? b.td.store.peat n).getD []
  next ++ cells.map (fun c => b2n c.sop + 2 * b2n c.eop)

/-- One byte of the DDR5 table region (R342): the link table's words stand above LINK_BASE. -/
def Block.d5Byte (b : Block) (a : Nat) : Byte :=
  if b.linkBase ≤ a && a < b.linkBase + 8 * b.peatBlocks then
    let n := (a - b.linkBase) / 8
    Config.linkByte n (b.linkFields n) ((a - b.linkBase) % 8)
  else Memory.read b.d5.mem a

/-- The stored copy of a row of a bank: 20 bytes of value, 20 of mask, zeros after; of a joined group, the first bank holds the
key's uppermost bits (R149, R150, R327). -/
def Block.tcamCopy (b : Block) (k r : Nat) : List Byte :=
  let at_ (w : Nat) : Option (Nat × TRow) :=
    let g := k - k % groupBanks w
    let x := b.trow g r
    if x.state ≠ 0 && x.width = w then some (k - g, x) else none
  match ((upTo 3).filterMap at_).head? with
  | none => List.replicate 64 0#8
  | some (n, x) =>
    let sh := 2 ^ (160 * (groupBanks x.width - 1 - n))
    leBytes 20 (x.value / sh) ++ leBytes 20 (x.mask / sh) ++ List.replicate 24 0#8

/-- Bytes of a space (R327, R408). -/
def Block.spaceSize (b : Block) (sp : Nat) : Nat :=
  match sp with
  | 0 => 32 * 24576 * 256
  | 1 => 288 * 655360
  | 2 => b.tableSize
  | 3 => 2 ^ 26
  | 4 => 64 * 8192 * 40
  | 5 => 2304 * b.peatBlocks
  | _ => 0

/-- The 32-byte word number `k` of a space. -/
def Block.spaceWord (b : Block) (sp k : Nat) : List Byte :=
  match sp with
  | 0 => leBytes 32 (b.wordAt k).toNat
  | 1 => bytesAt (match NMap.find? b.td.store.sward (k / 9) with
      | some c => cellBytes c
      | none => []) (32 * (k % 9)) 32
  | 2 => (upTo 32).map (fun i => b.d5Byte (32 * k + i))
  | 3 => (upTo 32).map (fun i => b.nv.byte (32 * k + i))
  | 4 => bytesAt (b.tcamCopy (k / 2 / 8192) (k / 2 % 8192)) (32 * (k % 2)) 32
  | 5 =>
    let n := k / 72
    if (b.d5Phys (n % 16)).isNone then List.replicate 32 0xFF#8
    else
      let cs := (NMap.find? b.td.store.peat n).getD []
      bytesAt (match cs[k % 72 / 9]? with
        | some c => cellBytes c
        | none => []) (32 * (k % 9)) 32
  | _ => []

end Sys2Proof.Machine
end

