-- ==== Sys2Proof/Machine/CheckEng.lean ====
section
/-! DEFINITION. The check engines (R326 to R333). -/

namespace Sys2Proof.Machine

/-- The initial value, the final XOR, and one step over bytes, of a polynomial code (R326). -/
def polyInit (p : Nat) : Nat := if p = 2 then 0 else 0xFFFFFFFF
def polyFinal (p : Nat) : Nat := if p = 2 then 0 else 0xFFFFFFFF
def polyRun (p reg : Nat) (bs : List Byte) : Nat :=
  match p with
  | 0 => (bs.foldl crc32Byte (BitVec.ofNat 32 reg)).toNat
  | 1 => (crc32cRaw (BitVec.ofNat 32 reg) bs).toNat
  | _ => (bs.foldl crc64Byte (BitVec.ofNat 64 reg)).toNat

/-- Replace the state of the check engines. -/
def Block.withChk (b : Block) (x : ChkSt) : Block := { b with chk := x }

/-- A 64-bit value in a `_LO`/`_HI` pair. -/
def Block.pair64 (b : Block) (lo : Nat) : Nat := (b.reg lo).toNat + (b.reg (lo + 4)).toNat * 2 ^ 32
def Block.setPair64 (b : Block) (lo v : Nat) : Block :=
  (b.setReg lo (BitVec.ofNat 32 v)).setReg (lo + 4) (BitVec.ofNat 32 (v / 2 ^ 32))

def Block.chkState (b : Block) (e : Nat) : Nat := b.fld (CHK.CTX_STS e) CHK.CTX_STS_STATE
def Block.chkTo (b : Block) (e st : Nat) : Block := b.setFld (CHK.CTX_STS e) CHK.CTX_STS_STATE st
def Block.chkPoly (b : Block) (e : Nat) : Nat := b.fld (CHK.CTX_CTL e) CHK.CTX_CTL_POLY
def Block.chkMode (b : Block) (e : Nat) : Nat := b.fld (CHK.CTX_CTL e) CHK.CTX_CTL_MODE
def Block.chkSpace (b : Block) (e : Nat) : Nat := b.fld (CHK.CTX_CTL e) CHK.CTX_CTL_SPACE

/-- A scrub's finding in a word (R330): a correction is counted and waits to be written back; the first uncorrectable word is
held and reported, and left as found. -/
def Block.scrubWord (b : Block) (e : Nat) (f : ScrubWord) : Block :=
  let a := b.pair64 (CHK.START_ADDR_LO e) + 32 * f.word
  if !f.uncorr then
    (b.satFld (CHK.CTX_STS e) CHK.CTX_STS_CORRECTED 1).withChk { b.chk with wb := b.chk.wb ++ [(b.chkSpace e, a)] }
  else if b.flag (CHK.CTX_STS e) CHK.CTX_STS_UNCORR then b
  else
    let b1 := (b.setFld (CHK.CTX_STS e) CHK.CTX_STS_UNCORR 1).setPair64 (CHK.FAIL_ADDR_LO e) a
    (b1.intRaw 7 2).event 7 8 4 ([BitVec.ofNat 8 e] ++ leBytes 8 a)

/-- The CRC register after `n` words of a space from word `k` on. -/
def Block.crcWords (b : Block) (p sp : Nat) : Nat → Nat → Nat → Nat
  | 0, _, reg => reg
  | n + 1, k, reg => Block.crcWords b p sp n (k + 1) (polyRun p reg (b.spaceWord sp k))

/-- The channels see a context read `m` words of a space from word `k` on (R347), and the words, counted from `at_`, that answer with an
error mark are found uncorrectable (R330). -/
def Block.chkSeen (b : Block) (sp k m at_ : Nat) : Block × List ScrubWord :=
  (upTo m).foldl (fun (x : Block × List ScrubWord) i =>
    let r := x.1.spaceSeen sp (k + i)
    (r.1, if r.2 then x.2 ++ [⟨at_ + i, true⟩] else x.2)) (b, [])

/-- A context reads the next `n` words of its range, or as many as are left (R328). -/
def Block.chkRead (b0 : Block) (e n : Nat) (found0 : List ScrubWord) : Block :=
  let done := b0.pair64 (CHK.DONE_LO e)
  let m := min n ((b0.pair64 (CHK.LENGTH_LO e) - done) / 32)
  let k := (b0.pair64 (CHK.START_ADDR_LO e) + done) / 32
  let seen := b0.chkSeen (b0.chkSpace e) k m (done / 32)
  let b := seen.1
  let found := found0 ++ seen.2
  let reg := b.crcWords (b.chkPoly e) (b.chkSpace e) m k (b.pair64 (CHK.RUNNING_LO e))
  let b1 := (b.setPair64 (CHK.RUNNING_LO e) reg).setPair64 (CHK.DONE_LO e) (done + 32 * m)
  if b.chkMode e = 2 then
    (found.filter (fun f => done / 32 ≤ f.word && f.word < done / 32 + m)).foldl (fun x f => x.scrubWord e f) b1
  else b1

/-- A START or RESUME is refused (R331). -/
def Block.chkRefuses (b : Block) (e : Nat) (reserved : Bool) : Bool :=
  let a := b.pair64 (CHK.START_ADDR_LO e)
  let n := b.pair64 (CHK.LENGTH_LO e)
  let sp := b.chkSpace e
  a % 32 ≠ 0 || n % 32 ≠ 0 || n = 0 || b.spaceSize sp < a + n || (b.chkMode e = 2 && (sp = 3 || sp = 4)) || reserved

/-- START (R328).
DEDUCED, unsafe: log entry 120. -/
def Block.chkStart (b : Block) (e : Nat) (reserved : Bool) : Block :=
  if b.chkRefuses e reserved then b.chkTo e 5
  else
    let b1 := b.setReg (CHK.CTX_STS e) 1#32
    (b1.setPair64 (CHK.RUNNING_LO e) (polyInit (b.chkPoly e))).setPair64 (CHK.DONE_LO e) 0

/-- A run stops before its end with a state, having read `n` words more; in FAULT-HOLD runs are frozen and read none (R328,
R333). -/
def Block.chkStop (b : Block) (e st n : Nat) (found : List ScrubWord) : Block :=
  if b.chkState e = 1 then ((if b.mode.mode = .faultHold then b else b.chkRead e n found)).chkTo e st
  else if st = 4 && b.chkState e = 2 then b.chkTo e 4 else b

/-- A write of `CHK.CTX_CTL`: START, RESUME, PAUSE, then ABORT (R328, R331). `n` and `found` are what the context reads until
it stops, where the write stops it. -/
def effChkCtl (e : Nat) (src : Source) (n : Nat) (found : List ScrubWord) (w : WriteOut) (_old : Word) (b : Block) : Block :=
  let on (f : Fld) : Bool := wf w.took f = 1
  let b0 := (((b.setFld (CHK.CTX_CTL e) CHK.CTX_CTL_START 0).setFld (CHK.CTX_CTL e) CHK.CTX_CTL_RESUME 0).setFld
    (CHK.CTX_CTL e) CHK.CTX_CTL_PAUSE 0).setFld (CHK.CTX_CTL e) CHK.CTX_CTL_ABORT 0
  let b1 :=
    if !on CHK.CTX_CTL_START then b0
    else if b0.chkState e = 1 then b0.captureBusy (CHK.CTX_CTL e) src 0
    else b0.chkStart e w.codeLsb.isSome
  let b2 :=
    if !on CHK.CTX_CTL_RESUME then b1
    else if b1.chkState e = 1 then (if on CHK.CTX_CTL_START then b1 else b1.captureBusy (CHK.CTX_CTL e) src 1)
    else if b1.chkRefuses e w.codeLsb.isSome then b1.chkTo e 5
    else b1.chkTo e 1
  let b3 := if on CHK.CTX_CTL_PAUSE then b2.chkStop e 2 n found else b2
  if on CHK.CTX_CTL_ABORT then b3.chkStop e 4 n found else b3

/-- A run ends: LAST is formed, and in COMPARE mode compared with EXPECT, whose parity may fail (R328, R329). -/
def Block.chkEnd (b : Block) (e : Nat) (found : List ScrubWord) (expBad : Bool) : Block :=
  if b.chkState e ≠ 1 || b.mode.mode = .faultHold then b
  else
    let b1 := b.chkRead e (b.pair64 (CHK.LENGTH_LO e) / 32) found
    let last := b1.pair64 (CHK.RUNNING_LO e) ^^^ polyFinal (b1.chkPoly e)
    let b2 := (b1.setPair64 (CHK.LAST_LO e) last).chkTo e 3
    let out := if b2.chkMode e ≠ 1 then 0 else if expBad then 3 else if last = b2.pair64 (CHK.EXPECT_LO e) then 1 else 2
    let b3 := (b2.setFld (CHK.CTX_STS e) CHK.CTX_STS_OUTCOME out).setFld (CHK.CTX_STS e) CHK.CTX_STS_EXPECT_PAR (b2n (out = 3))
    let b4 := if out ≠ 0 && b3.flag (CHK.CTX_CTL e) CHK.CTX_CTL_REBASE then b3.setPair64 (CHK.EXPECT_LO e) last else b3
    let b5 := b4.withChk { b4.chk with ended := NMap.set 0 b4.chk.ended e b4.time.fired }
    ((b5.intRaw 7 0).intRawIf (2 ≤ out) 7 1).event 7 8 3 [BitVec.ofNat 8 e, BitVec.ofNat 8 out]

/-- A finished run starts again PERIOD_TICKS after it ended (R329). -/
def Block.chkPeriod (b : Block) (e : Nat) : Block :=
  let p := b.fld (CHK.CTX_CTL e) CHK.CTX_CTL_PERIOD_TICKS
  if b.chkState e = 3 && p ≠ 0 && NMap.get 0 b.chk.ended e + p ≤ b.time.fired && b.mode.mode ≠ .faultHold then b.chkStart e false
  else b

/-- The oldest corrected word is written back, or given up because a newer write reached it (R330): reads see the corrected value
either way, so only the wait ends. -/
def Block.scrubWriteback (b : Block) : Block :=
  if b.mode.mode = .faultHold then b else b.withChk { b.chk with wb := b.chk.wb.drop 1 }

/-- A write of EXPECT while the context runs or is paused is discarded and captured (R329). -/
def effChkExpect (e a : Nat) (src : Source) (_w : WriteOut) (old : Word) (b : Block) : Block :=
  if b.chkState e = 1 || b.chkState e = 2 then (b.setReg a old).captureBusy a src 0 else b

/-- A write of RUNNING or DONE is discarded unless the context is idle, paused or done. -/
def effChkRunning (e a : Nat) (_w : WriteOut) (old : Word) (b : Block) : Block :=
  if b.chkState e = 0 || b.chkState e = 2 || b.chkState e = 3 then b else b.setReg a old

/-- A page soft reset of CHK: runs end aborted, RUNNING and DONE kept, and the counters clear (R333). -/
def Block.chkPageReset (b : Block) : Block :=
  let b1 := (upTo 16).foldl (fun x e => if x.chkState e = 1 || x.chkState e = 2 then x.chkTo e 4 else x) b
  b1.clearRange 0x70800 0x7FFFF

end Sys2Proof.Machine
end

