-- ==== Sys2Proof/Machine/Counters.lean ====
section
/-! DEFINITION. The statistics counters: pairs, the delta cache, write-backs (R421 to R431), snapshots and their export (R432 to
R436). -/

namespace Sys2Proof.Machine

/-- Replace the counters' state. -/
def Block.withCnt (b : Block) (c : CntSt) : Block := { b with cnt := c }

/-- The banks whose three segments are all COUNTER, ascending (R423). -/
def Block.cntBanks (b : Block) : List Nat :=
  (upTo 64).flatMap (fun q =>
    if (upTo 3).all (fun s => b.unitClass (LKP.PART_ACTIVE_0 0) (3 * q + s) = 3) then (upTo 4).map (4 * q + ·) else [])

/-- The cache has no whole quad of COUNTER units (R423). -/
def Block.noCache (b : Block) : Bool := b.cntBanks.length < 4

/-- The word of the table SRAM that holds set `s` (R424). -/
def setAddr (banks : List Nat) (s : Nat) : Nat := banks.getD (s % banks.length) 0 * 24576 + s / banks.length

/-- An entry of the cache (R424), its VICTIM bits apart. -/
structure CEnt where
  valid : Bool
  tag : Nat
  pkts : Nat
  bytes : Nat
  win : Bool
deriving DecidableEq, Repr

/-- Entry `e` of a set's word. -/
def centAt (w : TWord) (e : Nat) : CEnt :=
  let v := w.toNat >>> (64 * e)
  ⟨bitAt v 0, v / 2 % 2 ^ 8, v / 2 ^ 9 % 2 ^ 24, v / 2 ^ 33 % 2 ^ 24, bitAt v 57⟩

/-- A set's word with entry `e` replaced, its VICTIM bits kept. -/
def centPut (w : TWord) (e : Nat) (x : CEnt) : TWord :=
  let v := b2n x.valid + x.tag % 2 ^ 8 * 2 + x.pkts % 2 ^ 24 * 2 ^ 9 + x.bytes % 2 ^ 24 * 2 ^ 33 + b2n x.win * 2 ^ 57
  let m : TWord := BitVec.ofNat 256 ((2 ^ 58 - 1) <<< (64 * e))
  (w &&& ~~~m) ||| BitVec.ofNat 256 (v <<< (64 * e))

/-- VICTIM (R424). -/
def victim (w : TWord) : Nat := w.toNat / 2 ^ 58 % 4

/-- VICTIM advances by 1 (R425). -/
def nextVictim (w : TWord) : TWord :=
  let m : TWord := BitVec.ofNat 256 (3 <<< 58)
  (w &&& ~~~m) ||| BitVec.ofNat 256 ((victim w + 1) % 4 <<< 58)

/-- An entry that holds nothing. -/
def CEnt.none : CEnt := ⟨false, 0, 0, 0, false⟩

/-- An entry that holds deltas. -/
def CEnt.dirty (x : CEnt) : Bool := x.valid && (x.pkts ≠ 0 || x.bytes ≠ 0)

/-- The write-back queue is full, or more than half full (R426, R427). -/
def Block.wbFull (b : Block) : Bool := 65536 ≤ b.cnt.queue.length
def Block.wbHalf (b : Block) : Bool := 32768 < b.cnt.queue.length

/-- A pair lies in the range of the last snapshot (R432). -/
def Block.inSnap (b : Block) (n : Nat) : Bool := b.cnt.first ≤ n && n < b.cnt.first + b.cnt.count

/-- An entry's deltas enter the write-back queue, marked if they precede the snapshot (R425, R432). -/
def Block.wbPush (b : Block) (n : Nat) (x : CEnt) : Block :=
  b.withCnt { b.cnt with queue := b.cnt.queue ++ [⟨n, x.pkts, x.bytes, b.inSnap n && x.win ≠ b.cnt.window⟩] }

/-- An update is lost: counted, and reported at most once in a tick (R427). -/
def Block.cntLost (b : Block) (n : Nat) : Block :=
  let b1 := ((b.count CNT.C_LOST_UPDATES_LO 0).setFld CNT.STS CNT.STS_LOST 1).intRaw 0x85 1
  (b1.pmc 0x0F 0 1).eventOnce 0x850F03 0x85 0x0F 3 (leBytes 4 n)

/-- The place of an update in its set: the matching entry, a free one, or the victim (R425). -/
def cntPlace (w : TWord) (tag : Nat) : Nat :=
  match (upTo 4).find? (fun e => (centAt w e).valid && (centAt w e).tag = tag) with
  | some e => e
  | none =>
    match (upTo 4).find? (fun e => !(centAt w e).valid) with
    | some e => e
    | none => victim w

/-- An update of pair `n` by one packet of `bytes` bytes, in the cache (R425, R432). Deltas of an older window, of an evicted
entry, or of an entry that would carry past its width go to the write-back queue; without room there the update is lost. -/
def Block.cntCached (b : Block) (n bytes : Nat) : Block :=
  let bs := b.cntBanks
  let s := n % (24576 * bs.length)
  let tag := n / (24576 * bs.length)
  let a := setAddr bs s
  let w := b.sram a
  let e := cntPlace w tag
  let x := centAt w e
  let hit := x.valid && x.tag = tag
  let win := if b.inSnap n then b.cnt.window else x.win
  let put (y : Block) (w' : TWord) (z : CEnt) : Block := y.setSram a (centPut w' e z)
  if x.valid && !hit then
    if b.wbFull then b.cntLost n
    else put ((b.wbPush (x.tag * (24576 * bs.length) + s) x).count CNT.C_EVICTIONS_LO 0) (nextVictim w) ⟨true, tag, 1, bytes, win⟩
  else if hit && x.dirty && win ≠ x.win then
    if b.wbFull then b.cntLost n else put (b.wbPush n x) w ⟨true, tag, 1, bytes, win⟩
  else
    let y : CEnt := ⟨true, tag, (if hit then x.pkts else 0) + 1, (if hit then x.bytes else 0) + bytes, win⟩
    if y.pkts < 2 ^ 24 && y.bytes < 2 ^ 24 then put b w y
    else if b.wbFull then b.cntLost n
    else put ((b.wbPush n y).count CNT.C_FORCED_WB_LO 0) w ⟨true, tag, 0, 0, win⟩

/-- FD core cycles since power-on. -/
def Block.fdCycle (b : Block) : Nat := 135 * b.time.elapsed / 100

/-- An update of pair `n` enters the intake of its bank, which takes up to 4 in each FD core cycle; one that finds 1,024 waiting is
lost (R428). -/
def Block.cntIntake (b : Block) (n bytes : Nat) : Block :=
  let k := b.cntBanks.getD (n % b.cntBanks.length) 0
  let x := NMap.get (0, 0) b.cnt.intake k
  let level := x.1 - 4 * (b.fdCycle - x.2)
  if 1024 ≤ level then b.cntLost n
  else (b.withCnt { b.cnt with intake := NMap.set (0, 0) b.cnt.intake k (level + 1, b.fdCycle) }).cntCached n bytes

/-- A counter update of a pass (R422, R423, R429).
DEDUCED, unsafe: log entry 115. -/
def Block.cntUpdate (b : Block) (n bytes : Nat) : Block :=
  if b.mode.mode = .faultHold || !b.flag CNT.CTL CNT.CTL_ENABLE then b
  else if b.fld CNT.COUNT CNT.COUNT_COUNT ≤ n then b.count CNT.C_BAD_INDEX_LO 0
  else if b.noCache then b.count CNT.C_LOST_UPDATES_LO 0
  else b.cntIntake n (bytes % 65536)

/-- The entries of a set that hold deltas go to the queue while it has room, and are invalidated with those that hold
none (R426). -/
def Block.flushSet (b : Block) (bs : List Nat) (s : Nat) : Block :=
  let a := setAddr bs s
  if b.sram a = 0 then b
  else
    (upTo 4).foldl (fun y e =>
      let w := y.sram a
      let x := centAt w e
      if !x.dirty then y
      else if y.wbFull then y
      else (y.wbPush (x.tag * (24576 * bs.length) + s) x).setSram a (centPut w e CEnt.none)) b

/-- The sets that hold anything, ascending. -/
def Block.cntSets (b : Block) : List Nat :=
  let bs := b.cntBanks
  let held := b.tbl.sram.filterMap (fun e =>
    (bs.findIdx? (fun k => k = e.1 / 24576)).map (fun i => e.1 % 24576 * bs.length + i))
  held.mergeSort

/-- A stopped engine writes back what its queue has room for; RUNNING clears once nothing is left (R429). -/
def Block.cntDrain (b : Block) : Block :=
  if b.flag CNT.CTL CNT.CTL_ENABLE || b.mode.mode = .faultHold then b
  else
    let bs := b.cntBanks
    let b1 := b.cntSets.foldl (fun y s => y.flushSet bs s) b
    let dirty := b1.cntSets.any (fun s => (upTo 4).any (fun e => (centAt (b1.sram (setAddr bs s)) e).dirty))
    if b1.cnt.queue.isEmpty && !dirty then b1.setFld CNT.STS CNT.STS_RUNNING 0 else b1

/-- The sweeper walks its next `n` sets, at most once round, skipping those it meets while the queue is more than half full (R426). -/
def Block.cntSweep (b : Block) (n : Nat) : Block :=
  if b.mode.mode = .faultHold || b.noCache then b
  else
    let bs := b.cntBanks
    let size := 24576 * bs.length
    let from_ := b.cnt.sweep % size
    let ahead (s : Nat) : Nat := (s + size - from_) % size
    let sets := (b.cntSets.filter (fun s => ahead s < n)).mergeSort (fun s t => decide (ahead s ≤ ahead t))
    let b1 := sets.foldl (fun y s => if y.wbHalf then y else y.flushSet bs s) b
    b1.withCnt { b1.cnt with sweep := (from_ + n) % size, swept := b1.cnt.swept + n }

/-- A tick: the sweeper walks what is left of the sets that it owes for it, so that it comes round once in WB_TICKS ticks (R426).
DEDUCED, unsafe: log entry 215. -/
def Block.cntTick (b : Block) : Block :=
  if b.cnt.swept = 0 && !b.flag CNT.STS CNT.STS_RUNNING then b
  else
    let owes := ceilDiv (24576 * b.cntBanks.length) (max 1 (b.fld CNT.WB_CFG CNT.WB_CFG_WB_TICKS))
    let b1 := b.cntSweep (owes - b.cnt.swept)
    b1.withCnt { b1.cnt with swept := 0 }

/-- The DDR5 address of a pair (R421). -/
def Block.pairAddr (b : Block) (n : Nat) : Nat :=
  b.fld CNT.AREA_BASE_HI CNT.AREA_BASE_HI_ADDR * 2 ^ 32 + (b.reg CNT.AREA_BASE_LO).toNat + 16 * n

/-- BYTES, PACKETS and FLAGS of a pair's 16 bytes (R421). -/
def pairOf (bs : List Byte) : Nat × Nat × Nat := (leAt bs 0 8, leAt bs 8 6, leAt bs 14 1)

/-- The 16 bytes of a pair (R421). -/
def pairBytes (p : Nat × Nat × Nat) : List Byte := leBytes 8 p.1 ++ leBytes 6 p.2.1 ++ leBytes 1 p.2.2 ++ [0#8]

/-- Add deltas to a pair; a count that wraps sets its flag (R421, R443). -/
def pairAdd (p : Nat × Nat × Nat) (pkts bytes : Nat) : Nat × Nat × Nat :=
  let y := p.1 + bytes
  let k := p.2.1 + pkts
  let f1 := if 2 ^ 64 ≤ y then bitOn p.2.2 0 else p.2.2
  (y % 2 ^ 64, k % 2 ^ 48, if 2 ^ 48 ≤ k then bitOn f1 1 else f1)

/-- The oldest record of the write-back queue is added to its pair in DDR5, once BUDGET has room for it (R427). -/
def Block.writeBack (b : Block) : Block :=
  if b.mode.mode = .faultHold || b.time.elapsed < b.cnt.wbFrom then b
  else match b.cnt.queue with
    | [] => b
    | r :: rest =>
      let a := b.pairAddr r.pair
      let t := b.d5Take a 16
      let p := pairOf t.2
      let p' := pairAdd p r.pkts r.bytes
      let gap := ceilDiv 1000 (max 1 (b.fld CNT.WB_CFG CNT.WB_CFG_BUDGET))
      let b1 := ((t.1.withCnt { t.1.cnt with queue := rest, wbFrom := b.time.elapsed + gap }).d5Write a (pairBytes p')).count
        CNT.C_WRITEBACKS_LO 0
      let wraps := 2 ^ 64 ≤ p.1 + r.bytes || 2 ^ 48 ≤ p.2.1 + r.pkts
      (if wraps then (b1.intRaw 0x85 0).event 0x85 0x0F 1 (leBytes 4 r.pair ++ leBytes 1 p'.2.2) else b1).cntDrain

/-- A write of `CNT.CTL`: ENABLE starts the engine, or stops it (R429). -/
def effCntCtl (_w : WriteOut) (_old : Word) (b : Block) : Block :=
  if b.flag CNT.CTL CNT.CTL_ENABLE then b.setFld CNT.STS CNT.STS_RUNNING 1 else b.cntDrain

/-- The cached delta of a pair: packets and bytes (R430). -/
def Block.cntCache (b : Block) (n : Nat) : Nat × Nat :=
  let bs := b.cntBanks
  if b.noCache then (0, 0)
  else
    let w := b.sram (setAddr bs (n % (24576 * bs.length)))
    match (upTo 4).find? (fun e => (centAt w e).valid && (centAt w e).tag = n / (24576 * bs.length)) with
    | some e => ((centAt w e).pkts, (centAt w e).bytes)
    | none => (0, 0)

/-- A pair's value at one cycle: the bytes of the pair in DDR5, its queued records and its cached delta (R430).
DEDUCED, unsafe: log entry 116. -/
def Block.pairNow (b : Block) (n : Nat) (bs : List Byte) : Nat × Nat × Nat :=
  let p := pairOf bs
  let c := b.cntCache n
  let q := (b.cnt.queue.filter (fun r => r.pair = n)).foldl (fun (s : Nat × Nat) r => (s.1 + r.pkts, s.2 + r.bytes)) (0, 0)
  ((p.1 + q.2 + c.2) % 2 ^ 64, (p.2.1 + q.1 + c.1) % 2 ^ 48, p.2.2)

/-- READ (R430). The value of a pair at or beyond COUNT is open. -/
def Block.cntRead (b : Block) (n : Nat) : Block :=
  let put (y : Block) (l h k m : Word) : Block :=
    (((y.setReg CNT.RD_BYTES_LO l).setReg CNT.RD_BYTES_HI h).setReg CNT.RD_PKTS_LO k).setReg CNT.RD_PKTS_HI m
  if n < b.fld CNT.COUNT CNT.COUNT_COUNT then
    let t := b.d5Take (b.pairAddr n) 16
    let p := b.pairNow n t.2
    put t.1 (BitVec.ofNat 32 p.1) (BitVec.ofNat 32 (p.1 / 2 ^ 32)) (BitVec.ofNat 32 p.2.1)
      (BitVec.ofNat 32 (p.2.1 / 2 ^ 32 + p.2.2 % 4 * 2 ^ 24))
  else
    put b.drawn.drawn.drawn.drawn (Config.freeValue b.draws) (Config.freeValue (b.draws + 1)) (Config.freeValue (b.draws + 2))
      (Config.freeValue (b.draws + 3))

/-- CLEAR (R431). -/
def Block.cntClear (b : Block) (n : Nat) : Block :=
  if b.fld CNT.COUNT CNT.COUNT_COUNT ≤ n then b
  else
    let b1 := (b.d5Write (b.pairAddr n) (List.replicate 16 0#8)).withCnt
      { b.cnt with queue := b.cnt.queue.filter (fun r => r.pair ≠ n) }
    let bs := b.cntBanks
    let b2 :=
      if b.noCache then b1
      else
        let a := setAddr bs (n % (24576 * bs.length))
        let w := b1.sram a
        match (upTo 4).find? (fun e => (centAt w e).valid && (centAt w e).tag = n / (24576 * bs.length)) with
        | some e => b1.setSram a (centPut w e { centAt w e with pkts := 0, bytes := 0 })
        | none => b1
    b2.cntDrain

/-- CLEAR_WRAP (R431). -/
def Block.cntClearWrap (b : Block) (n : Nat) : Block :=
  if b.fld CNT.COUNT CNT.COUNT_COUNT ≤ n then b
  else
    let t := b.d5Take (b.pairAddr n) 16
    let p := pairOf t.2
    t.1.d5Write (b.pairAddr n) (pairBytes (p.1, p.2.1, p.2.2 / 4 * 4))

/-- A command of OP_CMD has not completed (R430). -/
def Block.cntBusy (b : Block) : Bool := b.time.elapsed < b.cnt.opUntil

/-- How long a command of OP_CMD takes: up to 5 µs, a free value (R430). -/
def Block.opTime (b : Block) : Nat := (Config.freeValue b.draws).toNat % 5001

/-- A write of `CNT.OP_CMD`: READ, then CLEAR, then CLEAR_WRAP (R430, R431); a command while one is busy is captured. In FAULT-HOLD
values stay readable and nothing is changed (R444). -/
def effCntOp (src : Source) (w : WriteOut) (_old : Word) (b : Block) : Block :=
  let b0 := b.setReg CNT.OP_CMD 0#32
  let n := b.fld CNT.OP_INDEX CNT.OP_INDEX_INDEX
  if w.took = 0#32 then b0
  else if b.cntBusy then b0.captureBusy CNT.OP_CMD src 0
  else
    let b1 := if wf w.took CNT.OP_CMD_READ = 1 then b0.cntRead n else b0
    let b2 := if wf w.took CNT.OP_CMD_CLEAR = 1 && b.mode.mode ≠ .faultHold then b1.cntClear n else b1
    let b3 := if wf w.took CNT.OP_CMD_CLEAR_WRAP = 1 && b.mode.mode ≠ .faultHold then b2.cntClearWrap n else b2
    ((b3.setFld CNT.OP_STS CNT.OP_STS_STATE 2).withCnt { b3.cnt with opUntil := b.time.elapsed + b.opTime }).drawn

/-- The pairs of a range that can differ from zero: those with bytes in DDR5, records in the queue, or a cache entry. -/
def Block.livePairs (b : Block) (first count : Nat) : List Nat :=
  let base := b.pairAddr 0
  let bs := b.cntBanks
  let mem : List (Nat × Byte) := b.d5.mem
  let inMem := mem.filterMap (fun e => if base ≤ e.1 then some ((e.1 - base) / 16) else none)
  let inQueue := b.cnt.queue.map (fun r => r.pair)
  let inCache := b.cntSets.flatMap (fun s => (upTo 4).filterMap (fun e =>
    let x := centAt (b.sram (setAddr bs s)) e
    if x.valid then some (x.tag * (24576 * bs.length) + s) else none))
  (((inMem ++ inQueue ++ inCache).filter (fun n => first ≤ n && n < first + count)).mergeSort).eraseDups

/-- A snapshot starts at its instant T (R432 to R435): result 0, or 1 if another builds or exports.
DEDUCED, unsafe: log entry 117. -/
def Block.snapshot (b : Block) (id : Nat) : Block × Nat :=
  let st := b.fld CNT.SNAP_STS CNT.SNAP_STS_STATE
  if st = 1 || st = 2 then
    (((b.count CNT.C_SNAP_BUSY_LO 0).intRaw 0x85 4).event 0x85 0x0F 5 (leBytes 2 id), 1)
  else
    let first := b.fld CNT.SNAP_FIRST CNT.SNAP_FIRST_FIRST
    let count := b.fld CNT.SNAP_COUNT CNT.SNAP_COUNT_COUNT
    let sn : Snap := { base := b.fld CNT.SNAP_BASE_HI CNT.SNAP_BASE_HI_ADDR * 2 ^ 32 + (b.reg CNT.SNAP_BASE_LO).toNat
                       first := first, count := count
                       pairs := (b.livePairs first count).map (fun n => (n, pairBytes (b.pairNow n (b.d5Read (b.pairAddr n) 16)))) }
    let b1 := b.withCnt { b.cnt with window := !b.cnt.window, first := first, count := count, snap := sn }
    let b2 := b1.setReg CNT.SNAP_STS (BitVec.ofNat 32 (1 + id % 2 ^ 16 * 2 ^ 16))
    (((b2.setReg CNT.SNAP_T_NS (BitVec.ofNat 32 b.nowNs)).setReg CNT.SNAP_T_SEC (BitVec.ofNat 32 b.nowSec)).pmcSnap, 0)

/-- A COUNTER_SNAPSHOT entry comes due (R377, R432). -/
def Block.counterSnapshot (b : Block) : Block := b.ancExec 4 (fun e x => x.snapshot (e.operand % 2 ^ 16))

/-- The tick boundary after `SNAP_CTL.NOW` (R432). -/
def Block.snapTick (b : Block) : Block :=
  if b.flag CNT.SNAP_CTL CNT.SNAP_CTL_NOW && b.mode.mode ≠ .faultHold then
    ((b.setFld CNT.SNAP_CTL CNT.SNAP_CTL_NOW 0).snapshot (b.fld CNT.SNAP_CTL CNT.SNAP_CTL_NOW_ID)).1
  else b


/-- The build ends: the area holds the records, and export begins if it is on (R433). -/
def Block.snapBuilt (b : Block) : Block :=
  if b.fld CNT.SNAP_STS CNT.SNAP_STS_STATE ≠ 1 || b.mode.mode = .faultHold then b
  else
    let s := b.cnt.snap
    let b0 := if s.count = 0 then b else (b.d5Seen (b.pairAddr s.first) (16 * s.count)).1
    let b1 := b0.d5Zero s.base (16 * s.count)
    let b2 := s.pairs.foldl (fun y p => y.d5Write (s.base + 16 * (p.1 - s.first)) p.2) b1
    let export_ := b.flag CNT.SNAP_CTL CNT.SNAP_CTL_EXPORT
    let b3 := (b2.setFld CNT.SNAP_STS CNT.SNAP_STS_STATE (if export_ then 2 else 3)).setFld CNT.SNAP_STS CNT.SNAP_STS_PERCENT 100
    (b3.intRaw 0x85 2).event 0x85 0x0F 4 (leBytes 2 (b.fld CNT.SNAP_STS CNT.SNAP_STS_ID) ++ leBytes 4 s.count)

/-- The descriptor of an export (R411, R436). -/
def exportDesc (d : List Byte) (id first records : Nat) (last : Bool) : List Byte :=
  bytesAt d 0 8 ++ leBytes 4 (16 * records) ++ [5#8, 3#8, 0#8, 0#8]
    ++ leBytes 2 id ++ leBytes 2 (b2n last) ++ leBytes 4 first ++ leBytes 4 records ++ leBytes 4 0

/-- Records of the snapshot are written into the next descriptor of the counter-export ring, if it holds one (R436). -/
def Block.counterExport (b : Block) : Block :=
  if b.fld CNT.SNAP_STS CNT.SNAP_STS_STATE ≠ 2 || b.mode.mode = .faultHold then b
  else if b.ringRuns 66 && 0 < b.ringFree 66 && ringAlive b.mode.mode 66 then
    match b.fetchHead 66 with
    | .err c => b.ringErr 66 c
    | .ok d =>
      let a := b.descAddr 66 (b.fld (PCI.RING_HEAD 66) PCI.RING_HEAD_HEAD)
      let len := leAt d 8 3
      let s := b.cnt.snap
      let id := b.fld CNT.SNAP_STS CNT.SNAP_STS_ID
      if len % 16 ≠ 0 then ((b.dmaWrite a (descReturned d (some 0) 2)).takeHead 66).returned 66
      else
        let n := min (len / 16) (s.count - s.next)
        let last := decide (s.next + n = s.count)
        if 0 < n && b.host.fails (leAt d 0 8) (16 * n) then b.ringErr 66 3
        else
          let t := if n = 0 then (b, []) else b.d5Take (s.base + 16 * s.next) (16 * n)
          let b1 := ((((t.1.dmaWrite (leAt d 0 8) t.2).dmaWrite a (exportDesc d id (s.first + s.next) n last)).takeHead 66).returned 66)
          let b2 := b1.withCnt { b1.cnt with snap := { s with next := s.next + n } }
          if last then ((b2.setFld CNT.SNAP_STS CNT.SNAP_STS_STATE 3).intRaw 0x85 3).event 0x85 0x0F 6 (leBytes 2 id) else b2
  else b

/-- A page soft reset of CNT: cached deltas and queued records are discarded, and a snapshot in progress ends (R444). -/
def Block.cntPageReset (b : Block) : Block :=
  let bs := b.cntBanks
  let b1 := b.cntSets.foldl (fun y s => y.setSram (setAddr bs s) 0) b
  let st := b.fld CNT.SNAP_STS CNT.SNAP_STS_STATE
  let b2 := b1.withCnt { b1.cnt with queue := [], intake := [], snap := {}, sweep := 0, swept := 0 }
  (if st = 1 || st = 2 then b2.setFld CNT.SNAP_STS CNT.SNAP_STS_STATE 0 else b2).cntDrain

end Sys2Proof.Machine
end

