-- ==== Sys2Proof/Machine/HostRings.lean ====
section
/-! DEFINITION. The host's side: posts and enables of rings (R412 to R414), inject rings (R418), the shared window (R408,
R409), vector acknowledgement (R406), and a TD access that is not answered (R402). -/

namespace Sys2Proof.Machine

/-- A vector is acknowledged: it is armed again, and the requests of its rings that a message has told of end; one raised since
then stays, so that it is not lost (R406, R414). -/
def effVecAck (w : WriteOut) (_old : Word) (b : Block) : Block :=
  let v := fldGet PCI.VEC_ACK_VECTOR w.took
  let clear (b : Block) (r : Nat) : Block :=
    let x := b.ring r
    if x.request && x.told && b.fld (PCI.RING_CFG r) PCI.RING_CFG_VECTOR = v then
      b.setRing r { x with request := false, told := false }
    else b
  { (upTo 69).foldl clear b with sent := b.sent.filter (fun x => x ≠ v) }

/-- The descriptors that the host may post to a ring (R412). -/
def Block.ringCredit (b : Block) (r : Nat) : Nat := if b.ringRuns r then b.ringSize r - (b.ring r).owned else 0

/-- The host posts descriptors: more than the credit is a CREDIT error (R412, R413). -/
def effRingPost (r : Nat) (w : WriteOut) (_old : Word) (b : Block) : Block :=
  let n := fldGet PCI.RING_POST_POST w.took
  if n = 0 || b.toSorus r then b
  else if b.ringCredit r < n then b.ringErr r 1
  else b.setRing r { b.ring r with owned := (b.ring r).owned + n }

/-- ENABLE is written: a ring is enabled from index 0, or disabled with its write-backs (R413). -/
def effRingCfg (r : Nat) (w : WriteOut) (old : Word) (b : Block) : Block :=
  let was := fldGet PCI.RING_CFG_ENABLE old
  let now := fldGet PCI.RING_CFG_ENABLE w.value
  if was = 0 && now = 1 then
    ((b.setRing r { Ring.fresh with request := (b.ring r).request, told := (b.ring r).told }).setReg (PCI.RING_HEAD r) 0#32).setReg (PCI.RING_STS r) 0#32
  else if was = 1 && now = 0 then
    if b.flag (PCI.RING_STS r) PCI.RING_STS_STOPPED then b else b.ringOff r
  else b

/-- TIME µs after the first return not yet reported (R414). -/
def Block.ringCoalesce (b : Block) (r : Nat) : Block :=
  let x := b.ring r
  if 0 < x.unreported && x.firstAt + 1000 * b.fld (PCI.RING_COAL r) PCI.RING_COAL_TIME ≤ b.time.elapsed then
    let y := { x with unreported := 0 }
    b.setRing r (if b.flag (PCI.RING_CFG r) PCI.RING_CFG_INT_EN then y.raise else y)
  else b

/-- What the fetch of a packet from an inject ring meets: no whole packet yet, a ring error, or descriptors to take. -/
inductive InjectRun where
  | wait
  | stop (code : Nat)
  | run (ds : List (List Byte)) (whole : Bool)
deriving DecidableEq, Repr

/-- The descriptors of the packet at HEAD of an inject ring, up to its EOP (R411): descriptor `i` on, `n` of them posted. A
descriptor of another TYPE, or with SOP, ends one that has begun.
DEDUCED, unsafe: log entry 138. -/
def Block.injectRun (b : Block) (r : Nat) : Nat → Nat → List (List Byte) → InjectRun
  | _, 0, _ => .wait
  | i, n + 1, ds =>
    let a := b.descAddr r i
    if b.host.fails a 32 then .stop 3
    else
      let d := b.dmaRead a 32
      if !bitAt (leAt d 15 1) 7 then .stop 2
      else
        let fl := leAt d 13 1
        if leAt d 12 1 ≠ 2 then (if ds.isEmpty then .run [d] false else .run ds false)
        else if !ds.isEmpty && bitAt fl 0 then .run ds false
        else if bitAt fl 1 then .run (ds ++ [d]) (bitAt fl 0 || !ds.isEmpty)
        else if ds.isEmpty && !bitAt fl 0 then .run [d] false
        else Block.injectRun b r (i + 1) n (ds ++ [d])

/-- The STATUS of a packet's descriptors, 0 for one that is sent (R411, R418). -/
def Block.injectCheck (b : Block) (ds : List (List Byte)) (whole : Bool) : Nat :=
  let d := ds.headD []
  let len := ds.foldl (fun n x => n + leAt x 8 3) 0
  let tgt := leAt d 16 1
  let out := leAt d 17 1
  let slice := tgt % 8
  if leAt d 12 1 ≠ 2 then 1
  else if !whole || len < 60 || 16380 < len then 2
  else if ds.any (fun x => leAt x 16 16 ≠ leAt d 16 16) || (bitAt tgt 3 && out / 32 ≠ slice)
      || bitAt (b.reg PWR.SLICE_STS).toNat slice || bitAt (b.reg PWR.SLICE_STS).toNat (8 + slice) then 3
  else if ds.any (fun x => 0 < leAt x 8 3 && b.host.fails (leAt x 0 8) (leAt x 8 3)) then 4
  else 0

/-- The packet that descriptors make, numbered `serial` on ring `r` (R317, R418). -/
def Block.injectPkt (b : Block) (r serial : Nat) (ds : List (List Byte)) : Pkt :=
  let bs := ds.flatMap (fun x => b.dmaRead (leAt x 0 8) (leAt x 8 3))
  let d := ds.headD []
  { bytes := bs, len := bs.length, inject := true, egress := bitAt (leAt d 16 1) 3, outLport := leAt d 17 1,
    rinds := arrivalRinds 0xFF bs, descs := some (r, serial) }

/-- The frond that a packet enters. -/
def injectFrond (d : List Byte) : Nat := leAt d 16 1 % 8 + 8 * (leAt d 16 1 / 8 % 2)

/-- Fetch a packet from inject ring `r`, if the ring has one whole and its frond's FIFO of 16 has room (R418). -/
def Block.injectFrom (b : Block) (r : Nat) : Option Block :=
  let x := b.ring r
  if !(b.ringRuns r && 0 < b.ringFree r && ringAlive b.mode.mode r) then none
  else
    match b.injectRun r (b.fld (PCI.RING_HEAD r) PCI.RING_HEAD_HEAD) (b.ringFree r) [] with
    | .wait => none
    | .stop c => some (b.ringErr r c)
    | .run ds whole =>
      let code := b.injectCheck ds whole
      let f := injectFrond (ds.headD [])
      if code = 0 && 16 ≤ (b.frond f).inject.length then none
      else
        let serial := b.fd.nextId
        let b1 := { ds.foldl (fun y _ => y.takeHead r) b with fd := { b.fd with nextId := serial + 1 } }
        let b2 := b1.setRing r { b1.ring r with injects := x.injects ++ [⟨serial, ds.length, none⟩] }
        some (if code = 0 then
            b2.setFrond f { b2.frond f with inject := (b2.frond f).inject ++ [b.injectPkt r serial ds] }
          else b2.injectDone r serial code)

/-- The device fetches a packet from the next inject ring that has one, in ring-number round robin (R418).
DEDUCED, unsafe: log entry 139. -/
def Block.injectFetch (b : Block) : Block :=
  let rs := (upTo 32).map (fun i => 32 + (b.fd.injectNext - 32 + i) % 32)
  match rs.findSome? (fun r => (b.injectFrom r).map (fun y => (r, y))) with
  | none => b
  | some (r, y) => { y with fd := { y.fd with injectNext := 32 + (r - 31) % 32 } }

/-- Where BAR2 offset `x` lies in the space chosen (R408). -/
def Block.windowAddr (b : Block) (x : Nat) : Nat := b.fld WIN.APERTURE_BASE WIN.APERTURE_BASE_BASE_MIB * 2 ^ 20 + x

/-- A byte read through the window: past the end of its space it reads all-ones (R409). -/
def Block.windowByte (b : Block) (x : Nat) : Byte :=
  let sp := b.fld WIN.APERTURE_BASE WIN.APERTURE_BASE_SPACE
  let a := b.windowAddr x
  if a < b.spaceSize sp then ((b.spaceWord sp (a / 32))[a % 32]?).getD 0#8 else 0xFF#8

/-- The channels see a read of `n` bytes through the window, word by word (R347, R409); true for an error mark. -/
def Block.windowSeen (b : Block) (x n : Nat) : Block × Bool :=
  let sp := b.fld WIN.APERTURE_BASE WIN.APERTURE_BASE_SPACE
  let a := b.windowAddr x
  (upTo ((a + n - 1) / 32 + 1 - a / 32)).foldl (fun (y : Block × Bool) i =>
    let k := a / 32 + i
    if 32 * k < b.spaceSize sp then
      let r := y.1.spaceSeen sp k
      (r.1, y.2 || r.2)
    else y) (b, false)

/-- A read of `n` bytes through the window; `uncorr` says that a word of it has an uncorrectable error (R409).
DEDUCED, unsafe: log entry 135. -/
def Block.windowRead (b : Block) (x n : Nat) (uncorr : Bool) : Block :=
  match b.reach .host 2 0x100 with
  | .silent => b.emitOut .noCompletion
  | .held => b.emitOut (.data (List.replicate n 0xFF#8) false)
  | .answers =>
    if !coreOn b.mode.mode || b.mode.mode = .bringUp then b.emitOut (.data (List.replicate n 0xFF#8) false)
    else
      let bs := (upTo n).map (fun i => b.windowByte (x + i))
      let r := b.windowSeen x n
      if uncorr || r.2 then ((r.1.setFld WIN.STS WIN.STS_UNCORR 1).intRaw 2 0).emitOut (.data bs true)
      else r.1.emitOut (.data bs false)

/-- A window write is discarded (R409). -/
def Block.windowDiscard (b : Block) : Block := ((b.satAdd WIN.DISCARD_CNT 1).setFld WIN.STS WIN.STS_DISCARD 1).intRaw 2 1

/-- The words that a whole write covers, from word `k` on: those in DIRECT units of the table SRAM are written (R134). -/
def Block.windowWords : Nat → List (List Byte) → Bool → Block → Block
  | _, [], miss, b => if miss then b.windowDiscard else b
  | k, w :: ws, miss, b =>
    if 32 * k < b.spaceSize 0 && b.classOf k = 0 then
      Block.windowWords (k + 1) ws miss (b.setSram k (BitVec.ofNat 256 (leNat w)))
    else Block.windowWords (k + 1) ws true b

/-- A write through the window, `none` where a byte is not enabled (R134, R409). -/
def Block.windowWrite (b : Block) (x : Nat) (bytes : List (Option Byte)) : Block :=
  match b.reach .host 2 0x100 with
  | .silent => b
  | .held => b
  | .answers =>
    let a := b.windowAddr x
    let bs := bytes.filterMap id
    if b.fld WIN.APERTURE_BASE WIN.APERTURE_BASE_SPACE = 0 && b.fdLive && a % 32 = 0 && bytes.length % 32 = 0 && bs.length = bytes.length then
      Block.windowWords (a / 32) (chunksOf 32 bs.length bs) false b
    else b.windowDiscard

/-- An access to a TD page is not answered within 20 µs: it is counted, captured in the PCI page and reported; a read
completes with all-ones (R402). An FD or island page never meets this.
DEDUCED, unsafe: log entry 142. -/
def Block.tdTimeout (b : Block) (src : Source) (page off : Nat) (write : Bool) : Block :=
  if page < 0x80 then b else
  let b1 := (b.satAdd PCI.TD_TIMEOUT_CNT 1).intRaw 1 1
  let b2 := if b1.flag (HDR.ERR_INFO 1) HDR.ERR_INFO_VALID then b1
    else (b1.setReg (HDR.ERR_ADDR 1) (BitVec.ofNat 32 (off / 4 * 4))).setReg (HDR.ERR_INFO 1)
      (BitVec.ofNat 32 (2 ^ 31 + sourceCode src * 2 ^ 28 + b2n write * 2 ^ 27 + 0xFF * 2 ^ 8 + 7))
  let b3 := b2.event 1 0x10 0x06 (leBytes 2 page ++ leBytes 2 off)
  if write then b3 else b3.emitOut (.data (List.replicate 4 0xFF#8) false)

end Sys2Proof.Machine
end

