-- ==== Sys2Proof/Machine/Pass.lean ====
section
/-! DEFINITION. A pass through the pinnae of a frond (R58 to R66, R512): the accesses in claimed slots, lookups of each kind, TCAM
searches (R154 to R160), and what the pinnae write. -/

namespace Sys2Proof.Machine

/-- The slot records of a pinna of a kind: 0 SRAM read, 1 SRAM update, 2 TCAM search (R75). -/
def claims (im : List Byte) (f p kind : Nat) : List SlotRec :=
  ((imgSlots im).map slotRec).filter (fun r => r.frond = f && r.pinna = p && r.kind = kind)

/-- What a TCAM search comes to: its result word, the false hits, and the candidates with a bad stored copy (R156 to R160). -/
structure Search where
  word : BitVec 256
  falseHits : List (Nat × Nat)
  copyErrs : List (Nat × Nat)
deriving DecidableEq, Repr


/-- A search of a table (R155 to R160): first and second match of each group, verified, then resolved. -/
def Block.tcSearch (b : Block) (t : TcTable) (key : Nat) (seen : TcSeen) : Search :=
  let k := key % 2 ^ tcBits t.width
  let bad (g r : Nat) : Option Nat := b.badBank (groupBanks t.width) g r seen.copyErr
  let of (g : Nat) : List (Nat × Nat × TRow) := (b.tcReported t.width g k seen.flipped).map (fun e => (g, e.1, e.2))
  let groups := t.groups.map of
  let cands := groups.flatMap (fun l => l.take 2)
  let isFalse (c : Nat × Nat × TRow) : Bool := (bad c.1 c.2.1).isNone && !c.2.2.hits k
  let remain := cands.filter (fun c => !isFalse c)
  let more := (groups.filter (fun l => 2 < l.length)).length
  let best := remain.foldl (fun (m : Option (Nat × Nat × TRow)) c =>
    match m with
    | none => some c
    | some x => if c.2.2.prio < x.2.2.prio then some c else some x) none
  let fh := (cands.filter isFalse).map (fun c => (c.1, c.2.1))
  let ce := cands.filterMap (fun c => (bad c.1 c.2.1).map (fun k => (k, c.2.1)))
  let tie := match best with
    | some w => 2 ≤ (remain.filter (fun c => c.2.2.prio = w.2.2.prio)).length
    | none => false
  let head := match best with
    | some w => w.2.2.action + w.2.2.prio % 2 ^ 24 * 2 ^ 32 + 2 ^ 56
    | none => t.miss
  ⟨BitVec.ofNat 256 (head + b2n (decide (2 ≤ remain.length + more)) * 2 ^ 57 + b2n tie * 2 ^ 58
      + b2n (!fh.isEmpty) * 2 ^ 59 + b2n (!ce.isEmpty) * 2 ^ 60), fh, ce⟩

/-- The region of an image that holds a slot's bank for the slot's table (R75, R121). -/
def claimRegion (im : List Byte) (r : SlotRec) : Option Region :=
  (tableOf im r.table).find? (fun x => x.quad = r.bank / 4)

/-- The last pinna of a frond that reads a copy of a table (R137). -/
def lastPinna (im : List Byte) (f table c : Nat) : Nat :=
  ((imgSlots im).map slotRec).foldl (fun n r =>
    if r.frond = f && r.kind = 0 && r.table = table && ((claimRegion im r).map (fun x => x.copy)) = some c then max n r.pinna
    else n) 0

/-- The searches of a pinna: the slot records of one table are one search, which takes one SLOT in every bank (R153, R154). -/
def searchesOf (im : List Byte) (f p : Nat) : List Nat := ((claims im f p 2).map (fun r => r.table)).eraseDups

/-- The keys that a pinna's key builders build, of those its body asks for: a key builder builds 640 bits at most, and all of them
what the descriptor declares (R60, R512); none for a key that it is not given. -/
def givenKeys : Nat → Nat → List (Nat × Nat) → List (Option Nat)
  | 0, _, _ => []
  | _, _, [] => []
  | n + 1, bits, k :: r =>
    if k.1 ≤ 640 && k.1 ≤ bits then some (k.2 % 2 ^ k.1) :: givenKeys n (bits - k.1) r else none :: givenKeys n bits r

/-- A word of the table SRAM as a pinna reads it: of a COUNTER bank it reads nothing (R61). -/
def Block.pinnaWord (b : Block) (a : Nat) : BitVec 256 := if b.classOf a = 3 then 0 else b.wordAt a

/-- Something of a pinna that is not used up yet. -/
def PinnaUse.fresh (u : PinnaUse) (kind s : Nat) : Bool := !u.slots.contains (kind, s)

/-- A slot is used. -/
def PinnaUse.take (u : PinnaUse) (kind s : Nat) : PinnaUse := { u with slots := u.slots ++ [(kind, s)] }

/-- The read slots of a pinna that an exact-match lookup by slot `r` takes: those of its table in its quad, which are not used yet
(R129). -/
def emSlotsOf (im : List Byte) (f p : Nat) (u : PinnaUse) (r : SlotRec) : List (Nat × Nat) :=
  ((claims im f p 0).zipIdx.filter (fun e => e.1.table = r.table && e.1.bank / 4 = r.bank / 4 && u.fresh 0 e.2)).map
    (fun e => (e.1.bank, e.2))

/-- An exact-match lookup in the region that a slot's bank belongs to (R128 to R130): bit 255 of the answer is the hit, the
low bits are DATA. Every slot there that holds the key has its hit bit set; the last pinna of a learned table's copy forms the
request (R137) from the containers at its arrival.
DEDUCED, unsafe: log entry 45. -/
def Block.emAccess (b : Block) (im : List Byte) (f p : Nat) (banks : List Nat) (r : SlotRec) (key : Nat) (phv : NMap Nat) :
    Block × BitVec 256 :=
  let rs := tableOf im r.table
  match claimRegion im r, emKind rs with
  | some x, some wide =>
    let mine := (b.emFinds wide (copyOf rs x.copy) (emKeyOf wide key)).filter (fun q => banks.contains (q.1 / 24576))
    let b1 := mine.foldl (fun y q => y.setHit wide q true) b
    let b2 := if p = lastPinna im f r.table x.copy && decide (f < 8) then b1.learnLookup rs r.table x.copy key phv else b1
    (b2, match mine.head? with
      | some q => BitVec.ofNat 256 (2 ^ 255 + emData wide (b.slot wide q))
      | none => 0)
  | _, _ => (b, 0)

/-- A longest-prefix lookup as the pinna of one region finds it (R123): the word that the walk has come to, if it lies in that region,
else zeros. A pass goes on from the words that it has read, whatever changes meanwhile (R132). -/
def Block.routeAccess (b : Block) (im : List Byte) (r : SlotRec) (key : Nat) (ws : List Walk) : List Walk × BitVec 256 :=
  let rs := tableOf im r.table
  match claimRegion im r, lpmKind rs with
  | some x, some v6 =>
    let new := walkStart rs r.table x.copy v6 key
    let same (w : Walk) : Bool := w.table = new.table && w.copy = new.copy && w.addr = new.addr
    let w := (ws.find? same).getD new
    let level := if x.kind = 6 then 32 else x.level
    if w.level = level && ((walkRegions rs x.copy level)[w.ord]?).map (fun q => q.idx) = some x.idx then
      let word := if w.off < 4 * x.len then b.pinnaWord (x.word w.off) else 0
      (ws.filter (fun q => !same q) ++ (if level = 32 then [] else [w.step rs v6 word.toNat]), word)
    else (ws, 0)
  | _, _ => (ws, 0)

/-- One access of a pinna and its answer; what its records do not claim, its keys do not hold or its hash units do not cover does
not take place and answers zeros (R60, R62, R512). -/
def Block.pinnaAccess (b : Block) (im : List Byte) (f p : Nat) (d : List Byte) (seen : TcSeen) (keys : List (Option Nat))
    (phv : NMap Nat) (u : PinnaUse) (a : PinnaAcc) : (Block × PinnaUse) × BitVec 256 :=
  let key (k : Nat) : Option Nat := (keys[k]?).bind id
  match a with
  | .read s k =>
    match (claims im f p 0)[s]?, key k with
    | some r, some v =>
      if u.fresh 0 s then ((b, u.take 0 s), if v < 24576 then b.pinnaWord (r.bank * 24576 + v) else 0) else ((b, u), 0)
    | _, _ => ((b, u), 0)
  | .em s k =>
    match (claims im f p 0)[s]?, key k with
    | some r, some v =>
      if u.fresh 0 s && u.hashes < u8At d 7 then
        let mine := emSlotsOf im f p u r
        let x := b.emAccess im f p (mine.map (·.1)) r v phv
        ((x.1, { u with slots := u.slots ++ mine.map (fun e => (0, e.2)), hashes := u.hashes + 1 }), x.2)
      else ((b, u), 0)
    | _, _ => ((b, u), 0)
  | .route s k =>
    match (claims im f p 0)[s]?, key k with
    | some r, some v =>
      if u.fresh 0 s then
        let x := b.routeAccess im r v u.walks
        ((b, { u.take 0 s with walks := x.1 }), x.2)
      else ((b, u), 0)
    | _, _ => ((b, u), 0)
  | .search s k =>
    match ((searchesOf im f p)[s]?).bind (fun i => (imgTcam im).find? (fun t => t.id = i)), key k with
    | some t, some v =>
      if u.fresh 2 s then
        let x := b.tcSearch t v seen
        (((b.falseHits x.falseHits).copyErrs x.copyErrs, u.take 2 s), x.word)
      else ((b, u), 0)
    | _, _ => ((b, u), 0)
  | .update k =>
    match (claims im f p 1)[0]?, key k with
    | some r, some v =>
      if u.fresh 1 0 then ((b, u.take 1 0), if v < 24576 then b.pinnaWord (r.bank * 24576 + v) else 0) else ((b, u), 0)
    | _, _ => ((b, u), 0)

/-- The accesses of a pinna in order. -/
def Block.pinnaAccesses (b : Block) (im : List Byte) (f p : Nat) (d : List Byte) (seen : TcSeen) (keys : List (Option Nat))
    (phv : NMap Nat) (u : PinnaUse) : List PinnaAcc → (Block × List Walk) × List (BitVec 256)
  | [] => ((b, u.walks), [])
  | a :: r =>
    let x := b.pinnaAccess im f p d seen keys phv u a
    let y := Block.pinnaAccesses x.1.1 im f p d seen keys phv x.1.2 r
    (y.1, x.2 :: y.2)

/-- The word that a pinna's update slot takes, at the address it read (R66): a program writes words of DIRECT tables only (R128, R132).
DESIGN CHOICE, unsafe: log entry 47. -/
def Block.pinnaUpdate (b : Block) (im : List Byte) (f p : Nat) (keys : List (Option Nat)) (accs : List PinnaAcc)
    (w : Option (BitVec 256)) : Block :=
  let addr := accs.findSome? (fun a => match a with
    | .update k => (keys[k]?).bind id
    | _ => none)
  match w, (claims im f p 1)[0]?, addr with
  | some v, some r, some x =>
    let a := r.bank * 24576 + x
    if x < 24576 && b.classOf a = 0 then b.setSram a (NMap.get 0 b.tbl.trie a ^^^ v) else b
  | _, _, _ => b

/-- The action words of pinna `p` of a frond (R512). -/
def actionWords (im : List Byte) (f p : Nat) (ds : List (List Byte)) : List Byte :=
  let n (d : List Byte) : Nat := 32 * leAt d 8 2
  bytesAt (secBytes im (secOfF (imgSecs im) 5 f)) ((ds.take p).foldl (fun s d => s + n d) 0) (n (ds.getD p []))

/-- The bodies of the pinnae of a frond (R512). -/
def pinnaBodies : Nat → List Byte → List (List Byte)
  | 0, _ => []
  | n + 1, bs => bytesAt bs 64 (leAt bs 0x14 4) :: pinnaBodies n (bs.drop (64 + leAt bs 0x14 4))

/-- The containers as pinna `p` meets them: the payload result stands in its container from pinna PAY_BOUNDARY on (R114). -/
def payAtBoundary (pg : List Byte) (p : Nat) (pay : Option Nat) (phv : NMap Nat) : NMap Nat :=
  match pay with
  | some v => if u8At pg 7 = p then NMap.set 0 phv (leAt pg 0x0A 2) v else phv
  | none => phv

/-- One pinna of a pass (R59, R60): keys and accesses from the containers at its arrival, then its writes and counter updates, held
to what its descriptor declares. -/
def Block.pinna (b : Block) (im : List Byte) (f p : Nat) (ds bodies : List (List Byte)) (seen : TcSeen) (ps : Pass) :
    Block × Pass :=
  let d := ds.getD p []
  let phv := payAtBoundary (imgGraph im) p ps.parse.pay ps.phv
  let on := { ps with next := p + 1, phv := phv }
  if u8At d 0 = 0 then (b, on)
  else
    let body := bodies.getD p []
    let words := actionWords im f p ds
    let ask := Config.pinnaAsk body words phv
    let keys := givenKeys (u8At d 1) (leAt d 2 2) ask.keys
    let t := b.pinnaAccesses im f p d seen keys phv { walks := ps.walks } ask.accs
    let o := Config.pinnaOut body words phv t.2
    let b1 := t.1.1.pinnaUpdate im f p keys ask.accs o.word
    let b2 := (o.counters.take (u8At d 15)).foldl (fun x c => x.cntUpdate c.1 c.2) b1
    (b2, { on with phv := phvAfter [d] phv o.writes, walks := t.1.2 })

/-- The pinnae of a pass in order, from its next one on, as long as `due` says that they have made their accesses (R59).
DEDUCED, unsafe: log entry 44. -/
def Block.pinnaRun (im : List Byte) (f : Nat) (ds bodies : List (List Byte)) (seen : TcSeen) (due : Nat → Bool) :
    Nat → Block → Pass → Block × Pass
  | 0, b, ps => (b, ps)
  | fuel + 1, b, ps =>
    if ps.next < 48 && due ps.next then
      let x := b.pinna im f ps.next ds bodies seen ps
      Block.pinnaRun im f ds bodies seen due fuel x.1 x.2
    else (b, ps)

/-- A pass goes through the pinnae whose access cycle has come: T(p) + 2 after its frond entry (R59, R62, R69). A bubble makes no
accesses. -/
def Block.runPass (b : Block) (f : Nat) (ps : Pass) (seen : TcSeen) (due : List Nat → Nat → Bool) : Block × Pass :=
  if ps.kind ≠ .runs then (b, ps)
  else
    let im := b.bankImage ps.pkt.bank
    let ds := imgPinnae im f
    Block.pinnaRun im f ds (pinnaBodies 48 (secBytes im (secOfF (imgSecs im) 4 f))) seen (due (boundaries ds)) 48 b ps

/-- The accesses that the passes of a frond make by its present cycle, the oldest pass first (R49, R59, R62). -/
def Block.frondAccesses (b : Block) (f : Nat) (seen : TcSeen) : Block :=
  let cycle := (b.frond f).cycle
  let r := (b.frond f).pinnae.foldl (fun (t : Block × List Pass) ps =>
    let x := t.1.runPass f ps seen (fun ts p => ts.getD p 0 + 2 ≤ cycle - ps.since)
    (x.1, t.2 ++ [x.2])) (b, [])
  r.1.setFrond f { r.1.frond f with pinnae := r.2 }

/-- The rest of a pass up to its hand-off (R50, R59, R67, R68): the block, and the containers. -/
def Block.endPass (b : Block) (f : Nat) (ps : Pass) (seen : TcSeen) : Block × NMap Nat :=
  let x := b.runPass f ps seen (fun _ _ => true)
  (x.1, if ps.kind = .runs then payAtBoundary (imgGraph (b.bankImage ps.pkt.bank)) 48 ps.parse.pay x.2.phv else x.2.phv)

end Sys2Proof.Machine
end

