-- ==== Sys2Proof/Machine/PassEnd.lean ====
section
/-! DEFINITION. The hand-off of a pass (R49, R67, R85, R86, R105 to R108, R315, R319, R323, R325, R417). -/

namespace Sys2Proof.Machine

/-- The disposition fields of W32_4, W32_5 and W32_7 (R67). -/
def phvAction (phv : NMap Nat) : Nat := NMap.get 0 phv 36 % 8
def phvQueue (phv : NMap Nat) : Nat := NMap.get 0 phv 36 / 2 ^ 8 % 2 ^ 20
def phvRing (phv : NMap Nat) : Nat := NMap.get 0 phv 37 % 32
def phvReason (phv : NMap Nat) : Nat := NMap.get 0 phv 37 / 2 ^ 8 % 2 ^ 8
def phvAdvance (phv : NMap Nat) : Nat := NMap.get 0 phv 39 % 2 ^ 10

/-- A table SRAM word with an uncorrectable error was read in a pass (R325). -/
def Block.sramUncorr (b : Block) (a : Nat) : Block :=
  ((b.count CHK.SRAM_UNCORR_LO 3).intRaw 7 5).event 7 8 5 (leBytes 1 (a / 24576) ++ leBytes 2 (a % 24576))

/-- The ARRIVAL cells of a packet as they stand in staging, with their verdicts as read (R315, R318). -/
def arrivalCells (k : Pkt) (seens : List Seen) : List (Nat × Cell × Verdict) :=
  (cellPays k.bytes).zipIdx.map (fun (e : List Byte × Nat) =>
    let c : Cell := { pay := e.1, rind := k.rinds.getD e.2 0#32 }
    (e.2, c, verify (.arrival k.lport e.2) c (seens.getD e.2 {})))

/-- The first cell of a list that fails. -/
def firstFail (cs : List (Nat × Cell × Verdict)) : Option (Nat × Verdict) :=
  (cs.find? (fun e => e.2.2.bad)).map (fun e => (e.1, e.2.2))

/-- The cells that an ingress hand-off forms for a queue, with BRIDGE_IN rinds on wire group `g` (R180, R313 to R315). -/
def formCells (k : Pkt) (queue g tag : Nat) (cs : List (Nat × Cell × Verdict)) : List Cell :=
  let from_ := k.lport + k.macPort * 2 ^ 8 + b2n k.noLport * 2 ^ 19
  cs.map (fun e =>
    let c : Cell := { queue := queue, sop := decide (e.1 = 0), eop := decide (e.1 + 1 = cs.length), pktLen := k.len
                      idx := e.1, recirc := k.recirc, epoch := k.inEpoch, metaW := if e.1 = 0 then k.metaW else 0
                      pay := e.2.1.pay, rind := 0#32, marked := false, arrival := from_ }
    { c with rind := rindMove (.arrival k.lport e.1) (.bridgeIn queue e.1 g tag) e.2.1 c false })

/-- FORWARD of an ingress pass: a failing ARRIVAL rind drops the packet and forms no cell (R315, R319). -/
def Block.forwardIn (b : Block) (k : Pkt) (queue g : Nat) (seens : List Seen) : Block :=
  let cs := arrivalCells k seens
  match firstFail cs with
  | some (i, v) => b.chkCount 0 v [BitVec.ofNat 8 k.lport] i
  | none =>
    let x := b.group 0 g
    (b.setGroup 0 g { x with txTag := (x.txTag + 1) % 2 ^ 16 }).sendCells 0 g (formCells k queue g x.txTag cs)

/-- A punt of an ingress pass, or a copy (R323, R417). -/
def Block.puntIn (b : Block) (k : Pkt) (ring reason : Nat) (parser copy : Bool) (seens : List Seen) : Block :=
  match firstFail (arrivalCells k seens) with
  | some (i, v) => b.chkCount 7 v [BitVec.ofNat 8 k.lport] i
  | none =>
    let i : PuntInfo := { reason := reason, egress := false, parser := parser, copy := copy, noLport := k.noLport, noOut := true
                          lport := k.lport, outLport := 0xFF, epoch := k.epoch, metaW := k.metaW }
    b.punt ring i k.bytes

/-- A pass that recirculates at the limit of its bank (R86). -/
def Block.atLimit (b : Block) (k : Pkt) : Bool := manRecircLimit (imgManifest (b.bankImage k.bank)) ≤ k.recirc

/-- A recirculation dropped at the limit is counted (R86). -/
def Block.limitDrop (b : Block) (f : Nat) : Block := (b.frdCount f 5).intRaw (0x10 + f) 1

/-- RECIRCULATE of an ingress pass, with its advance (R85, R86, R106): a pass at the limit whose advance is refused counts as both. The
packet came from an inject ring still, if it did (R67).
DEDUCED, unsafe: log entry 33.
DEDUCED, unsafe: log entry 178. -/
def Block.recircIn (b : Block) (f : Nat) (k : Pkt) (o : ParseOut) (adv : Nat) (seens : List Seen) : Block :=
  let resume := u8At (imgGraph (b.bankImage k.bank)) 6
  let limit := b.atLimit k
  let refused := decide (adv ≠ 0) && (o.advanced || decide (o.lastOff < adv) || decide (resume = 0xFF))
  if limit || refused then
    let b1 := if limit then b.limitDrop f else b
    if refused then (b1.count PRS.ADV_REFUSED_LO 1).intRaw 0x20 1 else b1
  else
    let bs := ((cellPays k.bytes).zipIdx.map (fun (e : List Byte × Nat) => flipBytes e.1 (seens.getD e.2 {}).flips)).flatten
    b.toRecirc f { k with bytes := bs, recirc := k.recirc + 1, fromRecirc := true
                          advance := if adv = 0 then none else some adv, rinds := [] }

/-- What an ingress pass whose program ran comes to, by ACTION (R67).
DEDUCED, unsafe: log entry 48. -/
def Block.endIn (b : Block) (f g : Nat) (k : Pkt) (o : ParseOut) (phv : NMap Nat) (seens : List Seen) : Block :=
  match phvAction phv with
  | 0 => b.forwardIn k (phvQueue phv) g seens
  | 1 => b.frdCount f 2
  | 2 => b.puntIn k (phvRing phv) (phvReason phv) false false seens
  | 3 => (b.forwardIn k (phvQueue phv) g seens).puntIn k (phvRing phv) (phvReason phv) false true seens
  | 4 => b.recircIn f k o (phvAdvance phv) seens
  | _ => b.frdCount f 3


/-- What a pass decided is noted in the packet's store entry and carried out as far as it has arrived (R209, R417). -/
def Block.fateEg (b : Block) (id : Nat) (k : Pkt) (fate : Fate) (head : List Byte) (forward : Bool) : Block :=
  match b.eg id with
  | none => b
  | some g =>
    let g1 := { g with fate := fate, head := head, pass := some k, credits := if forward then g.credits else 0 }
    let b1 := b.setStore id (some g1)
    if forward then
      let x := b1.egf g.outLport
      (b1.setEgf g.outLport { x with coming := x.coming ++ [id] }).settle id
    else (b1.refund g.outLport g.credits).settle id

/-- The first cell of an egress packet as its pass found it. -/
def Block.firstCell (b : Block) (k : Pkt) : List Byte := match k.store.bind b.eg with
  | some g => (g.cells.head?.map (fun c => c.pay)).getD (k.bytes.take 256)
  | none => k.bytes.take 256

/-- The head that an egress pass leaves: the rewritten first cell (R210). -/
def Block.headOf (b : Block) (f : Nat) (k : Pkt) (phv : NMap Nat) : List Byte :=
  Config.deparse (b.bankImage k.bank) f phv (b.firstCell k)

/-- What an egress pass whose program ran comes to, by ACTION (R67, R85, R86, R311, R319, R323): its first cell is verified as it is
read for deparse or for a punt. A FORWARD with no output port is a DROP. -/
def Block.endEg (b : Block) (f id : Nat) (k : Pkt) (phv : NMap Nat) (head : List Byte) (seen : Seen) : Block :=
  let act := phvAction phv
  let fwd := act = 0 || act = 3
  let v := match b.eg id with
    | some g => g.verdict 0 seen
    | none => .clean
  let group := ((b.eg id).map (fun g => g.group)).getD 0
  let queue := ((b.eg id).map (fun g => g.queue)).getD 0
  let lose (x : Block) : Block := x.loseEg id
  match act with
  | 1 => lose (b.frdCount f 2)
  | 4 =>
    if b.atLimit k then lose (b.limitDrop f)
    else if v.bad then lose (b.chkBridge 5 v queue 0 group)
    else b.fateEg id { k with recirc := k.recirc + 1, fromRecirc := true, advance := none } (.recirc (f % 8)) head false
  | 5 => lose (b.frdCount f 3)
  | 6 => lose (b.frdCount f 3)
  | 7 => lose (b.frdCount f 3)
  | _ =>
    if fwd && k.outNone then lose (b.frdCount f 2)
    else if v.bad then
      let b1 := if fwd then b.chkBridge 5 v queue 0 group else b
      lose (if act = 0 then b1 else b1.chkCount 7 v (leBytes 4 queue) 0)
    else if act = 0 then b.fateEg id k .port head true
    else b.fateEg id k (.punt (phvRing phv) (phvReason phv) (decide (act = 3)) fwd false) head fwd

/-- The hand-off of the oldest pass in a frond's pinnae (R49): its program's accesses, then its disposition. `wire` names the
slice's wire group that an ingress packet takes; `cells` are its staged cells as they are read (R315), or an egress packet's first
cell (R319).
DEDUCED, unsafe: log entry 46. -/
def Block.handOff (b : Block) (f wire : Nat) (cells : List Seen) (acc : AccSeen) : Block :=
  if b.mode.mode = .faultHold then b
  else match (b.frond f).pinnae with
    | [] => b
    | ps :: rest =>
      let eg := decide (8 ≤ f)
      let r : Block × NMap Nat := b.endPass f ps acc.tcam
      let x := r.1.frond f
      let b1 := r.1.setFrond f { x with pinnae := rest, lastPhv := r.2 }
      let k := { ps.pkt with metaW := NMap.get 0 r.2 0 }
      let id := k.store.getD 0
      let lose (y : Block) : Block := if eg then y.loseEg id else y
      let done : Block :=
        if ps.expired then lose (b1.expire f)
        else match ps.kind with
          | .dropped => lose b1
          | .badFcs => lose b1
          | .punted ring reason =>
            if eg then b1.fateEg id k (.punt ring reason false false true) (b1.firstCell k) false
            else b1.puntIn k ring reason true false cells
          | .runs =>
            match acc.sram with
            | some a => lose (b1.sramUncorr a)
            | none =>
              if eg then b1.endEg f id k r.2 (b1.headOf f k r.2) (cells.headD {})
              else b1.endIn f (4 * (f % 8) + wire % 4) k ps.parse r.2 cells
      (if eg then done else done.slicePauseCheck f).drainCheck

end Sys2Proof.Machine
end

