-- ==== Sys2Proof/Machine/Shadow.lean ====
section
/-! DEFINITION. The shadow comparer (R144 to R146): the walk, the second reading, repair, and rebasing. -/

namespace Sys2Proof.Machine

/-- The words of a block change underneath. -/
def Block.upset (b : Block) (rs : List Region) (c k : Nat) (us : Upsets) : Block :=
  (us.filter (fun u => u.1 < 256)).foldl (fun x u => match seqWord (copyOf rs c) (256 * k + u.1) with
    | some a => x.setSram a (x.sram a ^^^ u.2)
    | none => x) b

/-- The comparer reads the stored EXPECTED and PRIOR of a block (R144). -/
def Block.digests (b : Block) (m c k : Nat) : Block × Word × Word :=
  let t := b.d5Take (b.digestAddr m c k) 8
  (t.1, BitVec.ofNat 32 (leNat (t.2.take 4)), BitVec.ofNat 32 (leNat (t.2.drop 4)))

/-- Write LAST of a block (R145). -/
def Block.setLast (b : Block) (m c k : Nat) (d : Word) : Block := b.d5Write (b.digestAddr m c k + 8) (leBytes 4 d.toNat)

/-- The digest of a block of SHD table `m` as it stands. -/
def Block.shdDigest (b : Block) (m c k : Nat) : Word :=
  b.blockDigest (b.shdTable m) (b.flag (SHD.TBL m) SHD.TBL_EXCLUDE_DYNAMIC) c k

/-- A block exists in an enabled table, and the comparer runs. -/
def Block.shdBlock (b : Block) (m c k : Nat) : Bool :=
  let rs := b.shdTable m
  b.fdLive && b.flag SHD.CTL SHD.CTL_ENABLE && m < 16 && (copiesOf rs).contains c && k < blocksOf rs c

/-- The enabled blocks in the order of the walk: SHD table, copy, block (R145). -/
def Block.walkBlocks (b : Block) : List (Nat × Nat × Nat) :=
  (upTo 16).flatMap (fun m =>
    let rs := b.shdTable m
    (copiesOf rs).flatMap (fun c => (upTo (blocksOf rs c)).map (fun k => (m, c, k))))

/-- A walk that has covered every block gives way to the next once `WALK.TICKS` ticks have fired since it began (R145). -/
def Block.walkDue (b : Block) : Block :=
  if b.walkBlocks.length ≤ b.tbl.walkPos && b.tbl.walkFrom + b.fld SHD.WALK SHD.WALK_TICKS ≤ b.ticks then
    b.withTbl { b.tbl with walkPos := 0, walkFrom := b.ticks }
  else b

/-- Where the readings of a block fall: one that spans the write is made again at once, up to three times (R145). -/
def walkFalls (reads : List WalkAt) : WalkAt := (reads.find? (fun w => w ≠ .spans)).getD .spans

/-- The walker digests a block and compares it (R145). -/
def Block.walkBlock (b0 : Block) (m c k : Nat) (at_ : WalkAt) (us : Upsets) : Block :=
    let t := (b0.upset (b0.shdTable m) c k us).digests m c k
    let b := t.1
    let now := b.shdDigest m c k
    match at_ with
    | .spans => ((b.setLast m c k (Config.freeValue b.draws)).drawn).count SHD.DEFERRED_CNT_LO 0
    | .after =>
      let b1 := b.setLast m c k now
      if now = t.2.1 then b1 else b1.withTbl { b1.tbl with reread := b1.tbl.reread ++ [(m, c, k)] }
    | .before =>
      let was := now ^^^ t.2.1 ^^^ t.2.2
      let b1 := b.setLast m c k was
      if was = t.2.2 then b1 else b1.withTbl { b1.tbl with reread := b1.tbl.reread ++ [(m, c, k)] }

/-- SHADOW_WALK: the walker comes to the next enabled block of its walk, if one is left (R145).
DESIGN CHOICE, unsafe: log entry 114. -/
def Block.shadowWalk (b0 : Block) (at_ : WalkAt) (us : Upsets) : Block :=
  if !b0.fdLive || !b0.flag SHD.CTL SHD.CTL_ENABLE then b0
  else
    let b := b0.walkDue
    match b.walkBlocks[b.tbl.walkPos]? with
    | none => b
    | some (m, c, k) => (b.withTbl { b.tbl with walkPos := b.tbl.walkPos + 1 }).walkBlock m c k at_ us

/-- The fields of `SHD.MISMATCH` as an event carries them (R146, R416). -/
def mismatchData (table c k : Nat) : List Byte := leBytes 2 table ++ leBytes 1 c ++ leBytes 2 k

/-- Rewrite a block from another copy's, word by word (R146). -/
def Block.blockRepair (b : Block) (rs : List Region) (c good k : Nat) : Block :=
  (upTo 256).foldl (fun x i =>
    match seqWord (copyOf rs c) (256 * k + i), seqWord (copyOf rs good) (256 * k + i) with
    | some a, some g => x.setSram a (x.sram g)
    | _, _ => x) b

/-- SHADOW_REREAD: the oldest block that failed is read again; a second failure is counted, recorded, reported, and repaired
where another copy is good (R146). -/
def Block.shadowReread (b0 : Block) (us : Upsets) : Block :=
  match b0.tbl.reread with
  | [] => b0
  | (m, c, k) :: rest =>
    let b1 := b0.withTbl { b0.tbl with reread := rest }
    if !b1.shdBlock m c k then b1
    else
      let rs := b1.shdTable m
      let t := (b1.upset rs c k us).digests m c k
      let b := t.1
      let now := b.shdDigest m c k
      let b2 := b.setLast m c k now
      if now = t.2.1 then b2
      else
        let id := b.fld (SHD.TBL m) SHD.TBL_TABLE_ID
        let b3 := b2.count SHD.MISMATCH_CNT_LO 0
        let b4 := if b3.flag SHD.MISMATCH_VALID SHD.MISMATCH_VALID_VALID then b3
          else (b3.setReg SHD.MISMATCH (BitVec.ofNat 32 (id + c * 2 ^ 16 + k * 2 ^ 18))).setFld
            SHD.MISMATCH_VALID SHD.MISMATCH_VALID_VALID 1
        let b5 := b4.event 0x24 2 3 (mismatchData id c k)
        if !b.flag SHD.CTL SHD.CTL_REPAIR then b5
        else match (copiesOf rs).find? (fun g => g ≠ c && decide (b.shdDigest m g k = (b.digests m g k).2.1)) with
          | none => b5
          | some g => ((b5.blockRepair rs c g k).count SHD.REPAIRED_CNT_LO 0).event 0x24 2 4 (mismatchData id c k)

/-- The effect of a write of `SHD.REBASE` (SHD registers).
DEDUCED, unsafe: log entry 104. -/
def effRebase (w : WriteOut) (_old : Word) (b : Block) : Block := b.withTbl { b.tbl with rebase := w.took.toNat }

/-- The effect of a write of `SHD.REBASE_END`: the present words of the range are taken as EXPECTED (R144). -/
def effRebaseEnd (w : WriteOut) (_old : Word) (b : Block) : Block :=
  if !b.fdLive then b
  else
    let id := b.tbl.rebase % 2 ^ 16
    let first := b.tbl.rebase / 2 ^ 16
    let last := fldGet SHD.REBASE_END_LAST w.took
    (upTo 16).foldl (fun x m =>
      if x.fld (SHD.TBL m) SHD.TBL_TABLE_ID ≠ id then x
      else
        let rs := x.shdTable m
        (copiesOf rs).foldl (fun y c => (upTo (blocksOf rs c)).foldl (fun z k =>
          if first ≤ k && k ≤ last then z.d5Write (z.digestAddr m c k) (leBytes 4 (z.shdDigest m c k).toNat) else z) y) x) b

/-- A page soft reset of SHD: the walk restarts at block 0 (R147). -/
def Block.shdPageReset (b : Block) : Block := b.withTbl { b.tbl with reread := [], walkPos := 0, walkFrom := b.ticks }

end Sys2Proof.Machine
end

