-- ==== Sys2Proof/Machine/TickRow.lean ====
section
/-! DEFINITION. The TICK command, what follows a tick wherever it fires (R35, R36, R432), and the idle cycle of an empty
command queue. -/

namespace Sys2Proof.Machine

/-- The firmware takes packets from the buffer of the sorus rings while it runs and is ready: how many in a tick is a free value (R447).
DESIGN CHOICE, safe: log entry 216. -/
def Block.puntsTaken (b : Block) : Block :=
  if b.fw.punts.isEmpty || !b.flag FWM.FW_STS FWM.FW_STS_READY then b
  else { b with fw := { b.fw with punts := b.fw.punts.drop ((Config.freeValue b.draws).toNat % (b.fw.punts.length + 1)) } }.drawn

/-- What a tick brings beside the measures, if one has fired since `n` ticks had: the DDR5 measures start anew, the sweeper of the
counter cache keeps its pace (R426), the snapshot asked for by `SNAP_CTL.NOW` is taken (R432), and the firmware takes punts (R447). -/
def Block.tickAfter (n : Nat) (b : Block) : Block := if b.time.fired = n then b else b.d5Tick.cntTick.snapTick.puntsTaken

/-- Run an operation that may step network time over a boundary. -/
def Block.withTick (b : Block) (act : Block → Block) : Block := (act b).tickAfter b.time.fired

/-- Network time reaches the next boundary from below (R35): the time passes, the tick fires, and `PPS_OUT` rises where the
second ends there (R375). -/
def Block.tick (b : Block) : Block :=
  let b1 := (b.advance (b.cyclesFor b.toBoundary)).tickFire
  (if b1.nowNs < 125000 then b1.ppsOut else b1).tickAfter b.time.fired

/-- The TICK command: the drift test of the wire groups, averaged over two ticks, may name one (R29). -/
def Block.tickRow (b : Block) (drift : Option (BitVec 5)) : Block :=
  if coreOn b.mode.mode then
    match drift with
    | none => b.tick
    | some g => b.tick.driftEvent g.toNat 1
  else b

/-- One ns in which no command comes: with the core on, network time counts on, and a tick fires where it reaches a boundary (R35,
R368); in the other powered modes only the time since power-on passes. -/
def Block.idle (b : Block) : Block :=
  if coreOn b.mode.mode then
    if b.cyclesFor b.toBoundary ≤ 1 then b.tick else b.advance 1
  else if b.mode.mode = .unpowered && !b.mode.vaux then b
  else { b with time := { b.time with elapsed := b.time.elapsed + 1 } }

end Sys2Proof.Machine
end

