-- ==== Sys2Proof/Machine/PageReset.lean ====
section
/-! DEFINITION. Page soft resets (R403, R485) and the other commands of PAGE_CTL: FREEZE and ERR_CLR (R403, R405). -/

namespace Sys2Proof.Machine

/-- A page soft reset of PCI disables every ring and clears its errors (R403, R413). -/
def Block.pciPageReset (b : Block) : Block :=
  (upTo 69).foldl (fun y r =>
    let z := if y.flag (PCI.RING_CFG r) PCI.RING_CFG_ENABLE then
        (if y.flag (PCI.RING_STS r) PCI.RING_STS_STOPPED then y else y.ringOff r).setFld (PCI.RING_CFG r) PCI.RING_CFG_ENABLE 0
      else y
    z.setFld (PCI.RING_STS r) PCI.RING_STS_ERR 0) b

/-- A page soft reset of BRG abandons a return to full width, with WIDTH_FAIL clear (R485). -/
def Block.brgPageReset (b : Block) : Block :=
  (b.setFld BRG.CTL BRG.CTL_WIDTH_REQ 0).setFld BRG.STS BRG.STS_WIDTH_FAIL 0

/-- A page soft reset of TMB: slew, arming and counters clear, and a servo that follows edges returns to ACQUIRE (R393). -/
def Block.tmbPageReset (b : Block) : Block :=
  let b1 := (({ b with time := { b.time with slewLeft := 0 } }).todClear).clearRange 0x40400 0x4041F
  if b1.servo = stAcquire || b1.servo = stLocked || b1.servo = stHoldover then b1.setServo stAcquire else b1

/-- A page soft reset of ANC discards every entry with a CANCELLED event; the master abandons coordinated entries not yet
confirmed (R393). -/
def Block.ancPageReset (b : Block) : Block :=
  b.anchors.foldl (fun y e =>
    let z := if e.coord && e.state = .held && y.mode.role = roleMaster then y.cscToAll (.abandon (BitVec.ofNat 16 e.tag)) else y
    ((z.ancDrop e.tag).count ANC.CANCELLED_LO 3).event 5 0x0A 0x02 (leBytes 2 e.tag)) b

/-- A page soft reset of CSC: the links retrain, and held entries are treated as at a lost CONFIRM (R391, R393). -/
def Block.cscPageReset (b : Block) : Block :=
  let b1 := (upTo 4).foldl (fun y j => (y.setFld (CSC.LINK_STS j) CSC.LINK_STS_LANES_UP 0).linkDown j) b
  b1.anchors.foldl (fun y e => y.unconfirm e.tag) b1

/-- A page soft reset of FRDn (R89): the packets in its parser and pinnae are dropped; its counters and its shadow calendar
clear.
DEDUCED, unsafe: log entry 35. -/
def Block.frdPageReset (b : Block) (f : Nat) : Block :=
  let x := b.frond f
  let ids := (x.parser ++ x.pinnae).filterMap (fun p => if f < 8 then none else p.pkt.store)
  let b1 := ids.foldl (fun y id => y.loseEg id) (b.setFrond f { x with parser := [], pinnae := [] })
  ((b1.clearRange (FRD.ENTERED_LO f) (FRD.CNT_WRAP f)).clearRange (FRD.CAL_SHADOW f 0) (FRD.CAL_SHADOW f 63)).drainCheck

/-- A page soft reset of PRS clears every PRS counter with its WRAP bit (R101). -/
def Block.prsPageReset (b : Block) : Block :=
  (b.clearRange (PRS.MAL_CNT_IN_LO 0) PRS.ADV_REFUSED_HI).clearRange (PRS.STAGE_FULL_LO 0) (PRS.BRIDGE_LIMIT_HI 255)

/-- A page soft reset of QMG (R214): every queued packet and reservation is discarded and every peat block freed, without
counting.
DEDUCED, unsafe: log entry 59. -/
def Block.qmgPageReset (b : Block) : Block :=
  let held : List (Nat × Option Assembly) := b.td.store.assembling
  let b1 := held.foldl (fun y e => y.discardAssembly e.1 true) b
  let qs : List (Nat × Queue) := b1.td.store.queues
  let b2 := (qs.foldl (fun y e => y.purgeQueue e.1 false) b1).movesSettle
  b2.withStore { b2.td.store with profUntil := 0, writeWait := [], readWait := [] }

/-- A page soft reset of PEAT: every block held in a middle is lost (R200, R214). -/
def Block.peatPageReset (b : Block) : Block := (upTo 16).foldl (fun y l => y.losePeat l) b

/-- A page soft reset of SVC: the link retrains; queued requests and the kept response are discarded (R474). -/
def Block.svcPageReset (b : Block) : Block :=
  let b1 := { b with svc := { b.svc with queue := [], kept := none } }
  if b1.flag SVC.STS SVC.STS_LINK_UP then (b1.setFld SVC.STS SVC.STS_LINK_UP 0).intRaw 0x61 0 else b1

/-- A page soft reset of FWM: the download is aborted and the mailbox command ends TIMEOUT (R474). -/
def Block.fwmPageReset (b : Block) : Block :=
  let b1 := if b.receiving then b.updAbort else b
  if b1.mbBusy then b1.mbEnd 4 else b1

/-- The effects that the chapter of a page gives for its soft reset (R403). -/
def Block.pageReset (b : Block) (p : Nat) : Block :=
  match p with
  | 0x01 => b.pciPageReset
  | 0x02 => b.clearReg WIN.APERTURE_BASE
  | 0x03 => b.brgPageReset
  | 0x04 => b.tmbPageReset
  | 0x05 => b.ancPageReset
  | 0x06 => b.cscPageReset
  | 0x07 => b.chkPageReset
  | 0x08 => b.pmcPageReset
  | 0x20 => b.prsPageReset
  | 0x21 => b.clearRange PAY.SCANNED_LO PAY.MULTIS_HI
  | 0x22 => b.lkpPageReset
  | 0x23 => b.lrnPageReset
  | 0x24 => b.shdPageReset
  | 0x25 => b.tcmPageReset
  | 0x38 => b.flxReset
  | 0x39 => b.otnReset
  | 0x61 => b.svcPageReset
  | 0x62 => b.fwmPageReset
  | 0x63 => b.pwrPageReset
  | 0x80 => b.qmgPageReset
  | 0x81 => b.peatPageReset
  | 0x82 => b.schPageReset
  | 0x83 => b.kclPageReset
  | 0x84 => b.d5mPageReset
  | 0x85 => b.cntPageReset
  | _ =>
    if 0x10 ≤ p && p < 0x20 then b.frdPageReset (p - 0x10)
    else if 0x30 ≤ p && p < 0x38 then b.linReset (p - 0x30)
    else if 0x90 ≤ p && p < 0x9C then b.fabPageReset (p - 0x90)
    else if 0xA0 ≤ p && p < 0xB1 then ((b.d5cPageReset (p - 0xA0)).setReg (HDR.ERR_ADDR p) 0#32).setReg (HDR.ERR_INFO p) 0#32
    else b

/-- FREEZE rises: the page's counters are held at their values.
DEDUCED, unsafe: log entry 14. -/
def Block.freeze (b : Block) (p : Nat) : Block :=
  let held : List (Nat × Word) := b.regs.filter (fun e => e.1 / 0x10000 = p && (match regOf e.1 with
    | some r => r.ctr
    | none => false))
  held.foldl (fun y e => { y with frozen := NMap.put y.frozen e.1 e.2 }) b

/-- FREEZE falls: the page's counters show again. -/
def Block.thaw (b : Block) (p : Nat) : Block := { b with frozen := b.frozen.filter (fun e => e.1 / 0x10000 ≠ p) }

/-- ERR_CLR clears the captured error, which arms the capture again (R405). -/
def Block.errClr (b : Block) (p : Nat) : Block :=
  ((b.setFld (HDR.PAGE_CTL p) HDR.PAGE_CTL_ERR_CLR 0).setReg (HDR.ERR_ADDR p) 0#32).setReg (HDR.ERR_INFO p) 0#32

/-- SOFT_RESET is taken: GLB and AUX have none, so their bit reads 0 again; another page begins its reset (R403).
DEDUCED, unsafe: log entry 147. -/
def Block.softReset (b : Block) (p : Nat) : Block :=
  if p = 0 || p = 0x60 then b.setFld (HDR.PAGE_CTL p) HDR.PAGE_CTL_SOFT_RESET 0 else b.pageReset p

/-- The effect of a write of PAGE_CTL: ERR_CLR, FREEZE, then SOFT_RESET (R403, R405). -/
def effPageCtl (p : Nat) (w : WriteOut) (old : Word) (b : Block) : Block :=
  let b1 := if fldGet HDR.PAGE_CTL_ERR_CLR w.took = 1 then b.errClr p else b
  let was := fldGet HDR.PAGE_CTL_FREEZE old
  let now := fldGet HDR.PAGE_CTL_FREEZE w.value
  let b2 := if was = 0 && now = 1 then b1.freeze p else if was = 1 && now = 0 then b1.thaw p else b1
  if fldGet HDR.PAGE_CTL_SOFT_RESET w.took = 1 && fldGet HDR.PAGE_CTL_SOFT_RESET old = 0 then b2.softReset p else b2

/-- A page soft reset ends (R403). -/
def Block.pageResetEnd (b : Block) (p : Nat) : Block := b.setFld (HDR.PAGE_CTL p) HDR.PAGE_CTL_SOFT_RESET 0

end Sys2Proof.Machine
end

