-- ==== Sys2Proof/Machine/RegView.lean ====
section
/-! DEFINITION. What a read of a register gives: the registers that show other state as it stands, the page header (R38, R403 to
R407), and the counters that FREEZE holds (R403). -/

namespace Sys2Proof.Machine

/-- A number as a register word. -/
def word (n : Nat) : Word := BitVec.ofNat 32 n

/-- The header of a page as it stands, by offset (R38, R403 to R406).
DEDUCED, unsafe: log entry 170. -/
def Block.headerNow (b : Block) (src : Source) (p o : Nat) : Word :=
  let stored := b.reg (p * 0x10000 + o)
  match o with
  | 0x10 =>
    word (b2n (b.flag (HDR.PAGE_CTL p) HDR.PAGE_CTL_SOFT_RESET) + 2 * b2n (b.flag (HDR.PAGE_CTL p) HDR.PAGE_CTL_FREEZE)
      + 4 * b2n (b.flag (HDR.ERR_INFO p) HDR.ERR_INFO_VALID) + 8 * b2n (b.intPend p ≠ 0#32))
  | 0x1C => b.intPend p
  | 0x20 => 0#32
  | 0x30 =>
    let overlap := 0x10 ≤ p && p < 0x20 && b.drainCount (p - 0x10) ≠ 0
    word (b.fd.prog.epoch + b2n overlap * 2 ^ 31)
  | 0x34 => word (b2n (b.isArmed p src))
  | _ => stored

/-- GLB, PCI and TMB as they stand (R81, R369, R371, R406, R407, R412). -/
def Block.glbNow (b : Block) (a : Nat) : Word :=
  match arrayIx a (GLB.PEND_SUMMARY 0) 4 32 with
  | some i => word ((upTo 32).foldl (fun n k => if b.intPend (32 * i + k) ≠ 0#32 then bitOn n k else n) 0)
  | none =>
    if a = GLB.PROG_DRAIN then fldPut GLB.PROG_DRAIN_DRAIN_COUNT (b.reg a) b.drainTotal
    else if a = GLB.PROG_DRAIN_LEFT then word (if (b.bankIn 4).isNone then 0 else ceilDiv b.fd.prog.drainLeft 100)
    else b.reg a

/-- The speed and width of the PCIe link, 0 while it is down (R394, R396).
DESIGN CHOICE, unsafe: log entry 143. -/
def Block.pcieLink (b : Block) : Nat :=
  match b.reach .host 1 0 with
  | .silent => 0
  | _ =>
    let x := Config.pcieLink (max b.mode.perstSince b.mode.railsSince)
    3 + x % 3 + 2 ^ (4 + x / 3 % 5)

/-- PCI: the link, the credit of a ring, and the pending bits of vectors that are masked (R394, R406, R412). -/
def Block.pciNow (b : Block) (a : Nat) : Word :=
  if a = PCI.LINK_STS then word b.pcieLink else
  match arrayIx a (PCI.RING_CREDIT 0) 0x20 69, arrayIx a (PCI.MSIX_PBA 0) 4 16 with
  | some r, _ => word (b.ringCredit r)
  | none, some i => word ((upTo 32).foldl (fun n k =>
      let v := 32 * i + k
      if b.vecSummary v && b.vecArmed v && b.vecMasked v then bitOn n k else n) 0)
  | none, none => b.reg a

/-- TMB: network time, whether an edge was accepted in the last 2.5 s, and whether a slew is in progress (R369, R370, R373). -/
def Block.tmbNow (b : Block) (a : Nat) : Word :=
  if a = TMB.NOW_NS then word b.nowNs
  else if a = TMB.NOW_SEC_LO then word b.nowSec
  else if a = TMB.NOW_SEC_HI then word (b.nowSec / 2 ^ 32 % 2 ^ 16)
  else if a = TMB.STS then
    fldPut TMB.STS_SLEWING (fldPut TMB.STS_PPS_SEEN (b.reg a) (match b.time.sinceEdge with
      | some n => b2n (n < 2500000000)
      | none => 0)) (b2n (b.time.slewLeft ≠ 0))
  else b.reg a

/-- FRDn: the drain count of its slice, the swap gaps and the latency of the active bank (R81, R83). -/
def Block.frdNow (b : Block) (f a : Nat) : Word :=
  if a = FRD.DRAIN_COUNT f then word (b.drainCount f)
  else if a = FRD.SWAP_GAP f then
    match b.bankIn 3, b.bankIn 2 with
    | some x, some y =>
      let old := b.bankImage x
      let new := b.bankImage y
      word (swapGap old new f % 2 ^ 10 + swapGap new old f % 2 ^ 10 * 2 ^ 16)
    | _, _ => 0#32
  else if a = FRD.LATENCY f then
    match b.bankIn 3 with
    | some x =>
      let man := imgManifest (b.bankImage x)
      word (manCycles man f % 2 ^ 10 + manParse man (8 ≤ f) % 2 ^ 10 * 2 ^ 16)
    | none => 0#32
  else b.reg a

/-- PAY, LRN and TCM as they stand (R116, R137, R166, R168, R173). -/
def Block.searchNow (b : Block) (a : Nat) : Word :=
  if a = PAY.SHADOW_BYTES then word (b.patBytes b.payShadow)
  else if a = LRN.FIFO_LEVEL then word b.tbl.fifo.length
  else if a = TCM.GROUP_STS then
    word ((upTo 16).foldl (fun n c =>
      let m := if (b.pendingRows c).isEmpty then n else bitOn n c
      if bitAt b.tcam.flags c then bitOn m (c + 16) else m) 0)
  else
    match arrayIx a (LRN.TBL_COUNT 0) 4 8, arrayIx a (TCM.BANK_STS 0) 4 40 with
    | some n, _ => word (b.lrnHeld n)
    | none, some k => word (b.sparesUsed k + b2n (b.noSpare k) * 2 ^ 7 + b.rowsRetired k * 2 ^ 8)
    | none, none => b.reg a

/-- LINn: a port that is held down shows as down, what a port egress FIFO holds, and that no module is managed in HANDOVER and SPORE
(R213, R281, R308). -/
def Block.linNow (b : Block) (n a : Nat) : Word :=
  match arrayIx a (LIN.LPORT_SPEED n 0) 4 32, arrayIx a (LIN.EGF_STS n 0) 4 32 with
  | some i, _ => if b.portHeld (32 * n + i) then fldPut LIN.LPORT_SPEED_UP (b.reg a) 0 else b.reg a
  | none, some i =>
    let p := 32 * n + i
    let w1 := fldPut LIN.EGF_STS_WORDS (b.reg a) (b.egf p).words
    let w2 := fldPut LIN.EGF_STS_PACKETS w1 ((b.egf p).pkts.filter (fun k => k.whole)).length
    fldPut LIN.EGF_STS_CT_ACTIVE w2 (b2n (b.ctActive p))
  | none, none =>
    if (arrayIx a (LIN.CAGE_STS n 0) 4 8).isSome && (b.mode.mode = .handover || b.mode.mode = .spore) then
      fldPut LIN.CAGE_STS_RESULT (b.reg a) 5
    else b.reg a

/-- AUX: the mode and its requests (R39, R41). -/
def Block.auxNow (b : Block) (a : Nat) : Word :=
  let m := b.mode
  if a = AUX.MODE_STS then
    word (modeCode m.mode + modeCode m.prev * 2 ^ 4 + m.role * 2 ^ 8 + b2n m.transition * 2 ^ 10
      + (if coreOn m.mode then b.condNow else 0) * 2 ^ 16 + m.cause * 2 ^ 24)
  else if a = AUX.MODE_REQ_STS then word (m.reqResult + sourceCode m.reqSrc * 2 ^ 4 + m.reqSeq * 2 ^ 8)
  else b.reg a

/-- FWM: the boot record in force and the slot headers (R449, R453). -/
def Block.fwmNow (b : Block) (a : Nat) : Word :=
  let r := b.nv.boot
  if a = FWM.BOOT_REC then
    word (r.selected + r.layout * 2 + b2n r.trial * 2 ^ 2 + r.trialCount * 2 ^ 4 + b2n r.fallbackValid * 2 ^ 6
      + r.settingsActive * 2 ^ 7 + b2n r.quarantine * 2 ^ 8 + b2n r.rejected * 2 ^ 9)
  else if a = FWM.BOOT_SEQ then word r.seq
  else if a = FWM.MIN_SVN then word r.minSvn
  else
    match arrayIx a (FWM.SLOT_STS 0) 4 2, arrayIx a (FWM.FW_VER 0) 4 2 with
    | some s, _ =>
      fldPut FWM.SLOT_STS_SPAN (fldPut FWM.SLOT_STS_STATE (b.reg a) (b.nv.hdr s).state) (b2n (b.nv.hdr s).span)
    | none, some s => word (b.nv.hdr s).version
    | none, none => b.reg a

/-- PWR: the states of the groups, and the residency of the group selected (R478, R482). -/
def Block.pwrNow (b : Block) (a : Nat) : Word :=
  let g := b.fld PWR.RES_SEL PWR.RES_SEL_GROUP
  let wrap (k : Nat) : Nat := b2n (bitAt (b.pwrGroup g).wraps k) * 2 ^ 31
  match arrayIx a (PWR.GSTS 0) 4 46, arrayIx a (PWR.RES_LO 0) 8 5, arrayIx a (PWR.RES_HI 0) 8 5 with
  | some k, _, _ => fldPut PWR.GSTS_DEEPEST (fldPut PWR.GSTS_STATE (b.reg a) (b.groupState k)) (b.deepest k)
  | none, some s, _ => word (b.residency g s)
  | none, none, some s => word (b.residency g s / 2 ^ 32 % 2 ^ 16 + wrap s)
  | none, none, none =>
    if a = PWR.WAKES_LO then word (b.pwrGroup g).wakes
    else if a = PWR.WAKES_HI then word ((b.pwrGroup g).wakes / 2 ^ 32 % 2 ^ 16 + wrap 5)
    else b.reg a

/-- QMG, PEAT, SCH and KCL as they stand (R186, R194, R239, R260, R267). -/
def Block.queuesNow (b : Block) (a : Nat) : Word :=
  if a = QMG.SWARD_FREE then word (0x9C000 - (upTo 8).foldl (fun n p => n + b.poolUsed p) 0)
  else if a = PEAT.BLOCKS then word b.peatBlocks
  else if a = PEAT.FREE then word b.peatFree
  else if a = PEAT.STS then
    let w1 := fldPut PEAT.STS_FULL (b.reg a) (b2n (b.peatFree = 0))
    fldPut PEAT.STS_READ_WAIT (fldPut PEAT.STS_WRITE_WAIT w1 (b2n (!b.writeWaits.isEmpty))) (b2n (!b.readWaits.isEmpty))
  else if a = QMG.PROF_STS then if b.profBusy then fldPut QMG.PROF_STS_STATE (b.reg a) 1 else b.reg a
  else if a = SCH.STS then if b.schBusy then fldPut SCH.STS_STATE (b.reg a) 1 else b.reg a
  else if a = SCH.CTX_USED then word b.td.sched.contexts.length
  else if a = KCL.RESEQ_STS then
    let ctxs : List (Nat × Reseq) := b.td.fab.contexts
    word (b.resHeld + (ctxs.filter (fun e => !e.2.synced && !e.2.held.isEmpty)).length * 2 ^ 16)
  else
    match arrayIx a (QMG.POOL_STS 0) 0x10 8, arrayIx a (KCL.REACH 0) 4 64 with
    | some p, _ => fldPut QMG.POOL_STS_PRESSURE (fldPut QMG.POOL_STS_USED (b.reg a) (b.poolUsed p)) (b2n (b.pressure p))
    | none, some i => word (b.reachUnion / 2 ^ (32 * i))
    | none, none => b.reg a

/-- D5M as it stands (R198, R339, R342 to R344, R358, R363). -/
def Block.d5mNow (b : Block) (a : Nat) : Word :=
  if a = D5M.STS then
    let w1 := fldPut D5M.STS_MAPPED (b.reg a) b.d5Mapped
    let w2 := fldPut D5M.STS_SINGLE w1 (b2n ((upTo 8).any b.pairSingle))
    fldPut D5M.STS_REMIRROR w2 (b2n ((upTo 17).any (fun k => b.d5State k = d5Remirror)))
  else if a = D5M.EVAC_STS then fldPut D5M.EVAC_STS_PERCENT (b.reg a) b.evacPercent
  else if a = D5M.TABLE_SIZE_LO then word b.tableSize
  else if a = D5M.TABLE_SIZE_HI then word (b.tableSize / 2 ^ 32)
  else if a = D5M.LINK_BASE_LO then word b.linkBase
  else if a = D5M.LINK_BASE_HI then word (b.linkBase / 2 ^ 32)
  else if a = D5M.PEAT_USABLE then word b.peatUsable
  else if a = D5M.EFF_BUDGET then word (b.effWrite + b.effRead * 2 ^ 16)
  else
    match arrayIx a (D5M.MAP 0) 4 16 with
    | some l => fldPut D5M.MAP_SINGLE (b.reg a) (b2n (b.flag a D5M.MAP_VALID && b.pairSingle (l / 2)))
    | none => b.reg a

/-- CNT: the state of the cache and of the write-back queue (R423, R427). -/
def Block.cntNow (b : Block) (a : Nat) : Word :=
  if a = CNT.STS then fldPut CNT.STS_QUEUE_HALF (fldPut CNT.STS_NO_CACHE (b.reg a) (b2n b.noCache)) (b2n b.wbHalf)
  else if a = CNT.OP_STS then if b.cntBusy then fldPut CNT.OP_STS_STATE (b.reg a) 1 else b.reg a
  else b.reg a

/-- What a register at offset 0x100 or above reads as it stands, by page. -/
def Block.bodyNow (b : Block) (p a : Nat) : Word :=
  match p with
  | 0x00 => b.glbNow a
  | 0x01 => b.pciNow a
  | 0x04 => b.tmbNow a
  | 0x21 => b.searchNow a
  | 0x23 => b.searchNow a
  | 0x25 => b.searchNow a
  | 0x60 => b.auxNow a
  | 0x62 => b.fwmNow a
  | 0x63 => b.pwrNow a
  | 0x80 => b.queuesNow a
  | 0x81 => b.queuesNow a
  | 0x82 => b.queuesNow a
  | 0x83 => b.queuesNow a
  | 0x84 => b.d5mNow a
  | 0x85 => b.cntNow a
  | _ => if 0x10 ≤ p && p < 0x20 then b.frdNow (p - 0x10) a else if 0x30 ≤ p && p < 0x38 then b.linNow (p - 0x30) a else b.reg a

/-- What a register reads: 0 at an offset that no register has (R10), the value that FREEZE holds (R403), or what stands, within
the bits that exist. -/
def Block.regNow (b : Block) (src : Source) (a : Nat) : Word :=
  let p := a / 0x10000
  match regOf a with
  | none => 0#32
  | some r =>
    if r.ctr && b.flag (HDR.PAGE_CTL p) HDR.PAGE_CTL_FREEZE then NMap.get (resetOf a) b.frozen a &&& maskOf a
    else (if a % 0x10000 < 0x100 then b.headerNow src p (a % 0x10000) else b.bodyNow p a) &&& maskOf a

/-- The key of a latch: the register and the source that read its low word (R12). -/
def latchKey (src : Source) (a : Nat) : Nat := a + 2 ^ 26 * sourceCode src

/-- Latch a register for a source.
DEDUCED, safe: log entry 13. -/
def Block.latch (b : Block) (src : Source) (a : Nat) : Block :=
  { b with latches := NMap.put b.latches (latchKey src a) (b.regNow src a) }

/-- What a read of a low word latches: the high word of its pair (R12); NOW_NS and PPS_CAP_NS latch both words of the seconds
(R369, R371). -/
def latched (a : Nat) : List Nat :=
  if a = TMB.NOW_NS then [TMB.NOW_SEC_LO, TMB.NOW_SEC_HI]
  else if a = TMB.PPS_CAP_NS then [TMB.PPS_CAP_SEC_LO, TMB.PPS_CAP_SEC_HI]
  else if isPairLo a then [a + 4] else []

/-- Read one register of an assigned page that answers. -/
def Block.readReg (b : Block) (src : Source) (a : Nat) : Block × Word :=
  if 0x100 ≤ a % 0x10000 && b.flag (HDR.PAGE_CTL (a / 0x10000)) HDR.PAGE_CTL_SOFT_RESET then (b, 0#32)
  else
    match NMap.find? b.latches (latchKey src a) with
    | some v => ({ b with latches := NMap.del b.latches (latchKey src a) }, v)
    | none => ((latched a).foldl (fun y k => y.latch src k) b, b.regNow src a)

/-- Read the DWORD at an address that answers or is held in reset (R17, R396, R400). -/
def Block.readWord (b : Block) (src : Source) (a : Nat) : Block × Word :=
  match b.reach src (a / 0x10000) (a % 0x10000) with
  | .answers => if (pageRow (a / 0x10000)).isNone then (b.unmapped, 0#32) else b.readReg src a
  | _ => (b, 0xFFFFFFFF#32)

/-- A read on BAR0 or by the firmware of `n` bytes at an address: one DWORD, or two in an aligned 8-byte block, read whole whatever
the byte enables (R399).
DEDUCED, unsafe: log entry 145. -/
def Block.readBar0 (b : Block) (src : Source) (a n : Nat) : Block :=
  match b.reach src (a / 0x10000) (a % 0x10000) with
  | .silent => b.emitOut .noCompletion
  | _ =>
    let last := a + (max n 1) - 1
    if a / 8 ≠ last / 8 then b.emitOut .abort
    else
      let lo := a / 4 * 4
      let r := b.readWord src lo
      if a / 4 = last / 4 then r.1.emitOut (.data (leBytes 4 r.2.toNat) false)
      else
        let h := r.1.readWord src (lo + 4)
        h.1.emitOut (.data (leBytes 4 r.2.toNat ++ leBytes 4 h.2.toNat) false)

/-- A pair of the counter page (R421, R441): zeros at or beyond COUNT. -/
def Block.userPair (b : Block) (i : Nat) : List Byte :=
  let n := b.fld CNT.USER_BASE CNT.USER_BASE_BASE + i
  if n < b.fld CNT.COUNT CNT.COUNT_COUNT then pairBytes (b.pairNow n (b.d5Take (b.pairAddr n) 16).2) else List.replicate 16 0#8

/-- The eight bytes at an aligned offset of BAR4 (R441). -/
def Block.bar4Item (b : Block) (o : Nat) : List Byte :=
  let w (a : Nat) : List Byte := leBytes 4 (b.regNow .host a).toNat
  let pmc (lo hi : Nat) : List Byte :=
    w lo ++ leBytes 4 (fldGet PMC.CNT_HI_CNT (b.regNow .host hi) + fldGet PMC.CNT_HI_OVF (b.regNow .host hi) * 2 ^ 16)
  if o = 0 then leBytes 4 b.nowNs ++ leBytes 4 b.nowSec
  else if 0x100 ≤ o && o < 0x300 then pmc (PMC.CNT_LO ((o - 0x100) / 8)) (PMC.CNT_HI ((o - 0x100) / 8))
  else if 0x400 ≤ o && o < 0x600 then pmc (PMC.SNAP_LO ((o - 0x400) / 8)) (PMC.SNAP_HI ((o - 0x400) / 8))
  else if o = 0x600 then leBytes 4 (b.fld CNT.SNAP_STS CNT.SNAP_STS_ID) ++ w CNT.SNAP_T_NS
  else if 0x1000 ≤ o then bytesAt (b.userPair ((o - 0x1000) / 16)) (o % 16) 8
  else List.replicate 8 0#8

/-- The channels see a read of a pair through the counter page (R347, R441). -/
def Block.bar4Seen (b : Block) (o : Nat) : Block :=
  let n := b.fld CNT.USER_BASE CNT.USER_BASE_BASE + (o - 0x1000) / 16
  if 0x1000 ≤ o && n < b.fld CNT.COUNT CNT.COUNT_COUNT then (b.d5Take (b.pairAddr n) 16).1 else b

/-- The key of a latched half of BAR4 (R442). -/
def bar4Key (o : Nat) : Nat := 2 ^ 32 + o

/-- The DWORD at an offset of BAR4: a latched one is used once (R442). -/
def Block.bar4Word (b : Block) (o : Nat) : Block × Word :=
  match NMap.find? b.latches (bar4Key o) with
  | some v => ({ b with latches := NMap.del b.latches (bar4Key o) }, v)
  | none => (b.bar4Seen o, word (leAt (b.bar4Item (o / 8 * 8)) (o % 8) 4))

/-- Latch DWORDs of BAR4 as they stood in `was`. -/
def Block.bar4Latch (b was : Block) (os : List Nat) : Block :=
  os.foldl (fun y o => { y with latches := NMap.put y.latches (bar4Key o) (word (leAt (was.bar4Item (o / 8 * 8)) (o % 8) 4)) }) b

/-- A read of BAR4 of `n` bytes at an offset (R441, R442).
DEDUCED, unsafe: log entry 144. -/
def Block.readBar4 (b : Block) (o n : Nat) : Block :=
  match b.reach .host 1 0x100 with
  | .silent => b.emitOut .noCompletion
  | _ =>
    if o % 4 ≠ 0 || n % 4 ≠ 0 || n = 0 || o / 64 ≠ (o + n - 1) / 64 then b.emitOut .abort
    else if !coreOn b.mode.mode || b.mode.mode = .bringUp then b.emitOut (.data (List.replicate n 0xFF#8) false)
    else
      let bs := (upTo (n / 4)).foldl (fun (r : Block × List Byte) k =>
        let x := r.1.bar4Word (o + 4 * k)
        (x.1, r.2 ++ leBytes 4 x.2.toNat)) (b, [])
      let b1 := bs.1
      let b2 :=
        if (NMap.find? b.latches (bar4Key o)).isSome then b1
        else if n = 4 && o % 8 = 0 then b1.bar4Latch b [o + 4]
        else if n = 8 && o % 16 = 0 && 0x1000 ≤ o then b1.bar4Latch b [o + 8, o + 12]
        else b1
      b2.emitOut (.data bs.2 false)

end Sys2Proof.Machine
end

