-- ==== Sys2Proof/Machine/RegBad.lean ====
section
/-! DEFINITION. The writes that other state makes reserved, page by page, joined (R11). -/

namespace Sys2Proof.Machine

/-- Index of an address in a doubly indexed array of registers. -/
def arrayIx2 (a first s1 c1 s2 c2 : Nat) : Option (Nat × Nat) :=
  let d := a - first
  if first ≤ a && d / s1 < c1 && d % s1 % s2 = 0 && d % s1 / s2 < c2 then some (d / s1, d % s1 / s2) else none

/-- TMB: FREQ_ADJ is written in HOST alone, within its range (R368, R373), a slew lies within ±1,000,000 ns (R370), and a SyncE
output gives at most 200 MHz (R376).
PRESUMED, unsafe: log entry 90. -/
def Block.badTmb (b : Block) (a : Nat) (v : Word) : List Nat :=
  let s := toSigned 32 v.toNat
  if a = TMB.FREQ_ADJ then badIf (b.servo ≠ stHost || 1000000000 < s.natAbs) 0
  else if a = TMB.SLEW_NS then badIf (1000000 < s.natAbs) 0
  else
    match arrayIx a (TMB.SYNCE_CFG 0) 4 2 with
    | none => []
    | some _ =>
      let n := wf v TMB.SYNCE_CFG_SLICE
      let l := wf v TMB.SYNCE_CFG_LANE
      let rate := b.fld (LIN.LANE_CFG n l) LIN.LANE_CFG_RATE
      let otn := match b.laneOwner n l with
        | some (.otn _) => true
        | _ => false
      let least := if otn then [54, 0, 140, 0, 560, 0].getD rate 0 else [52, 129, 133, 266, 532, 1063].getD rate 0
      badIf (wf v TMB.SYNCE_CFG_DIV < max 1 least) 0

/-- PMC: an INSTANCE beyond the range of the counter's event (R437, R438). -/
def Block.badPmc (b : Block) (a : Nat) (v : Word) : List Nat :=
  match arrayIx a (PMC.INST 0) 0x20 64 with
  | none => []
  | some n => match pmcInstances (b.fld (PMC.CFG n) PMC.CFG_EVENT) with
    | none => []
    | some k => badIf (k ≤ wf v PMC.INST_INSTANCE) 0

/-- LINn: RATE under ENABLE, the settings of an enabled MAC port, pause thresholds (R289), and the shares of the port egress FIFOs
(R208, R277, R283). -/
def Block.badLin (b : Block) (n a : Nat) (old v : Word) : List Nat :=
  match arrayIx a (LIN.LANE_CFG n 0) 4 8, arrayIx a (LIN.MAC_CFG n 0) 0x20 16, arrayIx a (LIN.MAC_PFC_THR n 0) 0x20 16,
    arrayIx a (LIN.EGF_CFG n 0) 4 32 with
  | some _, _, _, _ => badLineLane old v
  | none, some _, _, _ => badOwner macSettings old v
  | none, none, some _, _ => if wf v LIN.MAC_PFC_THR_XOFF ≤ wf v LIN.MAC_PFC_THR_XON then [0, 16] else []
  | none, none, none, some p =>
    let others := (upTo 32).foldl (fun s q => if q = p then s else s + b.fld (LIN.EGF_CFG n q) LIN.EGF_CFG_SHARE) 0
    badIf (1024 < others + wf v LIN.EGF_CFG_SHARE) 0
  | none, none, none, none => []

/-- FLX and OTN: BASE_SLICE of a spanning group, and the settings of enabled owners (R283, R290). -/
def badFlex (a : Nat) (old v : Word) : List Nat :=
  match arrayIx a (FLX.GRP_CFG 0) 0x80 8, arrayIx2 a (FLX.PHY_CFG 0 0) 0x80 8 4 8, arrayIx a (OTN.CFG 0) 0x100 64 with
  | some _, _, _ => badGrpCfg old v
  | none, some _, _ => badOwner phySettings old v
  | none, none, some _ => badOwner otnSettings old v
  | none, none, none => []

/-- FRDn and SCH: the shadow calendars' two entries of a word, each with a primary and a secondary owner; the codes from `low`
to 0x3E name no owner (R55, R231). -/
def badCal (low : Nat) (v : Word) : List Nat :=
  [0, 8, 16, 24].filter (fun lo => let c := wf v ⟨lo, 6⟩
    decide (low ≤ c && c < 0x3F))

/-- QMG: the split outside QUIESCENT or with packets queued (R177), and pool limits beyond the sward (R186). -/
def Block.badQmg (b : Block) (a : Nat) (v : Word) : List Nat :=
  if a = QMG.QSPLIT then badIf (!b.qsplitOk (wf v QMG.QSPLIT_VOQ_COUNT)) 0
  else
    match (upTo 8).find? (fun p => a = poolLimitAddr p) with
    | some p => badIf (!b.poolLimitOk p (wf v QMG.POOL_LIMIT_A_LIMIT)) 0
    | none => []

/-- CNT: the area and its size while the engine runs (R429), and a snapshot range beyond COUNT (R432). -/
def Block.badCnt (b : Block) (a : Nat) (old v : Word) : List Nat :=
  let held := b.flag CNT.STS CNT.STS_RUNNING && decide (old ≠ v)
  let count := b.fld CNT.COUNT CNT.COUNT_COUNT
  if a = CNT.AREA_BASE_LO then badIf held 12
  else if a = CNT.AREA_BASE_HI || a = CNT.COUNT then badIf held 0
  else if a = CNT.SNAP_FIRST then badIf (count < wf v CNT.SNAP_FIRST_FIRST + b.fld CNT.SNAP_COUNT CNT.SNAP_COUNT_COUNT) 0
  else if a = CNT.SNAP_COUNT then badIf (count < b.fld CNT.SNAP_FIRST CNT.SNAP_FIRST_FIRST + wf v CNT.SNAP_COUNT_COUNT) 0
  else []

/-- KCL: DEV_ID changes in QUIESCENT alone (R259). -/
def Block.badKcl (b : Block) (a : Nat) (old v : Word) : List Nat :=
  badIf (a = KCL.CTL && b.mode.mode ≠ .quiescent && wf old KCL.CTL_DEV_ID ≠ wf v KCL.CTL_DEV_ID) 0

/-- The lowest bits of the fields of a write that other state makes reserved (R11). -/
def regBad : BadRule := fun b _src a old v =>
  match a / 0x10000 with
  | 0x01 => badRing b a old v
  | 0x02 => badWin a v
  | 0x04 => b.badTmb a v
  | 0x06 => badCsc b a old v
  | 0x08 => b.badPmc a v
  | 0x38 => badFlex a old v
  | 0x39 => badFlex a old v
  | 0x63 => badRet b a old v
  | 0x80 => b.badQmg a v
  | 0x83 => b.badKcl a old v
  | 0x85 => b.badCnt a old v
  | 0x82 => if (arrayIx2 a (SCH.CAL_SHADOW 0 0) 0x100 8 4 64).isSome then badCal 0x22 v else []
  | p =>
    if 0x30 ≤ p && p < 0x38 then b.badLin (p - 0x30) a old v
    else if 0x10 ≤ p && p < 0x20 && (arrayIx a (FRD.CAL_SHADOW (p - 0x10) 0) 4 64).isSome then badCal 0x23 v
    else []

end Sys2Proof.Machine
end

