-- ==== Sys2Proof/Machine/RegWrite.lean ====
section
/-! DEFINITION. What a write of each register does beside storing its fields, and a write access on BAR0 or from the service
port (R8, R399 to R405). -/

namespace Sys2Proof.Machine

/-- What a command that is a register write meets beside the write: it falls in the island clock of the trigger before (R45); what a
check context reads until it stops (R328, R331); what the maintenance searches of a step-through meet (R170). -/
structure Meets where
  same : Bool := false
  words : Nat := 0
  found : List ScrubWord := []
  seen : TcSeen := {}
deriving DecidableEq, Repr

/-- The effect of a register write. -/
abbrev Effect := WriteOut → Word → Block → Block

/-- A write of 1 to a SAT bit also zeroes the framer counter that it belongs to (R443). `ctr k` is the counter of bit `k`. -/
def effSat (bits : Nat) (ctr : Nat → Nat) : Effect := fun w _ b =>
  (upTo bits).foldl (fun y k => if bitAt w.took.toNat k then y.setReg (ctr k) 0#32 else y) b

/-- INT_FORCE sets the causes that the page defines (R406). -/
def effIntForce (p : Nat) : Effect := fun w _ b =>
  b.setReg (HDR.INT_RAW p) (b.reg (HDR.INT_RAW p) ||| (w.took &&& maskOf (HDR.INT_RAW p)))

/-- A write of `MB_CMD` starts a command, or is discarded while one runs (R472). -/
def effMbCmd (src : Source) : Effect := fun w old b =>
  if b.mbBusy then (b.setReg FWM.MB_CMD old).captureBusy FWM.MB_CMD src 0xFF
  else if w.codeLsb.isSome then b else { b with fw := { b.fw with mbTrasum := none } }.mbStart src

/-- A write of `FWM.WDT`: KICK restarts the period (R446). -/
def effWdt : Effect := fun w _ b => if fldGet FWM.WDT_KICK w.took = 1 then b.kick else b

/-- A write of `THM.STS`: PEAK_CLR (R486). -/
def effThm : Effect := fun w _ b => if fldGet THM.STS_PEAK_CLR w.took = 1 then b.peakClr else b

/-- A write of `KCL.CTL`: the planes that count as up, and the planes expected, are judged anew (R39, R259); the IDLE cells sent so
far carried the number that DEV_ID had. -/
def effKclCtl : Effect := fun _ old b =>
  let b1 := fabLanes.foldl (fun y l => y.flushIdles (fldGet KCL.CTL_DEV_ID old) l) b
  (b1.fabShow b1.reachUnion).follow40

/-- A write of `QMG.POOLp_STS`: clearing CROSSED re-arms both notices (R205). -/
def effPoolSts (p : Nat) : Effect := fun w _ b =>
  if fldGet QMG.POOL_STS_CROSSED w.took = 1 then
    b.withStore { b.td.store with poolFell := bitOff b.td.store.poolFell p }
  else b

/-- Effects on the pages of the FD core below FRD0. -/
def effCore (src : Source) (m : Meets) (p a : Nat) : Effect :=
  match p with
  | 0x00 => if a = GLB.PROG_LOAD_CTL then effProgLoad src else noEff
  | 0x01 =>
    match arrayIx a (PCI.RING_CFG 0) 0x20 69, arrayIx a (PCI.RING_POST 0) 0x20 69 with
    | some r, _ => effRingCfg r
    | none, some r => effRingPost r
    | none, none => if a = PCI.VEC_ACK then effVecAck else noEff
  | 0x03 => if a = BRG.CTL then effBrgCtl else if a = BRG.STS then effBrgSts else noEff
  | 0x04 =>
    if a = TMB.CTL then fun w old b => b.withTick (effTmbCtl src w old)
    else if a = TMB.FREQ_ADJ then effFreq
    else if a = TMB.SLEW_NS then effSlew
    else if (arrayIx a (TMB.SYNCE_CFG 0) 4 2).isSome then fun _ _ b => b.synceUpdate
    else noEff
  | 0x05 => if a = ANC.CMD then effAncCmd else noEff
  | 0x06 => if a = CSC.CTL then effCscCtl else noEff
  | 0x07 =>
    let e := (a - 0x70200) / 0x40
    let k := a - 0x40 * e
    if 0x70600 ≤ a then noEff
    else if k = CHK.CTX_CTL 0 then effChkCtl e src m.words m.found
    else if k = CHK.EXPECT_LO 0 || k = CHK.EXPECT_HI 0 then effChkExpect e a src
    else if k = CHK.RUNNING_LO 0 || k = CHK.RUNNING_HI 0 || k = CHK.DONE_LO 0 || k = CHK.DONE_HI 0 then effChkRunning e a
    else noEff
  | 0x08 =>
    match arrayIx a (PMC.CFG 0) 0x20 64, arrayIx a (PMC.INST 0) 0x20 64, arrayIx a (PMC.THRESH 0) 0x20 64 with
    | some n, _, _ => effPmc n
    | none, some n, _ => effPmc n
    | none, none, some n => effPmc n
    | none, none, none => noEff
  | _ => noEff

/-- Effects on the pages of parsing, tables and TCAM. -/
def effSearch (src : Source) (m : Meets) (p a : Nat) : Effect :=
  match p with
  | 0x20 =>
    match arrayIx a (PRS.RANGE_SHADOW_LOHI 0) 4 128, arrayIx a (PRS.STAGE 0) 4 256 with
    | some _, _ => effRangeShadow a src
    | none, some q => effStage q src
    | none, none => noEff
  | 0x21 => if a = PAY.PAT_CMD then effPatCmd src else noEff
  | 0x22 => if a = LKP.PART_CTL then effPartCtl src else if a = LKP.OP_CTL then effLkpOp src else noEff
  | 0x23 =>
    match arrayIx a (LRN.TBL_CFG 0) 0x10 8, arrayIx a (LRN.TBL_LIMIT 0) 0x10 8 with
    | some n, _ => effTblMode n src
    | none, some n => effTblLimit n src
    | none, none => noEff
  | 0x24 => if a = SHD.REBASE then effRebase else if a = SHD.REBASE_END then effRebaseEnd else noEff
  | 0x25 => if a = TCM.OP_CTL then effTcmOp src else if a = TCM.STEP_CTL then effStepCtl m.seen else noEff
  | _ => noEff

/-- Effects on a LIN page. -/
def effLin (src : Source) (n a : Nat) : Effect :=
  match arrayIx a (LIN.LANE_CFG n 0) 4 8, arrayIx a (LIN.MAC_CFG n 0) 0x20 16, arrayIx a (LIN.LPORT_MAP n 0) 4 32,
    arrayIx a (LIN.MAC_SAT n 0) 0x20 16 with
  | some l, _, _, _ => effLineLane n l src
  | none, some k, _, _ => effOwner (.mac (16 * n + k)) src
  | none, none, some q, _ => effLportMap (32 * n + q) src
  | none, none, none, some _ => effSat 4 (fun k => a - 0x10 + 4 * k)
  | none, none, none, none =>
    match arrayIx a (LIN.MAC_PAUSE n 0) 0x20 16, arrayIx a (LIN.MAC_PFC_THR n 0) 0x20 16 with
    | some k, _ => fun _ _ b => b.txPauseCheck (16 * n + k)
    | none, some k => fun _ _ b => b.txPauseCheck (16 * n + k)
    | none, none => noEff

/-- Effects on FLX and OTN. -/
def effFlex (src : Source) (a : Nat) : Effect :=
  match arrayIx a (FLX.GRP_CFG 0) 0x80 8, arrayIx a (FLX.GRP_CTL 0) 0x80 8, arrayIx2 a (FLX.PHY_CFG 0 0) 0x80 8 4 8,
    arrayIx2 a (FLX.CLIENT 0 0) 0x100 8 4 64 with
  | some g, _, _, _ => effFlexCfg (.group g)
  | none, some g, _, _ => effGrpCtl g src
  | none, none, some x, _ => effOwner (.phy x.1 x.2) src
  | none, none, none, some x => effFlexCfg (.client x.1 x.2)
  | none, none, none, none =>
    match arrayIx2 a (FLX.CAL_A 0 0) 0x1000 8 4 320, arrayIx2 a (FLX.CAL_B 0 0) 0x1000 8 4 320,
      arrayIx2 a (FLX.PHY_SAT 0 0) 0x100 8 0x10 8 with
    | some x, _, _ => effFlexCal x.1 0 a src
    | none, some x, _ => effFlexCal x.1 1 a src
    | none, none, some _ => effSat 3 (fun k => a - 0xC + 4 * k)
    | none, none, none => noEff

/-- Effects on OTN. -/
def effOtn (src : Source) (a : Nat) : Effect :=
  match arrayIx a (OTN.CFG 0) 0x100 64, arrayIx a (OTN.SAT 0) 0x100 64 with
  | some c, _ => effOwner (.otn c) src
  | none, some _ => effSat 9 (fun k => if k = 8 then a + 4 else a - 0x20 + 4 * k)
  | none, none => noEff

/-- Effects on the pages of the management island. -/
def effIsland (src : Source) (m : Meets) (p a : Nat) : Effect :=
  match p with
  | 0x60 => if a = AUX.MODE_REQ then effModeReq src m.same else noEff
  | 0x62 =>
    if a = FWM.UPD_CTL then fun w _ b => effUpdCtl w.took b
    else if a = FWM.WDT then effWdt
    else if a = FWM.MB_CMD then effMbCmd src
    else noEff
  | 0x63 =>
    match arrayIx a (PWR.LTR 0) 4 46, arrayIx a (PWR.RES_HI 0) 8 5 with
    | some g, _ => effLtr g
    | none, some s => fun w _ b => effPwrWrap s w.took b
    | none, none =>
      if a = PWR.SLICE_DRAIN then effSliceDrain src
      else if a = PWR.WAKES_HI then fun w _ b => effPwrWrap 5 w.took b
      else noEff
  | 0x64 => if a = THM.STS then effThm else noEff
  | _ => noEff

/-- Effects on the pages of the TD core. -/
def effTd (src : Source) (p a : Nat) : Effect :=
  match p with
  | 0x80 =>
    if a = QMG.PROF_CMD then effProfCmd src
    else if a = QMG.RAND_SEED then effRandSeed
    else
      match (upTo 8).find? (fun k => a = poolLimitAddr k || a = QMG.POOL_PRESS k || a = QMG.POOL_WM k),
        arrayIx a (QMG.POOL_STS 0) 0x10 8 with
      | some k, _ => fun _ _ b => b.poolCheck k
      | none, some k => effPoolSts k
      | none, none => noEff
  | 0x82 =>
    if a = SCH.SHP_CTL then effShpCtl src
    else if a = SCH.CMD then effSchCmd src
    else if a = SCH.CREDIT_CFG then fun _ _ b => b.voqsCheck
    else noEff
  | 0x83 => if a = KCL.CTL then effKclCtl else noEff
  | 0x84 => if a = D5M.EVAC_CTL then effEvacCtl src else if a = D5M.RETIRE_CMD then effRetire src else noEff
  | 0x85 => if a = CNT.CTL then effCntCtl else if a = CNT.OP_CMD then effCntOp src else noEff
  | _ =>
    if 0x90 ≤ p && p < 0x9C then
      match arrayIx a (FAB.LANE_CFG (p - 0x90) 0) 0x20 8, arrayIx a (FAB.SAT (p - 0x90) 0) 0x20 8 with
      | some k, _ => effFabLane (8 * (p - 0x90) + k)
      | none, some _ => effSat 4 (fun k => a - 0x10 + 4 * k)
      | none, none => if a = FAB.CTL (p - 0x90) then effFabCtl (p - 0x90) else noEff
    else if 0xA0 ≤ p && p < 0xB1 then (if a = D5C.CTL (p - 0xA0) then effD5cCtl (p - 0xA0) src else noEff)
    else noEff

/-- The effect of a write of the register at an address. -/
def effOf (src : Source) (m : Meets) (a : Nat) : Effect :=
  let p := a / 0x10000
  let o := a % 0x10000
  if o = 0xC then effPageCtl p
  else if o = 0x20 then effIntForce p
  else if o < 0x100 then noEff
  else if p < 0x10 then effCore src m p a
  else if 0x20 ≤ p && p < 0x26 then effSearch src m p a
  else if 0x30 ≤ p && p < 0x38 then effLin src (p - 0x30) a
  else if p = 0x38 then effFlex src a
  else if p = 0x39 then effOtn src a
  else if pageIsland p then effIsland src m p a
  else if 0x80 ≤ p then effTd src p a
  else noEff

/-- A value latched for a register that is then written no longer stands for it (R12). -/
def Block.unlatch (b : Block) (src : Source) (a : Nat) : Block := { b with latches := NMap.del b.latches (latchKey src a) }

/-- One DWORD written by a source, with its effect (R8 to R11, R404). -/
def Block.regWriteMeets (b : Block) (m : Meets) (src : Source) (a : Nat) (v : Word) : Block :=
  if a % 0x10000 = 0x34 && (pageRow (a / 0x10000)).isSome then
    match b.reach src (a / 0x10000) 0x34 with
    | .answers => b.lockKey (a / 0x10000) src v
    | _ => b
  else (b.writeWord regBad src a v (effOf src m a)).unlatch src a

/-- One DWORD written by a source. -/
def Block.regWrite (b : Block) (src : Source) (a : Nat) (v : Word) : Block := b.regWriteMeets {} src a v

/-- A write access that the width rules of R399 discard: captured with code 0x04 where its page is assigned and answers. -/
def Block.widthBad (b : Block) (src : Source) (a : Nat) : Block :=
  match b.reach src (a / 0x10000) (a % 0x10000) with
  | .answers =>
    if (pageRow (a / 0x10000)).isNone then b.unmapped
    else (b.disarm (a / 0x10000) src).captureAt (a / 4 * 4) src 0xFF 4
  | _ => b

/-- A write access: one DWORD, or an aligned 8-byte one as two, the lower address first (R399).
DEDUCED, unsafe: log entry 146. -/
def Block.access (b : Block) (x : Access) : Block :=
  let a := x.addr.toNat
  let bs := x.bytes.filterMap id
  if bs.length ≠ x.bytes.length || a % 4 ≠ 0 then b.widthBad x.src a
  else if bs.length = 4 then b.regWrite x.src a (word (leNat bs))
  else if bs.length = 8 && a % 8 = 0 then
    (b.regWrite x.src a (word (leAt bs 0 4))).regWrite x.src (a + 4) (word (leAt bs 4 4))
  else b.widthBad x.src a

end Sys2Proof.Machine
end

