-- ==== Sys2Proof/Machine/Trasum.lean ====
section
/-! DEFINITION. The Trasum protocol of the service port (R459 to R461) and the end of mailbox commands (R472). -/

namespace Sys2Proof.Machine

/-- OP codes of the Trasum protocol (R460). -/
def opDiscover : Nat := 1
def opRead : Nat := 2
def opWrite : Nat := 3
def opFwStart : Nat := 4
def opFwBlock : Nat := 5
def opFwFinish : Nat := 6
def opLogRead : Nat := 7
def opMailbox : Nat := 8
def opFwAbort : Nat := 9

/-- What a request is answered with: STATUS, ARG0 and the payload. -/
structure TAnswer where
  status : Nat := 0
  arg0 : Nat := 0
  payload : List Byte := []
deriving DecidableEq, Repr

/-- The service MAC (R459). -/
def Block.svcMac (b : Block) : Nat := (b.reg SVC.MAC_LO).toNat + b.fld SVC.MAC_HI SVC.MAC_HI_MAC * 2 ^ 32

/-- The peer's MAC (R459). -/
def Block.peerMac (b : Block) : Nat := (b.reg SVC.PEER_LO).toNat + b.fld SVC.PEER_HI SVC.PEER_HI_MAC * 2 ^ 32

/-- The device discards a frame (R459): its FCS, its station, its VERSION, its response bit, its LEN or its source. -/
def Block.trasumBad (b : Block) (op : Nat) (t : Trasum) : Bool :=
  let bcast : Bool := t.dst.toNat = 2 ^ 48 - 1
  !t.fcsOk || (bcast && (op ≠ opDiscover || b.flag SVC.CTL SVC.CTL_NO_DISCOVER)) || (!bcast && t.dst.toNat ≠ b.svcMac)
    || t.version ≠ 1#8 || t.response || t.payload.length < t.len.toNat || 1024 < t.len.toNat
    || (b.flag SVC.CTL SVC.CTL_PEER_EN && t.src.toNat ≠ b.peerMac)

/-- The bytes of a response, in network byte order, padded to the Ethernet minimum, FCS included (R459). -/
def Block.trasumFrame (b : Block) (op : Nat) (t : Trasum) (a : TAnswer) : List Byte :=
  let body := beBytes 6 t.src.toNat ++ beBytes 6 b.svcMac ++ beBytes 2 0x88B5 ++ beBytes 1 1 ++ beBytes 1 (op % 128 + 0x80)
    ++ beBytes 2 t.seq.toNat ++ beBytes 2 a.status ++ beBytes 2 a.payload.length ++ beBytes 4 a.arg0 ++ beBytes 4 t.arg1.toNat
    ++ a.payload
  let whole := body ++ List.replicate (60 - body.length) 0#8
  whole ++ leBytes 4 (fcs32 whole).toNat

/-- A response leaves and is counted. -/
def Block.trasumSend (b : Block) (bs : List Byte) : Block := (b.satAdd SVC.TX_RESPONSES 1).emitOut (.trasum bs)

/-- A request has been executed: its response leaves and is kept, and PEER_SEEN sets (R461). -/
def Block.trasumRespond (b : Block) (op : Nat) (t : Trasum) (a : TAnswer) : Block :=
  let f := b.trasumFrame op t a
  ({ b with svc := { b.svc with kept := some (t.seq.toNat, op, f) } }.setFld SVC.STS SVC.STS_PEER_SEEN 1).trasumSend f

/-- The range of a READ or a WRITE lies outside the island pages, or is not aligned (R460). -/
def trasumRangeBad (t : Trasum) : Bool :=
  let a := t.arg0.toNat
  a % 4 ≠ 0 || a < 0x600000 || 0x650000 < a + 4 * t.arg1.toNat

/-- Count outside 1 to 64. -/
def trasumCountBad (t : Trasum) : Bool := t.arg1.toNat = 0 || 64 < t.arg1.toNat

/-- READ: the DWORDs of the island pages, in address order (R460).
DEDUCED, unsafe: log entry 153. -/
def Block.trasumRead (b : Block) (t : Trasum) : Block × TAnswer :=
  if trasumCountBad t then (b, { status := 3 })
  else if trasumRangeBad t then (b, { status := 2 })
  else
    let r := (upTo t.arg1.toNat).foldl (fun (x : Block × List Byte) k =>
      let w := x.1.readWord .service (t.arg0.toNat + 4 * k)
      (w.1, x.2 ++ beBytes 4 w.2.toNat)) (b, [])
    (r.1, { payload := r.2 })

/-- One access of many DWORDs: an unlock that was armed at its start holds for all of them (R404, R460). `armed` are the pages
whose unlock was armed. -/
def Block.trasumDword (armed : List Nat) (b : Block) (a : Nat) (v : Word) : Block :=
  let p := a / 0x10000
  let b1 := if armed.contains p && !b.isArmed p .service then { b with armed := (p, .service) :: b.armed } else b
  b1.regWrite .service a v

/-- WRITE: the DWORDs are written in address order as one access from the service port (R401, R404, R460). -/
def Block.trasumWrite (b : Block) (t : Trasum) : Block × TAnswer :=
  if trasumCountBad t || t.len.toNat ≠ 4 * t.arg1.toNat then (b, { status := 3 })
  else if trasumRangeBad t then (b, { status := 2 })
  else
    let armed := (upTo 5).filterMap (fun k => if b.isArmed (0x60 + k) .service then some (0x60 + k) else none)
    let bs := t.payload.take t.len.toNat
    ((upTo t.arg1.toNat).foldl (fun y k =>
      y.trasumDword armed (t.arg0.toNat + 4 * k) (word (beNat (bytesAt bs (4 * k) 4)))) b, {})

/-- The answer after a command of the download: REFUSED with the refusal in the low byte of ARG0 (R460). -/
def Block.updAnswer (b : Block) : Block × TAnswer :=
  let r := b.fld FWM.UPD_STS FWM.UPD_STS_REFUSE
  (b, if r = 0 then {} else { status := 5, arg0 := r })

/-- FW_START does what UPD_CTL.START does, with the length and the target of the request (R457, R460). -/
def Block.trasumStart (b : Block) (t : Trasum) : Block × TAnswer := (b.updStart t.arg0.toNat t.arg1.toNat).updAnswer

/-- FW_BLOCK writes 1,024 bytes of the download (R457, R460).
DEDUCED, unsafe: log entry 154. -/
def Block.trasumBlock (b : Block) (t : Trasum) : Block × TAnswer :=
  if t.len.toNat ≠ 1024 then (b, { status := 3 })
  else if !b.receiving then (b, { status := 5 })
  else if b.blockBad t.arg0.toNat 1024 then (b, { status := 2 })
  else (b.updBlock t.arg0.toNat (t.payload.take 1024), {})

/-- LOG_READ: records of the log by their offset (R460, R473). -/
def Block.trasumLog (b : Block) (t : Trasum) : Block × TAnswer :=
  let n := t.arg1.toNat
  let o := t.arg0.toNat
  if n % 64 ≠ 0 || n = 0 || 1024 < n then (b, { status := 3 })
  else if o % 64 ≠ 0 || 2 ^ 21 < o + n then (b, { status := 2 })
  else (b, { payload := (upTo n).map (fun i => b.nv.byte (0x3900000 + o + i)) })

/-- The command of the mailbox is one of MDIO, whose data is one 16-bit number. -/
def mbMdio (cmd : Nat) : Bool := cmd = 3 || cmd = 4

/-- The data that a mailbox command returned, as Trasum carries it (R460, R472). -/
def Block.mbReturned (b : Block) : List Byte :=
  let cmd := b.fld FWM.MB_CMD FWM.MB_CMD_CMD
  if b.fld FWM.MB_STS FWM.MB_STS_STATE ≠ 2 then []
  else if cmd = 1 then b.mbData (b.fld FWM.MB_ARG1 ⟨8, 8⟩)
  else if cmd = 3 then (b.mbData 2).reverse
  else []

/-- The answer to a MAILBOX request: MB_STS and the data (R460). -/
def Block.mailboxAnswer (b : Block) : TAnswer :=
  { payload := beBytes 4 (b.regNow .service FWM.MB_STS).toNat ++ b.mbReturned }

/-- A MAILBOX request starts its command: MB_ARG0, MB_ARG1 and the data are written, then MB_CMD (R460, R472). An answer where it
ends at once.
DEDUCED, unsafe: log entry 152. -/
def Block.trasumMailbox (b : Block) (t : Trasum) : Block × Option TAnswer :=
  if b.mode.mode = .spore then (b, some { status := 5 })
  else if b.mbBusy then (b, some { status := 4 })
  else if t.len.toNat < 8 || 136 < t.len.toNat then (b, some { status := 3 })
  else
    let bs := t.payload.take t.len.toNat
    let cmd := t.arg0.toNat
    let data := if mbMdio cmd then (bs.drop 8).take 2 |>.reverse else bs.drop 8
    let b1 := (b.regWrite .service FWM.MB_ARG0 (word (beNat (bytesAt bs 0 4)))).regWrite .service FWM.MB_ARG1
      (word (beNat (bytesAt bs 4 4)))
    let b2 := b1.setMbData data
    let b3 := b2.regWrite .service FWM.MB_CMD t.arg0
    if b3.mbBusy then ({ b3 with fw := { b3.fw with mbTrasum := some t } }, none) else (b3, some b3.mailboxAnswer)

/-- DISCOVER: the part, the mode, CHIP_UID and the service MAC (R460). -/
def Block.trasumDiscover (b : Block) : TAnswer :=
  { payload := beBytes 4 0x128000B0 ++ beBytes 1 (modeCode b.mode.mode) ++ beBytes 8 b.nv.uid ++ beBytes 6 b.svcMac }

/-- A request is executed (R460, R461). -/
def Block.trasumExecute (b : Block) (op : Nat) (t : Trasum) : Block :=
  if op = opMailbox then
    match b.trasumMailbox t with
    | (b1, some a) => b1.trasumRespond op t a
    | (b1, none) => b1.setFld SVC.STS SVC.STS_PEER_SEEN 1
  else
    let r : Block × TAnswer :=
      if op = opDiscover then (b, b.trasumDiscover)
      else if op = opRead then b.trasumRead t
      else if op = opWrite then b.trasumWrite t
      else if op = opFwStart then b.trasumStart t
      else if op = opFwBlock then b.trasumBlock t
      else if op = opFwFinish then b.updFinish.updAnswer
      else if op = opLogRead then b.trasumLog t
      else if op = opFwAbort then (b.updAbort, {})
      else (b, { status := 1 })
    r.1.trasumRespond op t r.2

/-- A request whose SEQ and OP equal those of the last one executed is answered with the kept response; another is executed
(R461). -/
def Block.trasumServe (b : Block) (op : Nat) (t : Trasum) : Block :=
  match b.svc.kept with
  | some k => if k.1 = t.seq.toNat && k.2.1 = op then (b.satAdd SVC.DUPLICATES 1).trasumSend k.2.2 else b.trasumExecute op t
  | none => b.trasumExecute op t

/-- The service port works: the device is powered, the port is enabled and its link is up (R459).
DEDUCED, unsafe: log entry 155. -/
def Block.svcRuns (b : Block) : Bool :=
  b.mode.mode ≠ .unpowered && b.flag SVC.CTL SVC.CTL_ENABLE && b.flag SVC.STS SVC.STS_LINK_UP

/-- A Trasum frame arrives (R459, R461). -/
def Block.trasumIn (b : Block) (op : Nat) (t : Trasum) : Block :=
  if !b.svcRuns then b
  else if b.trasumBad op t then (b.satAdd SVC.RX_DISCARDED 1).intRaw 0x61 1
  else
    let b1 := b.satAdd SVC.RX_ACCEPTED 1
    if b1.fw.mbTrasum.isSome then
      if b1.svc.queue.length < 8 then { b1 with svc := { b1.svc with queue := b1.svc.queue ++ [(op, t)] } }
      else b1.trasumSend (b1.trasumFrame op t { status := 4 })
    else b1.trasumServe op t

/-- Serve the requests that wait, until one of them waits for the mailbox again. -/
def Block.trasumDrain : Nat → Block → Block
  | 0, b => b
  | n + 1, b =>
    match b.svc.queue with
    | [] => b
    | (op, t) :: rest =>
      if b.fw.mbTrasum.isSome then b
      else Block.trasumDrain n (({ b with svc := { b.svc with queue := rest } }).trasumServe op t)

/-- A mailbox command that a MAILBOX request waits for has ended: it is answered, and the requests behind it are served (R461,
R472). -/
def Block.mbAnswer (b : Block) : Block :=
  match b.fw.mbTrasum with
  | none => b
  | some t =>
    if b.mbBusy then b
    else
      let b1 := { b with fw := { b.fw with mbTrasum := none } }
      Block.trasumDrain 9 (if b1.svcRuns then b1.trasumRespond opMailbox t b1.mailboxAnswer else b1)

end Sys2Proof.Machine
end

