-- ==== Sys2Proof/Machine/Upkeep.lean ====
section
/-! DEFINITION. Commands of the board and of the island: a sample of the junction sensors (R486, R487), a reference clock that
stops (R502), the service port's link (R459), and a firmware block on ring 68 (R458). -/

namespace Sys2Proof.Machine

/-- THERM_N is pulled low until the next power-on (R506). -/
def Block.thermPull (b : Block) : Block := { b with mode := { b.mode with thermLow := true } }

/-- HARD_OFF is reported and logged (R487). -/
def Block.hardOffTell (b : Block) (i : Nat) : Block := ((b.event 0x64 0x0D 9 (leBytes 1 i)).logRec 0x0D 9 0 (leBytes 1 i)).thermPull

/-- SHUTDOWN sets when its limit is reached, with its event (R487).
DEDUCED, unsafe: log entry 157. -/
def Block.shutdown (b : Block) (i : Nat) : Block :=
  let b1 := if b.flag THM.STS THM.STS_SHUTDOWN then b
    else (((b.thermPull).setFld THM.STS THM.STS_SHUTDOWN 1).intRaw 0x64 1).event 0x64 0x0D 8 (leBytes 1 i)
  if b1.mode.mode = .faultHold then b1 else b1.fatal 0x86 0x64

/-- A sample at or above 120 °C: the main rails go, and the event is written to the persistent log (R44, R487). -/
def Block.hardOff (b : Block) (i : Nat) : Block :=
  if !b.mode.mainEn then (if b.mode.thermLow then b else b.hardOffTell i)
  else
    let b2 := b.hardOffTell i
    if b2.mode.mode = .boot && !b2.mode.railsGood then
      (b2.wins 3).toStandby 9 false
    else b2.railLoss

/-- The next sample of the sensors is due: 125 µs after the last (R486). -/
def Block.sampleDue (b : Block) : Bool :=
  match b.pwr.sampleAt with
  | none => true
  | some t => t + 125000 ≤ b.time.elapsed

/-- A sample of the 25 sensors, one each 125 µs (R486, R487).
DESIGN CHOICE, unsafe: log entry 172. -/
def Block.sensorSample (b : Block) (now : List Int) : Block :=
  if b.mode.mode = .unpowered || !b.sampleDue then b
  else
    let prev := b.temps
    let b1 := { b with temps := now, mode := { b.mode with inRange := gateOpen now, tooCold := gateCold now }
                       pwr := { b.pwr with sampleAt := some b.time.elapsed } }
    let b2 := (b1.thmStore now).thmLimits prev now
    match hardOffSensor now with
    | some i => b2.hardOff i
    | none =>
      match shutdownSensor prev now with
      | some i => b2.shutdown i
      | none => b2

/-- A reference stops or leaves its tolerance (R502).
DEDUCED, unsafe: log entry 158. -/
def Block.refclkLoss (b : Block) (r : RefClk) : Block :=
  let core (y : Block) : Block :=
    if y.mode.mode = .bringUp then y.bringUpFailure 1 else if y.mode.mode = .faultHold then y else y.fatal 0x84 0
  match r with
  | .fd => core b
  | .td => core b
  | .line k =>
    (upTo 32).foldl (fun y i => y.defectChange (.lane (4 * k.toNat + i / 8) (i % 8)) 1 true) b
  | .fab k =>
    let b1 := (upTo 32).foldl (fun y i =>
      let l := 32 * k.val + i
      if y.fabLive && 3 ≤ y.laneState l && y.laneState l ≤ 5 then y.laneFall l 2 false else y) b
    if k.val = 0 then (upTo 4).foldl (fun y j => y.cscLanes j 0) b1 else b1
  | .d5 => (upTo 17).foldl (fun y k => y.holdStart k) b
  | .time => b

/-- The service port's link comes up or goes down (R459). -/
def Block.svcLink (b : Block) (up : Bool) : Block :=
  if b.mode.mode = .unpowered || b.flag SVC.STS SVC.STS_LINK_UP = up then b
  else (b.setFld SVC.STS SVC.STS_LINK_UP (b2n up)).intRaw 0x61 0

/-- A FIRMWARE_BLOCK descriptor: BAD_LEN, BAD_TARGET and DMA_ERR, or its block (R411, R457, R458). -/
def firmwareDesc (d : List Byte) (b : Block) : Block :=
  let len := leAt d 8 3
  let off := leAt d 0x10 4
  if !b.receiving then b.giveBack 68 3
  else if 2 ^ 20 < len || leAt d 0 8 % 64 ≠ 0 || b.blockBad off len then b.giveBack 68 2
  else if b.host.fails (leAt d 0 8) len then b.giveBack 68 4
  else (b.updBlock off (b.dmaRead (leAt d 0 8) len)).giveBack 68 0

/-- The descriptor at the head of the firmware-block ring (R458).
DEDUCED, unsafe: log entry 156. -/
def Block.firmwareBlock (b : Block) : Block := b.bulk 68 9 [] (fun d _ y => firmwareDesc d y)

end Sys2Proof.Machine
end

