-- ==== Sys2Proof/Machine/CmdOps.lean ====
section
/-! DEFINITION. Operations that commands share and that join several blocks. -/

namespace Sys2Proof.Machine

/-- A read on BAR0, by an island agent, or on BAR4 (R12, R399, R442). -/
def Block.readAccess (b : Block) : ReadAccess → Block
  | .bar0 src a n => b.readBar0 src a.toNat n.val
  | .bar4 o n => b.readBar4 o.toNat n.val

/-- The code that `GLB.ERR_INFO` holds for a fatal error (R405). -/
def FatalCode.code : FatalCode → Nat
  | .bridgeFailed => 0x81
  | .pairLost => 0x82
  | .corePll => 0x84

/-- The page that reports it. -/
def FatalCode.page : FatalCode → Nat
  | .bridgeFailed => 3
  | .pairLost => 0x84
  | .corePll => 0

/-- The register that holds an owner's ENABLE (R283). -/
def OwnerReg.cfg : OwnerReg → Nat
  | .mac n k => LIN.MAC_CFG n.val k.val
  | .phy g i => FLX.PHY_CFG g.val i.val
  | .otn c => OTN.CFG c.val

/-- The message that arrives (R384). -/
def HelloMsg.msg : HelloMsg → CMsg
  | .hello e m p s => .hello e m p s
  | .reserved k => .bad (BitVec.ofNat 4 (0xB + k.val))

/-- The register's address for counter `n` (R438). -/
def PmcReg.addr (r : PmcReg) (n : Nat) : Nat :=
  match r with
  | .cfg => PMC.CFG n
  | .inst => PMC.INST n
  | .thresh => PMC.THRESH n

/-- An admission cycle of a frond (R54): the passes in it make the accesses of the cycle (R59), what follows the first cell of an
egress packet goes to its store (R55), and staging that has emptied is held against the pause thresholds (R289). FAULT-HOLD freezes
the frond (R89). -/
def Block.frondAdmission (b : Block) (f : Nat) (seen : AdmitSeen) : Block :=
  if b.mode.mode = .faultHold then b
  else
    let b1 := (b.admitOne f seen.prefer).frondAccesses f seen.tcam
    if f < 8 then b1.slicePauseCheck f
    else (upTo 4).foldl (fun y j => y.storeCells (4 * (f % 8) + j) 48) b1

/-- A TCAM_COMMIT entry comes due (R168, R379). -/
def Block.tcamAnchorDue (b : Block) : Block := b.ancExec 2 (fun e x => x.tcamAnchor e.operand)

/-- A SHAPER_COMMIT entry comes due (R230, R379). -/
def Block.shaperAnchorDue (b : Block) : Block := b.ancExec 3 shaperAnchor

/-- A MAC control frame with a good FCS arrives at a MAC port; RX_MODE 0 leaves it to the program (R287). -/
def Block.macControlFrame (b : Block) (k : Nat) (bs : List Byte) : Block :=
  if b.isMacControl k bs then b.frameIn (.mac k) bs true ⟨0, 0, 0, 0⟩ else b

/-- The OP of a request that DISCOVER's row takes: DISCOVER, or a reserved code (R460). -/
def discoverOp : Option (BitVec 7) → Nat
  | none => opDiscover
  | some o => if o.toNat = 0 || 10 ≤ o.toNat then o.toNat else opDiscover

end Sys2Proof.Machine
end

