-- ==== Sys2Proof/WellFormed.lean ====
section
/-! DEFINITION. Which commands are well formed: the bounds that the spec sets for what arrives or is read. The machine brings the operands
of every other command to these bounds (Machine.Incoming), so no command stops. -/

namespace Sys2Proof

open Machine

/-- Differences of bytes lie within `n` bytes. -/
def flipsWf (n : Nat) (fl : List (Nat × Byte)) : Bool := fl.all (fun e => e.1 < n)

/-- A stored cell has 32 bytes of header and 256 of payload (R314). -/
def Machine.Seen.wf (s : Seen) : Bool := flipsWf 288 s.flips

/-- Rows are those of the 40 banks (R149). -/
def Machine.TcSeen.wf (s : TcSeen) : Bool :=
  s.flipped.all (fun e => e.1 < 40 && e.2 < 8192) && s.copyErr.all (fun e => e.1 < 40 && e.2 < 8192)

/-- Words are those of the 256 SRAM banks (R118). -/
def Machine.AccSeen.wf (s : AccSeen) : Bool := s.sram.all (fun a => a < 24576 * 256) && s.tcam.wf

/-- A lane of the 96, CREDIT_RET of 8 bits, at most 16 messages in a cell (R248, R250, R252). -/
def Machine.CellRx.wf (r : CellRx) : Bool := r.lane < 96 && r.ret < 256 && r.badMsgs ≤ 16

/-- The fields of a HELLO have one byte or two (R257). -/
def Machine.Hello.wf (h : Hello) : Bool :=
  h.version < 256 && h.role < 256 && h.id < 65536 && h.plane < 256 && h.port < 256 && h.mask < 256 && h.credits < 65536

/-- The fields of a DATA cell (R248 to R250). -/
def Machine.FCell.wf (c : FCell) : Bool :=
  c.dest < 2048 && c.src < 2048 && c.engine < 8 && c.seq < 65536 && c.metaW < 2 ^ 64 && c.pktLen < 32768 && c.port < 256
    && c.cls < 8 && c.pay.length ≤ 256

/-- The objects of the line that exist (R276, R281, R291, R297). -/
def Machine.LineObj.wf : LineObj → Bool
  | .lane n l => n < 8 && l < 8
  | .mac k => k < 128
  | .phy g i => g < 8 && i < 8
  | .group g => g < 8
  | .client g c => g < 8 && c < 64
  | .otn c => c < 64
  | .trib c => c < 64

/-- The fields of FlexE overhead (R292). -/
def Machine.FlexeOh.wf (o : FlexeOh) : Bool :=
  o.groupNum < 2 ^ 20 && o.phyNum < 256 && o.phyMap.all (fun n => n < 256) && o.ids.all (fun e => e.1 < 640 && e.2 < 65536)

/-- The fields of a tributary's overhead. -/
def Machine.TribOh.wf (o : TribOh) : Bool := o.stat < 8 && o.rxBip < 256 && o.calcBip < 256 && o.bei < 16

/-- The fields of OTN overhead (R298 to R302). -/
def Machine.OtnOh.wf (o : OtnOh) : Bool :=
  o.smRx < 256 && o.smCalc < 256 && o.smBei < 16 && o.pmRx < 256 && o.pmCalc < 256 && o.pmBei < 16 && o.stat < 8
    && o.pt.all (fun p => p < 256) && o.trib.all TribOh.wf

/-- A frame period of one of at most 20 streams (R298). -/
def Machine.OtnFrame.wf (f : OtnFrame) : Bool := f.stream < 20 && f.mfas < 256 && f.marker < 20 && f.oh.all OtnOh.wf

/-- CMIS revision and applications of a module (R307). -/
def Machine.CagePoll.wf (q : CagePoll) : Bool := q.rev < 256 && q.apps.length < 16

/-- A reserved OP of the Trasum protocol, or none (R460). -/
def badOpWf (o : Option (BitVec 7)) : Bool := o.all (fun x => x = 0 || 10 ≤ x.toNat)

/-- A command whose operands stand for something that its source can bring (the bounds of the fields of a cell, of a chunk, of a row). -/
def Instr.wf : Instr → Bool
  | .registerWrite .. => true
  | .loHiRead .. => true
  | .lockKeyWrite .. => true
  | .pageSoftReset .. => true
  | .pageSoftResetEnd .. => true
  | .errClr .. => true
  | .intForce .. => true
  | .boot .. => true
  | .spore .. => true
  | .mainOff .. => true
  | .warmReset .. => true
  | .quiescent .. => true
  | .forwarding .. => true
  | .lowPowerHold .. => true
  | .sorusRestart .. => true
  | .faultHold .. => true
  | .quiescentPortHold => true
  | .vauxInValid => true
  | .islandPowerOnReset .. => true
  | .vauxInLoss .. => true
  | .mainRstNAssert => true
  | .mainRstNRelease .. => true
  | .loaderCheckResult .. => true
  | .mainRailsGood => true
  | .mainRailTimeout => true
  | .mainRailLoss => true
  | .temperatureGateRelease => true
  | .firmwareStart .. => true
  | .bringUpComplete _ faults _ => faults.all (fun e => e.1 < 40 && e.2 < 8256)
  | .bringUpFailure .. => true
  | .fatalError .. => true
  | .boundaryScanEntry => true
  | .degradationChange => true
  | .firmwareReady => true
  | .handoverLate => true
  | .handoverCoreReset => true
  | .watchdogExpiry => true
  | .kick .. => true
  | .bridgeSlot _ _ _ seen => seen.wf
  | .bridgeChunkArrive _ _ flips => flipsWf 32 flips
  | .bridgeCreditReturn .. => true
  | .halfWidthSwitch => true
  | .chunkReplay .. => true
  | .widthReq .. => true
  | .fullWidthReturn .. => true
  | .driftClear .. => true
  | .tick .. => true
  | .frameReceive o _ _ _ => o.wf
  | .packetReady .. => true
  | .frondAdmission _ seen => seen.tcam.wf
  | .parserExit .. => true
  | .handOff _ _ cells acc => cells.all Seen.wf && acc.wf
  | .recircStore .. => true
  | .drainWindowClose => true
  | .frdCalCommit .. => true
  | .frdCalCheck .. => true
  | .progLoadStart .. => true
  | .progLoadAbort .. => true
  | .progActivate .. => true
  | .progActivateApply => true
  | .programBlock => true
  | .imageVerify => true
  | .programSwap => true
  | .rangeCommit .. => true
  | .rangeCommitApply => true
  | .stageWrite .. => true
  | .payCommit .. => true
  | .payCommitApply => true
  | .copy .. => true
  | .patRead .. => true
  | .patWrite .. => true
  | .partCommit .. => true
  | .partCommitApply => true
  | .tableOp .. => true
  | .nop .. => true
  | .emInsert .. => true
  | .emUpdate .. => true
  | .emDelete .. => true
  | .emRead .. => true
  | .emMoveZero => true
  | .routeAdd .. => true
  | .routeDelete .. => true
  | .routeRead .. => true
  | .directWrite .. => true
  | .directRead .. => true
  | .tableClear .. => true
  | .tableStats .. => true
  | .freedWordsReturn => true
  | .learnApply => true
  | .agingPass .. => true
  | .agingRemoval .. => true
  | .shadowWalk _ _ _ _ upsets => upsets.all (fun e => e.1 < 256)
  | .shadowReread upsets => upsets.all (fun e => e.1 < 256)
  | .rebase .. => true
  | .mismatchValidClear .. => true
  | .tblLimitWrite .. => true
  | .tblModeWrite .. => true
  | .tcamOp .. => true
  | .tcamNop .. => true
  | .insert .. => true
  | .update .. => true
  | .delete .. => true
  | .read .. => true
  | .tcamTableClear .. => true
  | .tcamTableStats .. => true
  | .groupAbandon .. => true
  | .tcamCommit => true
  | .commitCleanupEnd .. => true
  | .start .. => true
  | .next _ seen => seen.wf
  | .stop .. => true
  | .tcamScrubPass found => found.all (fun e => e.1 < 40 && e.2.1 < 8192)
  | .tcamRowScrub .. => true
  | .cellArrival _ seen => seen.wf
  | .spillWrite _ seens => seens.all Seen.wf
  | .spillWriteComplete .. => true
  | .prefetchRequest .. => true
  | .prefetchReadComplete _ seens => seens.all Seen.wf
  | .profRead .. => true
  | .profWrite .. => true
  | .clearWm .. => true
  | .clearWrap .. => true
  | .qsplitWrite .. => true
  | .poolLimitWrite .. => true
  | .randSeedWrite .. => true
  | .schedulerDecision _ _ seens => seens.all Seen.wf
  | .egfFirstWord .. => true
  | .egfTransmitStart .. => true
  | .egfWordTransmit _ flips => flipsWf 32 flips
  | .wordCreditReturn .. => true
  | .egfShareApply .. => true
  | .shpCtlCommit .. => true
  | .profileExchange => true
  | .shaperCommit => true
  | .schRead .. => true
  | .schWrite .. => true
  | .schCopy .. => true
  | .schCalCommit .. => true
  | .schCalCheck .. => true
  | .requestRefresh .. => true
  | .balanceAge .. => true
  | .contextExpiry .. => true
  | .grantIssue .. => true
  | .request rx _ _ _ _ _ => rx.all CellRx.wf
  | .grant rx _ _ => rx.all CellRx.wf
  | .sync rx _ _ _ => rx.all CellRx.wf
  | .syncReq rx _ _ => rx.all CellRx.wf
  | .syncReqResend .. => true
  | .nosyncExpiry .. => true
  | .pauseExpiry .. => true
  | .macControlFrame .. => true
  | .pfcResend .. => true
  | .fabLaneEnable .. => true
  | .fabLaneDisable .. => true
  | .laneTrainingResult .. => true
  | .codeword .. => true
  | .hello rx h => rx.wf && h.wf
  | .helloSend .. => true
  | .helloTimeout .. => true
  | .probationEnd .. => true
  | .laneRetry .. => true
  | .laneJoinSpray .. => true
  | .reach rx _ => rx.wf
  | .idle rx _ => rx.wf
  | .dataCell rx cell => rx.wf && cell.wf
  | .reseqTimeout .. => true
  | .spray => true
  | .unreachDrop .. => true
  | .controlCellSend .. => true
  | .planeDrain .. => true
  | .drain .. => true
  | .drained .. => true
  | .laneEnable .. => true
  | .laneDisable .. => true
  | .cdrLock .. => true
  | .lockLossRetrain .. => true
  | .retrain .. => true
  | .retrainAttemptEnd .. => true
  | .defectChange o _ _ => o.wf
  | .portUp o => o.wf
  | .lineEvent => true
  | .portEnable .. => true
  | .portDisable .. => true
  | .lportMapWrite .. => true
  | .flexeOverhead _ _ o => o.wf
  | .skewRecovery .. => true
  | .calReq .. => true
  | .calendarSwitch .. => true
  | .calTimeout .. => true
  | .otnFrame _ f => f.wf
  | .otnLof .. => true
  | .gfpFrame .. => true
  | .cagePoll _ _ q => q.wf
  | .checkStart .. => true
  | .checkPause .. => true
  | .checkResume .. => true
  | .checkAbort .. => true
  | .checkRunEnd .. => true
  | .checkPeriodRestart .. => true
  | .scrubWriteback => true
  | .ddr5Read .. => true
  | .ddr5Write _ _ errs => errs.all (fun e => e.chan < 17)
  | .refreshSlot .. => true
  | .owedRefreshIssue .. => true
  | .mr4Read .. => true
  | .hotCrossing .. => true
  | .coolCrossing .. => true
  | .periodicCalibration .. => true
  | .zqCalibration .. => true
  | .hold .. => true
  | .holdEnd .. => true
  | .remirrorEnd .. => true
  | .channelRetrain .. => true
  | .channelTrainingEnd .. => true
  | .evacStart .. => true
  | .evacAbort .. => true
  | .evacCopyEnd => true
  | .evacMapChange => true
  | .retire .. => true
  | .restore .. => true
  | .ppsEdge => true
  | .todArm .. => true
  | .todTimeout => true
  | .holdoverEntry => true
  | .slew .. => true
  | .step .. => true
  | .freqAdjWrite .. => true
  | .servoEnWrite .. => true
  | .squelchLift .. => true
  | .post .. => true
  | .cancel .. => true
  | .counterSnapshot => true
  | .marker => true
  | .join .. => true
  | .masterElection => true
  | .masterLoss => true
  | .cascadeHelloSend .. => true
  | .cascadeHello .. => true
  | .cascadeResend .. => true
  | .timeSyncSend => true
  | .timeSync .. => true
  | .delayReq .. => true
  | .delayResp .. => true
  | .prepare .. => true
  | .accept .. => true
  | .refuse .. => true
  | .confirm .. => true
  | .abandon .. => true
  | .coordDeadline .. => true
  | .unconfirmed .. => true
  | .learn .. => true
  | .tdAccessTimeout .. => true
  | .msixSend .. => true
  | .vecAck .. => true
  | .windowRead .. => true
  | .windowWrite .. => true
  | .ringPost .. => true
  | .ringEnable .. => true
  | .ringDisable .. => true
  | .ringCoalesce .. => true
  | .injectFetch => true
  | .functionLevelReset => true
  | .pciePerstN .. => true
  | .counterSweep .. => true
  | .counterWriteBack => true
  | .counterEnableWrite .. => true
  | .counterRead .. => true
  | .counterClear .. => true
  | .counterClearWrap .. => true
  | .snapshotNow .. => true
  | .snapshotBuildEnd => true
  | .counterExport => true
  | .pmcReprogram .. => true
  | .pmcFreeze .. => true
  | .updStart .. => true
  | .updFinish .. => true
  | .updAbort .. => true
  | .updActivate .. => true
  | .updConfirm .. => true
  | .firmwareBlock => true
  | .discover _ badOp => badOpWf badOp
  | .trasumRead .. => true
  | .trasumWrite .. => true
  | .fwStart .. => true
  | .fwBlock .. => true
  | .fwFinish .. => true
  | .fwAbort .. => true
  | .logRead .. => true
  | .mailbox .. => true
  | .i2cRead .. => true
  | .i2cWrite .. => true
  | .mdioRead .. => true
  | .mdioWrite .. => true
  | .mailboxTimeout => true
  | .ltrWrite .. => true
  | .powerStateEntry .. => true
  | .demand .. => true
  | .wakeComplete .. => true
  | .sliceDrain .. => true
  | .sliceDrainExpiry .. => true
  | .sliceRelease .. => true
  | .sliceReleaseApply => true
  | .sensorSample .. => true
  | .peakClr .. => true
  | .refclkLoss .. => true
  | .forwardedClockLockLoss .. => true
  | .cascadeLaneStateChange .. => true
  | .cascadeLinkHelloLoss .. => true
  | .servicePortLinkChange .. => true
  | .slewEnd => true
  | .settingsSave .. => true

end Sys2Proof
end

