-- ==== Sys2Proof/Machine/State.lean ====
section
/-! DEFINITION. The state of the model: the device, and the queue of the commands that wait. -/

namespace Sys2Proof.Machine

/-- Why a command stops: the spec stops the device at no command, so there is no reason to name, and no meaning raises one. Operands
that no source can bring are brought to the bounds of their fields (Machine.Incoming). -/
inductive Fault where
deriving DecidableEq, Repr

/-- Why the model has no meaning for a command. -/
inductive Refusal where
  /-- An instruction whose meaning is not written: raised by the dispatch alone. Safe: nothing is claimed of it. -/
  | notModelled (mnemonic : String)
deriving DecidableEq, Repr

/-- The device, and the commands that wait, first in, first out.
DESIGN CHOICE, unsafe: log entry 4. -/
structure State where
  blk : Block := {}
  pending : List Instr := []
deriving DecidableEq, Repr

/-- The machine right after reset: STANDBY, entered from island power-on (R41), with nothing waiting.
DESIGN CHOICE, unsafe: log entry 7. -/
def State.reset : State := {}

/-- A command acts on the device. -/
def State.act (s : State) (f : Block → Block) : Host.Outcome State Fault Refusal := .next { s with blk := f s.blk }

end Sys2Proof.Machine
end

