-- ==== Sys2Proof/Machine/CmdAccess.lean ====
section
/-! DEFINITION. The meanings of the commands of one family. Register accesses, page commands (R8 to R12, R403 to R406). -/

namespace Sys2Proof.Machine

/-- REGISTER_WRITE (R8): A BAR0 or service-port write to a register that has no row of its own stores the field values
that its access codes and locks allow.
DESIGN CHOICE, unsafe: log entry 15. -/
def execRegisterWrite (x : Access) (s : State) : Host.Outcome State Fault Refusal :=
  s.act (fun b => (b.access x).mbAnswer)

/-- LO_HI_READ (R12): A read of a _LO register latches the matching _HI so that the pair reads as one consistent value. -/
def execLoHiRead (x : ReadAccess) (s : State) : Host.Outcome State Fault Refusal :=
  s.act (fun b => b.readAccess x)

/-- LOCK_KEY_WRITE (R404): A write of 0x0000_C1AD arms the page unlock for the next write from the same source; any other
value disarms it. -/
def execLockKeyWrite (w : RegWrite) (p : BitVec 10) (s : State) : Host.Outcome State Fault Refusal :=
  s.act (fun b => b.regWrite w.src (HDR.LOCK_KEY p.toNat) w.value)

/-- PAGE_SOFT_RESET (R403): Writing PAGE_CTL.SOFT_RESET starts the soft reset of a page, with the effects that the block's
chapter gives. -/
def execPageSoftReset (w : RegWrite) (p : BitVec 10) (s : State) : Host.Outcome State Fault Refusal :=
  s.act (fun b => (b.regWrite w.src (HDR.PAGE_CTL p.toNat) (fldPut HDR.PAGE_CTL_SOFT_RESET w.value 1)).mbAnswer)

/-- PAGE_SOFT_RESET_END (R403): The page soft reset ends within 1 ms, and SOFT_RESET returns to 0. -/
def execPageSoftResetEnd (p : BitVec 10) (s : State) : Host.Outcome State Fault Refusal :=
  s.act (fun b => b.pageResetEnd p.toNat)

/-- ERR_CLR (R405): PAGE_CTL.ERR_CLR clears ERR_ADDR and ERR_INFO and re-arms the capture. -/
def execErrClr (w : RegWrite) (p : BitVec 10) (s : State) : Host.Outcome State Fault Refusal :=
  s.act (fun b => b.regWrite w.src (HDR.PAGE_CTL p.toNat) (fldPut HDR.PAGE_CTL_ERR_CLR w.value 1))

/-- INT_FORCE (R406): A write to INT_FORCE sets the defined INT_RAW bits named by each 1 written. -/
def execIntForce (w : RegWrite) (p : BitVec 10) (s : State) : Host.Outcome State Fault Refusal :=
  s.act (fun b => b.regWrite w.src (HDR.INT_FORCE p.toNat) w.value)

end Sys2Proof.Machine
end

