-- ==== Sys2Proof/Machine/CmdBridge.lean ====
section
/-! DEFINITION. The meanings of the commands of one family. The bridge and the tick (R19 to R35). -/

namespace Sys2Proof.Machine

/-- BRIDGE_SLOT (R25): An owned bridge slot of a wire group sends a chunk when a credit is held, draining the skid buffer
first. -/
def execBridgeSlot (d : Fin 2) (g : Fin 32) (pick : Nat) (seen : Seen) (s : State) : Host.Outcome State Fault Refusal
    :=
  s.act (fun b => b.bridgeSlot d.val g.val pick seen.norm)

/-- BRIDGE_CHUNK_ARRIVE (R24): A chunk arrives at the receiving crossing FIFO under the push-and-pop rules. -/
def execBridgeChunkArrive (d : Fin 2) (g : Fin 32) (flips : List (Nat × Byte)) (s : State) : Host.Outcome State Fault
    Refusal :=
  s.act (fun b => b.bridgeArrive d.val g.val (flipsNorm 32 flips))

/-- BRIDGE_CREDIT_RETURN (R23): The receiver returns a credit on the sideband within 16 ns of popping a chunk. -/
def execBridgeCreditReturn (d : Fin 2) (g : Fin 32) (s : State) : Host.Outcome State Fault Refusal :=
  s.act (fun b => b.bridgeCredit d.val g.val)

/-- HALF_WIDTH_SWITCH (R30): With AUTO_HALF set, the bridge switches both directions to half width within 2 µs of a drift
event. -/
def execHalfWidthSwitch (s : State) : Host.Outcome State Fault Refusal :=
  s.act (fun b => b.toHalf)

/-- CHUNK_REPLAY (R30): A half-width chunk with an uncorrectable error is replayed from the group's replay buffer. -/
def execChunkReplay (d : Fin 2) (g : Fin 32) (s : State) : Host.Outcome State Fault Refusal :=
  s.act (fun b => b.chunkReplay d.val g.val)

/-- WIDTH_REQ (R33): BRG.CTL.WIDTH_REQ starts a return to full width by retraining and testing the odd wires. -/
def execWidthReq (w : RegWrite) (s : State) : Host.Outcome State Fault Refusal :=
  s.act (fun b => b.regWrite w.src BRG.CTL (fldPut BRG.CTL_WIDTH_REQ w.value 1))

/-- FULL_WIDTH_RETURN (R33): After the retrain and 1 ms test, the groups return to full width at a tick boundary, or
WIDTH_FAIL is set. -/
def execFullWidthReturn (passed : Bool) (s : State) : Host.Outcome State Fault Refusal :=
  s.act (fun b => b.fullWidthReturn passed)

/-- DRIFT_CLEAR (R29): Clearing BRG.STS.DRIFT re-arms FIRST_GROUP and FIRST_CAUSE. -/
def execDriftClear (w : RegWrite) (s : State) : Host.Outcome State Fault Refusal :=
  s.act (fun b => b.regWrite w.src BRG.STS (fldPut BRG.STS_DRIFT w.value 1))

/-- TICK (R35): Network time reaches a 125 µs boundary from below, TMB.TICKS advances, and the TD follower time is
corrected. -/
def execTick (drift : Option (BitVec 5)) (s : State) : Host.Outcome State Fault Refusal :=
  s.act (fun b => b.tickRow drift)

end Sys2Proof.Machine
end

