-- ==== Sys2Proof/Machine/CmdCheck.lean ====
section
/-! DEFINITION. The meanings of the commands of one family. Check engines (R327 to R331). -/

namespace Sys2Proof.Machine

/-- CHECK_START (R328): CHK.CTX_CTL.START begins a CRC run over a range, or it is refused. -/
def execCheckStart (w : RegWrite) (e : Fin 16) (words : Nat) (found : List ScrubWord) (s : State) : Host.Outcome State
    Fault Refusal :=
  s.act (fun b => b.regWriteMeets { words := words, found := found } w.src (CHK.CTX_CTL e.val) (fldPut CHK.CTX_CTL_START
    w.value 1))

/-- CHECK_PAUSE (R328): CHK.CTX_CTL.PAUSE stops a run at the next 32-byte boundary. -/
def execCheckPause (w : RegWrite) (e : Fin 16) (words : Nat) (found : List ScrubWord) (s : State) : Host.Outcome State
    Fault Refusal :=
  s.act (fun b => b.regWriteMeets { words := words, found := found } w.src (CHK.CTX_CTL e.val) (fldPut CHK.CTX_CTL_PAUSE
    w.value 1))

/-- CHECK_RESUME (R328): CHK.CTX_CTL.RESUME continues a run from START_ADDR + DONE. -/
def execCheckResume (w : RegWrite) (e : Fin 16) (words : Nat) (found : List ScrubWord) (s : State) : Host.Outcome
    State Fault Refusal :=
  s.act (fun b => b.regWriteMeets { words := words, found := found } w.src (CHK.CTX_CTL e.val) (fldPut CHK.CTX_CTL_RESUME
    w.value 1))

/-- CHECK_ABORT (R328): CHK.CTX_CTL.ABORT ends a run with STATE aborted. -/
def execCheckAbort (w : RegWrite) (e : Fin 16) (words : Nat) (found : List ScrubWord) (s : State) : Host.Outcome State
    Fault Refusal :=
  s.act (fun b => b.regWriteMeets { words := words, found := found } w.src (CHK.CTX_CTL e.val) (fldPut CHK.CTX_CTL_ABORT
    w.value 1))

/-- CHECK_RUN_END (R329): A run ends when DONE equals LENGTH, forms LAST and, in COMPARE mode, sets OUTCOME. -/
def execCheckRunEnd (e : Fin 16) (found : List ScrubWord) (expBad : Bool) (s : State) : Host.Outcome State Fault
    Refusal :=
  s.act (fun b => b.chkEnd e.val found expBad)

/-- CHECK_PERIOD_RESTART (R329): PERIOD_TICKS ticks after a run ends, the run starts again. -/
def execCheckPeriodRestart (e : Fin 16) (s : State) : Host.Outcome State Fault Refusal :=
  s.act (fun b => b.chkPeriod e.val)

/-- SCRUB_WRITEBACK (R330): A corrected word is written back in a later maintenance slot unless a newer write reached it.
-/
def execScrubWriteback (s : State) : Host.Outcome State Fault Refusal :=
  s.act (fun b => b.scrubWriteback)

end Sys2Proof.Machine
end

