-- ==== Sys2Proof/Machine/CmdCounters.lean ====
section
/-! DEFINITION. The meanings of the commands of one family. Counters and performance counters (R421 to R443). -/

namespace Sys2Proof.Machine

/-- COUNTER_SWEEP (R426): The sweeper walks the cache sets and sends nonzero entries to the write-back queue unless the
queue is over half full. -/
def execCounterSweep (n : BitVec 20) (s : State) : Host.Outcome State Fault Refusal :=
  s.act (fun b => b.cntSweep n.toNat)

/-- COUNTER_WRITE_BACK (R427): The TD engine adds a write-back record to its pair in both pair members. -/
def execCounterWriteBack (s : State) : Host.Outcome State Fault Refusal :=
  s.act (fun b => b.writeBack)

/-- COUNTER_ENABLE_WRITE (R429): CNT.CTL.ENABLE = 0 stops updates and writes back every entry; RUNNING clears after the
last record. -/
def execCounterEnableWrite (w : RegWrite) (s : State) : Host.Outcome State Fault Refusal :=
  s.act (fun b => b.regWrite w.src CNT.CTL w.value)

/-- COUNTER_READ (R430): CNT.OP_CMD.READ returns the exact sum of the DDR5 pair, its queued records and its cached delta.
-/
def execCounterRead (w : RegWrite) (s : State) : Host.Outcome State Fault Refusal :=
  s.act (fun b => b.regWrite w.src CNT.OP_CMD (fldPut CNT.OP_CMD_READ w.value 1))

/-- COUNTER_CLEAR (R431): CNT.OP_CMD.CLEAR zeroes a pair, its flags, its records and its delta at one cycle. -/
def execCounterClear (w : RegWrite) (s : State) : Host.Outcome State Fault Refusal :=
  s.act (fun b => b.regWrite w.src CNT.OP_CMD (fldPut CNT.OP_CMD_CLEAR w.value 1))

/-- COUNTER_CLEAR_WRAP (R431): CNT.OP_CMD.CLEAR_WRAP clears only a pair's wrap flags. -/
def execCounterClearWrap (w : RegWrite) (s : State) : Host.Outcome State Fault Refusal :=
  s.act (fun b => b.regWrite w.src CNT.OP_CMD (fldPut CNT.OP_CMD_CLEAR_WRAP w.value 1))

/-- SNAPSHOT_NOW (R432): CNT.SNAP_CTL.NOW requests a snapshot at the next tick boundary. -/
def execSnapshotNow (w : RegWrite) (s : State) : Host.Outcome State Fault Refusal :=
  s.act (fun b => b.regWrite w.src CNT.SNAP_CTL (fldPut CNT.SNAP_CTL_NOW w.value 1))

/-- SNAPSHOT_BUILD_END (R433): The TD finishes building the snapshot area, and export begins if EXPORT is set. -/
def execSnapshotBuildEnd (s : State) : Host.Outcome State Fault Refusal :=
  s.act (fun b => b.snapBuilt)

/-- COUNTER_EXPORT (R436): Snapshot records are written into an available counter-export descriptor, with LAST marking the
end. -/
def execCounterExport (s : State) : Host.Outcome State Fault Refusal :=
  s.act (fun b => b.counterExport)

/-- PMC_REPROGRAM (R439): A write of PMCn.CFG, INST or THRESH zeroes the count and counts under the new setting from the
next cycle. -/
def execPmcReprogram (w : RegWrite) (n : Fin 64) (reg : PmcReg) (s : State) : Host.Outcome State Fault Refusal :=
  s.act (fun b => b.regWrite w.src (reg.addr n.val) w.value)

/-- PMC_FREEZE (R440): A write of PMC.CTL.FREEZE stops or restarts all 64 performance counters at one network time. -/
def execPmcFreeze (w : RegWrite) (s : State) : Host.Outcome State Fault Refusal :=
  s.act (fun b => b.regWrite w.src PMC.CTL w.value)

end Sys2Proof.Machine
end

