-- ==== Sys2Proof/Machine/CmdCushion.lean ====
section
/-! DEFINITION. The meanings of the commands of one family. The cushion (R382 to R392). -/

namespace Sys2Proof.Machine

/-- JOIN (R385): A write of CSC.CTL POS, ELIGIBLE and JOIN in QUIESCENT sets the cushion membership. -/
def execJoin (w : RegWrite) (s : State) : Host.Outcome State Fault Refusal :=
  s.act (fun b => b.regWrite w.src CSC.CTL (fldPut CSC.CTL_JOIN w.value 1))

/-- MASTER_ELECTION (R385): 2 ms after JOIN with no master seen, an eligible device with the lowest linked position
becomes master. -/
def execMasterElection (s : State) : Host.Outcome State Fault Refusal :=
  s.act (fun b => b.election)

/-- MASTER_LOSS (R386): No HELLO with MASTER for 1 ms, or PAUSED for over 10 s, declares the master lost and elects a new
one. -/
def execMasterLoss (s : State) : Host.Outcome State Fault Refusal :=
  s.act (fun b => b.masterLoss)

/-- CASCADE_HELLO_SEND (R384): A cascade HELLO is sent on each link every 10 µs. -/
def execCascadeHelloSend (j : Fin 4) (s : State) : Host.Outcome State Fault Refusal :=
  s.act (fun b => b.cscHello j.val)

/-- CASCADE_HELLO (R384): A received cascade HELLO updates the link state, the master presence, PAUSED and SEEN. -/
def execCascadeHello (j : Fin 4) (h : CHdr) (m : HelloMsg) (s : State) : Host.Outcome State Fault Refusal :=
  s.act (fun b => b.cscIn j.val h m.msg)

/-- CASCADE_RESEND (R384): An unacknowledged cascade message is resent after 4 µs; the 16th resend takes the link DOWN. -/
def execCascadeResend (j : Fin 4) (s : State) : Host.Outcome State Fault Refusal :=
  s.act (fun b => b.cscResend j.val)

/-- TIME_SYNC_SEND (R388): At every tick of its time, the master sends TIME_SYNC to each member. -/
def execTimeSyncSend (s : State) : Host.Outcome State Fault Refusal :=
  s.act (fun b => b.timeSyncSend)

/-- TIME_SYNC (R388): A member receives TIME_SYNC and answers with DELAY_REQ. -/
def execTimeSync (j : Fin 4) (h : CHdr) (t1 : Stamp) (s : State) : Host.Outcome State Fault Refusal :=
  s.act (fun b => b.withTick (fun y => y.cscIn j.val h (.timeSync t1)))

/-- DELAY_REQ (R388): The master receives DELAY_REQ and returns DELAY_RESP with t4. -/
def execDelayReq (j : Fin 4) (h : CHdr) (t3 : Stamp) (s : State) : Host.Outcome State Fault Refusal :=
  s.act (fun b => b.withTick (fun y => y.cscIn j.val h (.delayReq t3)))

/-- DELAY_RESP (R388): A member computes θ and steps or slews its time, updating TIME_OK. -/
def execDelayResp (j : Fin 4) (h : CHdr) (t4 : Stamp) (lseq : BitVec 16) (s : State) : Host.Outcome State Fault
    Refusal :=
  s.act (fun b => b.withTick (fun y => y.cscIn j.val h (.delayResp t4 lseq)))

/-- PREPARE (R390): A member checks a coordinated entry, holds it, and answers ACCEPT or REFUSE. -/
def execPrepare (j : Fin 4) (h : CHdr) (stamp : Stamp) (type : BitVec 4) (operand : Word) (tag : BitVec 16) (s :
    State) : Host.Outcome State Fault Refusal :=
  s.act (fun b => b.withTick (fun y => y.cscIn j.val h (.prepare stamp type operand tag)))

/-- ACCEPT (R390): The master records a member's acceptance and sends CONFIRM when all have accepted. -/
def execAccept (j : Fin 4) (h : CHdr) (tag : BitVec 16) (s : State) : Host.Outcome State Fault Refusal :=
  s.act (fun b => b.withTick (fun y => y.cscIn j.val h (.accept tag)))

/-- REFUSE (R390): A member refuses, and the master sends ABANDON and removes its entry. -/
def execRefuse (j : Fin 4) (h : CHdr) (tag : BitVec 16) (result : BitVec 8) (s : State) : Host.Outcome State Fault
    Refusal :=
  s.act (fun b => b.withTick (fun y => y.cscIn j.val h (.refuse tag result)))

/-- CONFIRM (R390): A member makes its held coordinated entry pending. -/
def execConfirm (j : Fin 4) (h : CHdr) (tag : BitVec 16) (s : State) : Host.Outcome State Fault Refusal :=
  s.act (fun b => b.withTick (fun y => y.cscIn j.val h (.confirm tag)))

/-- ABANDON (R390): A member removes its held coordinated entry. -/
def execAbandon (j : Fin 4) (h : CHdr) (tag : BitVec 16) (s : State) : Host.Outcome State Fault Refusal :=
  s.act (fun b => b.withTick (fun y => y.cscIn j.val h (.abandon tag)))

/-- COORD_DEADLINE (R390): At the stamp less 500 µs without all acceptances, the master abandons the entry. -/
def execCoordDeadline (tag : BitVec 16) (s : State) : Host.Outcome State Fault Refusal :=
  s.act (fun b => b.coordDeadline tag.toNat)

/-- UNCONFIRMED (R390): At the stamp less 250 µs, a member removes an unconfirmed entry and sends an event. -/
def execUnconfirmed (tag : BitVec 16) (s : State) : Host.Outcome State Fault Refusal :=
  s.act (fun b => b.unconfirmed tag.toNat)

/-- LEARN (R391): A cascade LEARN message is numbered by the master, or applied in CUSHION_SEQ order by a device, with
gaps counted. -/
def execLearn (j : Fin 4) (h : CHdr) (seq : Word) (key : BitVec 64) (value : BitVec 20) (table : BitVec 3) (age :
    Bool) (s : State) : Host.Outcome State Fault Refusal :=
  s.act (fun b => b.withTick (fun y => y.cscIn j.val h (.learn seq key value table age)))

end Sys2Proof.Machine
end

