-- ==== Sys2Proof/Machine/CmdDdr5.lean ====
section
/-! DEFINITION. The meanings of the commands of one family. DDR5 (R332 to R367). -/

namespace Sys2Proof.Machine

/-- DDR5_READ (R345): A read request is accepted by a channel, answered from the write queue or the DRAM, and reissued to
the partner on an uncorrectable error. -/
def execDdr5Read (a : BitVec 40) (parity : List (Fin 17)) (first : EccSeen) (second : EccSeen) (s : State) :
    Host.Outcome State Fault Refusal :=
  s.act (fun b => b.ddr5Read a.toNat parity first second)

/-- DDR5_WRITE (R347): A write is accepted into the write queue of each member of its pair, merging with a queued write to
the same unit. -/
def execDdr5Write (a : BitVec 40) (bytes : Vector Byte 64) (errs : List LinkErr) (s : State) : Host.Outcome State
    Fault Refusal :=
  s.act (fun b => b.ddr5Write a.toNat bytes.toList (linkErrsNorm errs))

/-- REFRESH_SLOT (R350): At a refresh slot, the due refresh joins the owed count and is issued or postponed. -/
def execRefreshSlot (k : Fin 17) (s : State) : Host.Outcome State Fault Refusal :=
  s.act (fun b => b.refreshSlot k.val)

/-- OWED_REFRESH_ISSUE (R350): Owed refreshes are issued once the write queue falls to WQ_HIGH or below. -/
def execOwedRefreshIssue (k : Fin 17) (s : State) : Host.Outcome State Fault Refusal :=
  s.act (fun b => b.owedIssue k.val)

/-- MR4_READ (R351): At every tick, MR4 is read from every component to decide hot or cool. -/
def execMr4Read (k : Fin 17) (field : BitVec 3) (twice : Bool) (beyond : Bool) (s : State) : Host.Outcome State Fault
    Refusal :=
  s.act (fun b => b.mr4Read k.val field.toNat twice beyond)

/-- HOT_CROSSING (R351): At the next odd slot, owed refreshes double and run back to back, and the event is reported. -/
def execHotCrossing (k : Fin 17) (s : State) : Host.Outcome State Fault Refusal :=
  s.act (fun b => b.hotCrossing k.val)

/-- COOL_CROSSING (R352): At the next odd slot, the cool rate resumes, and owed refreshes are kept and issued in odd
slots. -/
def execCoolCrossing (k : Fin 17) (s : State) : Host.Outcome State Fault Refusal :=
  s.act (fun b => b.coolCrossing k.val)

/-- PERIODIC_CALIBRATION (R355): At every tick, the DQS oscillators are read and the write path retimed, or a hold starts.
-/
def execPeriodicCalibration (k : Fin 17) (inRange : Bool) (s : State) : Host.Outcome State Fault Refusal :=
  s.act (fun b => b.periodicCal k.val inRange)

/-- ZQ_CALIBRATION (R355): Every 1,024 ticks, a channel runs ZQ calibration. -/
def execZqCalibration (k : Fin 17) (s : State) : Host.Outcome State Fault Refusal :=
  s.act (fun b => b.zqCal k.val)

/-- HOLD (R356): A calibration out of range or errors over ERR_LIMIT start an in-place retrain of a live channel. -/
def execHold (k : Fin 17) (s : State) : Host.Outcome State Fault Refusal :=
  s.act (fun b => b.hold k.val)

/-- HOLD_END (R356): The hold's retrain passes, copying marked areas from the partner, or fails and the channel has
failed. -/
def execHoldEnd (k : Fin 17) (pass : Bool) (s : State) : Host.Outcome State Fault Refusal :=
  s.act (fun b => b.holdEnd k.val pass)

/-- REMIRROR_END (R362): The re-mirror copy from the partner ends, and the pair runs on both members again. -/
def execRemirrorEnd (l : Fin 16) (s : State) : Host.Outcome State Fault Refusal :=
  s.act (fun b => b.remirrorEnd l.val)

/-- CHANNEL_RETRAIN (R357): D5Ck.CTL.RETRAIN runs full training on an OUT, FAILED or UNTRAINED channel. -/
def execChannelRetrain (w : RegWrite) (k : Fin 17) (s : State) : Host.Outcome State Fault Refusal :=
  s.act (fun b => b.regWrite w.src (D5C.CTL k.val) (fldPut D5C.CTL_RETRAIN w.value 1))

/-- CHANNEL_TRAINING_END (R354): Full training of a channel passes or fails after its attempts. -/
def execChannelTrainingEnd (k : Fin 17) (t : D5Train) (s : State) : Host.Outcome State Fault Refusal :=
  s.act (fun b => b.trainingEnd k.val t)

/-- EVAC_START (R358): D5M.EVAC_CTL.START begins copying a live channel to the spare, or it is refused. -/
def execEvacStart (w : RegWrite) (s : State) : Host.Outcome State Fault Refusal :=
  s.act (fun b => b.regWrite w.src D5M.EVAC_CTL (fldPut D5M.EVAC_CTL_START w.value 1))

/-- EVAC_ABORT (R361): D5M.EVAC_CTL.ABORT abandons the evacuation and returns the target to SPARE. -/
def execEvacAbort (w : RegWrite) (s : State) : Host.Outcome State Fault Refusal :=
  s.act (fun b => b.regWrite w.src D5M.EVAC_CTL (fldPut D5M.EVAC_CTL_ABORT w.value 1))

/-- EVAC_COPY_END (R359): The evacuation copy of the source's used capacity ends. -/
def execEvacCopyEnd (s : State) : Host.Outcome State Fault Refusal :=
  s.act (fun b => b.evacCopyEnd)

/-- EVAC_MAP_CHANGE (R360): At the next tick, the target takes the logical channel, a map record is written, and the
source becomes OUT, SPARE or RETIRED. -/
def execEvacMapChange (s : State) : Host.Outcome State Fault Refusal :=
  s.act (fun b => b.evacMapChange)

/-- RETIRE (R366): D5M.RETIRE_CMD.RETIRE retires a SPARE, OUT or FAILED channel in the map record. -/
def execRetire (w : RegWrite) (s : State) : Host.Outcome State Fault Refusal :=
  s.act (fun b => b.regWrite w.src D5M.RETIRE_CMD (fldPut D5M.RETIRE_CMD_RETIRE w.value 1))

/-- RESTORE (R366): D5M.RETIRE_CMD.RESTORE returns a RETIRED channel to UNTRAINED. -/
def execRestore (w : RegWrite) (s : State) : Host.Outcome State Fault Refusal :=
  s.act (fun b => b.regWrite w.src D5M.RETIRE_CMD (fldPut D5M.RETIRE_CMD_RESTORE w.value 1))

end Sys2Proof.Machine
end

