-- ==== Sys2Proof/Machine/Codeword.lean ====
section
/-! DEFINITION. The codewords of a fabric lane (R245 to R247): the scrambler x⁵⁸ + x³⁹ + 1, the code RS(544,514) over GF(2¹⁰),
what a lane's receiver reads from a codeword, and the codewords that a lane sends.
PRESUMED, unsafe: log entry 197 (the order of the bits of a unit, of a symbol and of a codeword). -/

namespace Sys2Proof.Machine

/-- The units of a codeword (R245). -/
def cwUnits : Nat := 40

/-- A scrambled message is recovered from it and the 58 scrambled bits before it (R245): each bit with the ones 39 and 58 before. -/
def descramble (before m : Nat) : Nat :=
  let f := before * 2 ^ 5140 + m
  (f ^^^ (f >>> 39) ^^^ (f >>> 58)) % 2 ^ 5140

/-- Scramble the lowest 20 × `n` bits of a message, 20 bits at a time, after the scrambled bits `acc` (R245). -/
def scrambleFrom (m acc : Nat) : Nat → Nat
  | 0 => acc
  | n + 1 =>
    let s := (m >>> (20 * n)) % 2 ^ 20 ^^^ (acc >>> 19) % 2 ^ 20 ^^^ (acc >>> 38) % 2 ^ 20
    scrambleFrom m (acc * 2 ^ 20 + s) n

/-- A message scrambled after the 58 scrambled bits before it (R245). -/
def scramble (before m : Nat) : Nat := scrambleFrom m (before % 2 ^ 58) 257 % 2 ^ 5140

/-- Multiply by x in GF(2¹⁰) with x¹⁰ + x³ + 1 (IEEE 802.3). -/
def gfX (a : Nat) : Nat := if 512 ≤ a then (2 * a) ^^^ 0x409 else 2 * a

/-- The product in GF(2¹⁰) from bit `9 - n` of the second factor on. -/
def gfMulFrom (a c : Nat) : Nat → Nat
  | 0 => 0
  | n + 1 => (if c % 2 = 1 then a else 0) ^^^ gfMulFrom (gfX a) (c / 2) n

/-- The product in GF(2¹⁰). -/
def gfMul (a c : Nat) : Nat := gfMulFrom a c 10

/-- A polynomial times x − r; coefficients from the highest. -/
def polyTimes (r : Nat) (g : List Nat) : List Nat :=
  List.zipWith (fun a c => a ^^^ c) (g ++ [0]) (0 :: g.map (gfMul r))

/-- The generator polynomial of RS(544,514): the product of x − αʲ for j from 0 to 29 (IEEE 802.3). -/
def rsGenerator : List Nat :=
  ((upTo 30).foldl (fun p _ => (gfX p.1, polyTimes p.1 p.2)) (1, [1])).2

/-- The remainder after one more message symbol. -/
def rsStep (gen par : List Nat) (s : Nat) : List Nat :=
  let f := s ^^^ par.headD 0
  List.zipWith (fun r g => r ^^^ gfMul f g) (par.drop 1 ++ [0]) (gen.drop 1)

/-- The 30 parity symbols of 514 message symbols. -/
def rsParity (ms : List Nat) : List Nat := ms.foldl (rsStep rsGenerator) (List.replicate 30 0)

/-- The lowest `n` bits of a number in reverse. -/
def revBits (v : Nat) : Nat → Nat
  | 0 => 0
  | n + 1 => v % 2 * 2 ^ n + revBits (v / 2) n

/-- The message symbols of 5,140 scrambled bits: ten bits each, the bit sent first the lowest. -/
def msgSymbols (m : Nat) : List Nat := (upTo 514).map (fun i => revBits (m >>> (5140 - 10 * (i + 1))) 10)

/-- The 544 symbols of a codeword (R245). -/
def rsEncode (m : Nat) : List Nat := let ms := msgSymbols m; ms ++ rsParity ms

/-- The message of a codeword before it is scrambled: its units, FIRST_HDR and CW_COUNT (R245). -/
def cwMessage (units : List Nat) (first count : Nat) : Nat :=
  (units.foldl (fun a u => a * 2 ^ 128 + u) 0) * 2 ^ 20 + first * 2 ^ 14 + count % 1024

/-- What a symbol of a codeword differs by as it arrives. -/
def Codeword.diff (c : Codeword) (i : Fin 544) : BitVec 10 :=
  c.errs.foldl (fun v e => if e.1 = i then v ^^^ e.2 else v) 0

/-- The symbols of a codeword that arrive wrong. -/
def Codeword.wrong (c : Codeword) : List (Fin 544) :=
  ((c.errs.map (fun e => e.1)).eraseDups).filter (fun i => c.diff i ≠ 0)

/-- RS(544,514) corrects 15 symbols (R245). A codeword with more wrong ones is uncorrectable. -/
def Codeword.good (c : Codeword) : Bool := c.wrong.length ≤ 15

/-- The scrambled message as the receiver has it: the sent one where the code corrects it.
PRESUMED, unsafe: log entry 197. -/
def Codeword.message (c : Codeword) : Nat :=
  if c.good then c.msg.toNat
  else c.wrong.foldl (fun m i =>
    if i.val < 514 then m ^^^ (revBits (c.diff i).toNat 10 <<< (5140 - 10 * (i.val + 1))) else m) c.msg.toNat

/-- The units that a cell takes, by its header (R250). The length of a reserved TYPE is taken from LAST_BYTES. -/
def cellUnits (h : Nat) : Nat :=
  let last := h / 2 ^ 73 % 2 ^ 8
  let pay := ceilDiv (if last = 0 then 256 else last) 16
  match h / 2 ^ 124 with
  | 0 => 1
  | 1 => 1 + b2n (bitAt h 123) + pay
  | 3 => 5
  | 4 => 17
  | _ => 1 + pay

/-- A DATA cell by its header, SOP extension and payload (R248 to R250). -/
def dataOf (h : Nat) (rest : List Byte) : FCell :=
  let sop := bitAt h 123
  let ext := if sop then beNat (bytesAt rest 0 16) else 0
  let last := h / 2 ^ 73 % 2 ^ 8
  { sop := sop, eop := bitAt h 122, dest := h / 2 ^ 111 % 2 ^ 11, src := h / 2 ^ 100 % 2 ^ 11, engine := h / 2 ^ 97 % 2 ^ 3
    seq := h / 2 ^ 81 % 2 ^ 16, rind := BitVec.ofNat 32 (h / 2 ^ 32), metaW := ext / 2 ^ 64, pktLen := ext / 2 ^ 49 % 2 ^ 15
    port := ext / 2 ^ 41 % 2 ^ 8, cls := ext / 2 ^ 38 % 2 ^ 3
    pay := bytesAt rest (if sop then 16 else 0) (if last = 0 then 256 else last) }

/-- A HELLO by its payload (R257). -/
def helloOf (p : List Byte) : Hello :=
  let f (o n : Nat) : Nat := beNat (bytesAt p o n)
  { version := f 0 1, role := f 1 1, id := f 2 2, plane := f 4 1, port := f 5 1, mask := f 6 1, retrain := bitAt (f 7 1) 0
    credits := f 8 2 }

/-- A control message acts by its code (R272). -/
def Block.message (b : Block) (m : Nat) : Block :=
  let dev := m / 2 ^ 113 % 2 ^ 11
  match msgCode m with
  | 1 => b.requestIn dev (m / 2 ^ 93 % 2 ^ 20) (m / 2 ^ 85 % 2 ^ 8) (m / 2 ^ 82 % 2 ^ 3) (m / 2 ^ 80 % 2 ^ 2)
  | 2 => b.grantIn (m / 2 ^ 93 % 2 ^ 20) (m / 2 ^ 86 % 2 ^ 7)
  | 3 => b.syncTo (ctxOf dev (m / 2 ^ 110 % 2 ^ 3)) (m / 2 ^ 94 % 2 ^ 16)
  | 4 => b.sendSync (m / 2 ^ 110 % 2 ^ 3) dev
  | _ => b

/-- A cell has come whole, as the units of its codewords (R247 to R251, R272). -/
def Block.rxCell (b : Block) (l : Nat) (us : List Nat) : Block :=
  let h := us.headD 0
  let rest := ((us.drop 1).map (beBytes 16)).flatten
  let crc := h % 2 ^ 32
  let ok := fcs32 (beBytes 16 (h - crc) ++ rest) = BitVec.ofNat 32 crc
  let ms := us.drop 1
  let rx : CellRx := ⟨l, ok, h / 2 ^ 65 % 2 ^ 8, (ms.filter (fun m => 5 ≤ msgCode m)).length⟩
  match h / 2 ^ 124 with
  | 1 => b.dataCell { rx with badMsgs := 0 } (dataOf h rest)
  | 2 => b.controlIn (some rx) (fun y => ms.foldl Block.message y)
  | 3 => b.hello { rx with badMsgs := 0 } (helloOf rest)
  | 4 => b.reachCell { rx with badMsgs := 0 } (beNat rest)
  | t => b.headerCell { rx with badMsgs := 0 } t

/-- One unit reaches the receiver of a lane: it begins a cell, goes on with one, or is discarded (R246, R247). -/
def Block.rxUnit (b : Block) (l u : Nat) : Block :=
  let x := b.lane l
  match x.rx with
  | .within p =>
    let us := p ++ [u]
    if us.length < cellUnits (us.headD 0) then b.setLane l { x with rx := .within us }
    else (b.setLane l { x with rx := .within [] }).rxCell l us
  | _ => b

/-- The units of a recovered message are read: after damage, or with the first of a lane's bring-up, from the unit that FIRST_HDR
names on (R247). -/
def Block.rxUnits (b : Block) (l m : Nat) : Block :=
  let us := (upTo cwUnits).map (fun k => m >>> (5140 - 128 * (k + 1)) % 2 ^ 128)
  let first := m / 2 ^ 14 % 2 ^ 6
  let x := b.lane l
  match x.rx with
  | .within _ => us.foldl (fun y u => y.rxUnit l u) b
  | r =>
    if cwUnits ≤ first then b
    else
      let b1 := b.setLane l { x with rx := .within [] }
      (us.drop first).foldl (fun y u => y.rxUnit l u) (if r = .skip then b1.laneCount l 3 else b1)

/-- A codeword arrives on a lane that has codeword lock or looks for it (R245 to R247): it counts, and with the lock held its cells
are read. -/
def Block.codeword (b : Block) (l : Nat) (c : Codeword) : Block :=
  if !b.fabLive || b.laneState l < 2 || 5 < b.laneState l then b
  else
    let x := b.lane l
    let b1 := b.setLane l { x with rxScram := c.message % 2 ^ 58 }
    if !c.good then b1.codewordBad l
    else
      let b2 := b1.codewordGood l (!c.wrong.isEmpty)
      if x.locked && 3 ≤ b.laneState l then b2.rxUnits l (descramble x.rxScram c.message) else b2

/-- The units of a cell as it is sent, the first marked. -/
def markUnits (bytes : List Byte) : List (Nat × Bool) :=
  (upTo (bytes.length / 16)).map (fun k => (beNat (bytesAt bytes (16 * k) 16), decide (k = 0)))

/-- An IDLE cell without returns of a device, as a marked unit. -/
def idleUnit (dev : Nat) : List (Nat × Bool) := markUnits (wireCell (cellHdr 0 0 dev 0 0) [])

/-- What a lane has sent since it began its codewords: its scrambler's state and its CW_COUNT then, and its units since. -/
def Block.laneSent (b : Block) (l : Nat) : Nat × Nat × List (Nat × Bool) :=
  let s := b.out.foldl (fun (s : Nat × Nat × List (Nat × Bool)) o => match o with
    | .codeStart k scram count => if k = l then (scram, count, []) else s
    | .cell k bytes => if k = l then (s.1, s.2.1, s.2.2 ++ markUnits bytes) else s
    | .idles k n dev => if k = l then (s.1, s.2.1, s.2.2 ++ (List.replicate n (idleUnit dev)).flatten) else s
    | _ => s) (0, 0, [])
  (s.1, s.2.1, s.2.2 ++ (List.replicate (b.lane l).idles (idleUnit b.devId)).flatten)

/-- Units packed 40 to a codeword, scrambled and encoded (R245): from a scrambler state and a CW_COUNT. FIRST_HDR is the first unit
that begins a cell. -/
def packUnits (scram count : Nat) : List (List (Nat × Bool)) → List (List Nat)
  | [] => []
  | us :: rest =>
    if us.length < cwUnits then []
    else
      let first := us.findIdx (fun u => u.2)
      let m := scramble scram (cwMessage (us.map (fun u => u.1)) first count)
      rsEncode m :: packUnits (m % 2 ^ 58) (count + 1) rest

/-- The codewords that a lane has sent since it began them, each as its 544 symbols (R245). -/
def Block.laneCodewords (b : Block) (l : Nat) : List (List Nat) :=
  let s := b.laneSent l
  packUnits s.1 s.2.1 (chunksOf cwUnits (s.2.2.length + 1) s.2.2)

end Sys2Proof.Machine
end

