-- ==== Sys2Proof/Machine/CmdFabric.lean ====
section
/-! DEFINITION. The meanings of the commands of one family. Fabric lanes and cells (R244 to R269). -/

namespace Sys2Proof.Machine

/-- FAB_LANE_ENABLE (R253): Writing LANEl_CFG.ENABLE = 1 moves a fabric lane from DISABLED to TRAIN. -/
def execFabLaneEnable (w : RegWrite) (l : Fin 96) (s : State) : Host.Outcome State Fault Refusal :=
  s.act (fun b => b.regWrite w.src (laneCfg l.val) (fldPut FAB.LANE_CFG_ENABLE w.value 1))

/-- FAB_LANE_DISABLE (R253): Writing ENABLE = 0 moves a fabric lane to DISABLED from any state. -/
def execFabLaneDisable (w : RegWrite) (l : Fin 96) (s : State) : Host.Outcome State Fault Refusal :=
  s.act (fun b => b.regWrite w.src (laneCfg l.val) (fldPut FAB.LANE_CFG_ENABLE w.value 0))

/-- LANE_TRAINING_RESULT (R255): Fabric lane training locks, moving the lane to HELLO, or fails or times out at 500 ms,
falling back in rate. -/
def execLaneTrainingResult (l : Fin 96) (r : Trained) (s : State) : Host.Outcome State Fault Refusal :=
  s.act (fun b => b.laneTrained l.val r)

/-- CODEWORD (R246): A fabric codeword is decoded; lock is gained or lost, and damaged cells are skipped to FIRST_HDR. -/
def execCodeword (l : Fin 96) (cw : Codeword) (s : State) : Host.Outcome State Fault Refusal :=
  s.act (fun b => b.codeword l.val cw)

/-- HELLO (R257): A received HELLO cell records the partner, its plane and RATE_MASK, and drives PROBATION, TRAIN or DOWN.
-/
def execHello (rx : CellRx) (h : Hello) (s : State) : Host.Outcome State Fault Refusal :=
  s.act (fun b => b.hello rx.norm h.norm)

/-- HELLO_SEND (R256): A HELLO cell is sent every 10 µs in HELLO state and every PERIOD ticks in UP. -/
def execHelloSend (l : Fin 96) (s : State) : Host.Outcome State Fault Refusal :=
  s.act (fun b => b.helloSend l.val)

/-- HELLO_TIMEOUT (R253): No HELLO within 10 ms in HELLO state, or none for MISS × PERIOD ticks in UP, takes the lane
DOWN. -/
def execHelloTimeout (l : Fin 96) (s : State) : Host.Outcome State Fault Refusal :=
  s.act (fun b => b.helloTimeout l.val)

/-- PROBATION_END (R253): After 1 ms clean in PROBATION, the lane goes UP, or after 10 ms with an unaccepted partner it
goes DOWN. -/
def execProbationEnd (l : Fin 96) (s : State) : Host.Outcome State Fault Refusal :=
  s.act (fun b => b.probationEnd l.val)

/-- LANE_RETRY (R253): After RETRY ms in WAIT, the lane returns to TRAIN at 53.125 Gbit/s. -/
def execLaneRetry (l : Fin 96) (s : State) : Host.Outcome State Fault Refusal :=
  s.act (fun b => b.laneRetry l.val)

/-- LANE_JOIN_SPRAY (R262): A lane that entered UP joins spraying at the next tick boundary. -/
def execLaneJoinSpray (l : Fin 96) (s : State) : Host.Outcome State Fault Refusal :=
  s.act (fun b => b.laneJoin l.val)

/-- REACH (R260): A received REACH cell replaces the lane's reach map. -/
def execReach (rx : CellRx) (map : BitVec 2048) (s : State) : Host.Outcome State Fault Refusal :=
  s.act (fun b => b.reachCell rx.norm map.toNat)

/-- IDLE (R258): A received IDLE cell adds its CREDIT_RET to the link's transmit credit. -/
def execIdle (rx : CellRx) (type : BitVec 4) (s : State) : Host.Outcome State Fault Refusal :=
  s.act (fun b => b.headerCell rx.norm type.toNat)

/-- DATA_CELL (R267): A received DATA cell is re-sequenced by its distance from EXPECT: delivered, held, or discarded. -/
def execDataCell (rx : CellRx) (cell : FCell) (s : State) : Host.Outcome State Fault Refusal :=
  s.act (fun b => b.dataCell rx.norm cell.norm)

/-- RESEQ_TIMEOUT (R268): A missing cell not arrived within TIMEOUT is declared lost, and delivery resumes at the next
SOP. -/
def execReseqTimeout (ctx : BitVec 14) (s : State) : Host.Outcome State Fault Refusal :=
  s.act (fun b => b.resTimeout ctx.toNat)

/-- SPRAY (R265): The spray stage assigns a staging head cell to the candidate lane with the smallest load value. -/
def execSpray (s : State) : Host.Outcome State Fault Refusal :=
  s.act (fun b => b.spray)

/-- UNREACH_DROP (R264): A head cell with no reaching lane for 10 µs is discarded with its packet. -/
def execUnreachDrop (j : Fin 8) (s : State) : Host.Outcome State Fault Refusal :=
  s.act (fun b => b.unreachDrop j.val)

/-- CONTROL_CELL_SEND (R266): A CONTROL cell leaves when it holds 16 messages or 64 ns after its first message. -/
def execControlCellSend (dev : BitVec 11) (s : State) : Host.Outcome State Fault Refusal :=
  s.act (fun b => b.controlSend dev.toNat)

/-- PLANE_DRAIN (R262): A write of KCL.PLANE_DRAIN stops new assignments to the lanes of the drained planes. -/
def execPlaneDrain (w : RegWrite) (s : State) : Host.Outcome State Fault Refusal :=
  s.act (fun b => b.regWrite w.src KCL.PLANE_DRAIN w.value)

/-- DRAIN (R262): A write of FABn.CTL.DRAIN stops new assignments to the macro's lanes, or returns them. -/
def execDrain (w : RegWrite) (n : Fin 12) (s : State) : Host.Outcome State Fault Refusal :=
  s.act (fun b => b.regWrite w.src (FAB.CTL n.val) w.value)

/-- DRAINED (R262): A drained macro's lanes have sent everything assigned, and DRAINED sets. -/
def execDrained (n : Fin 12) (s : State) : Host.Outcome State Fault Refusal :=
  s.act (fun b => b.macroDrained n.val)

end Sys2Proof.Machine
end

