-- ==== Sys2Proof/Machine/CmdFirmware.lean ====
section
/-! DEFINITION. The meanings of the commands of one family. Firmware downloads and settings (R444 to R467). -/

namespace Sys2Proof.Machine

/-- UPD_START (R457): FWM.UPD_CTL.START writes the target headers INCOMPLETE and begins receiving, or it is refused. -/
def execUpdStart (w : RegWrite) (s : State) : Host.Outcome State Fault Refusal :=
  s.act (fun b => b.regWrite w.src FWM.UPD_CTL (fldPut FWM.UPD_CTL_START w.value 1))

/-- UPD_FINISH (R457): FWM.UPD_CTL.FINISH writes the slot header COMPLETE once every KiB has been received. -/
def execUpdFinish (w : RegWrite) (s : State) : Host.Outcome State Fault Refusal :=
  s.act (fun b => b.regWrite w.src FWM.UPD_CTL (fldPut FWM.UPD_CTL_FINISH w.value 1))

/-- UPD_ABORT (R457): FWM.UPD_CTL.ABORT ends the download with its headers INCOMPLETE. -/
def execUpdAbort (w : RegWrite) (s : State) : Host.Outcome State Fault Refusal :=
  s.act (fun b => b.regWrite w.src FWM.UPD_CTL (fldPut FWM.UPD_CTL_ABORT w.value 1))

/-- UPD_ACTIVATE (R462): FWM.UPD_CTL.ACTIVATE writes a boot record that puts the new slot on trial. -/
def execUpdActivate (w : RegWrite) (s : State) : Host.Outcome State Fault Refusal :=
  s.act (fun b => b.regWrite w.src FWM.UPD_CTL (fldPut FWM.UPD_CTL_ACTIVATE w.value 1))

/-- UPD_CONFIRM (R464): FWM.UPD_CTL.CONFIRM writes the migrated settings and a boot record that ends the trial or the
quarantine. -/
def execUpdConfirm (w : RegWrite) (s : State) : Host.Outcome State Fault Refusal :=
  s.act (fun b => b.regWrite w.src FWM.UPD_CTL (fldPut FWM.UPD_CTL_CONFIRM w.value 1))

/-- FIRMWARE_BLOCK (R458): A FIRMWARE_BLOCK descriptor writes its block into the download target and marks it received. -/
def execFirmwareBlock (s : State) : Host.Outcome State Fault Refusal :=
  s.act (fun b => b.firmwareBlock)

end Sys2Proof.Machine
end

