-- ==== Sys2Proof/Machine/CmdFrond.lean ====
section
/-! DEFINITION. The meanings of the commands of one family. Staging, fronds, programs (R36, R37, R46 to R93). -/

namespace Sys2Proof.Machine

/-- FRAME_RECEIVE (R92): A frame's bytes are written into its port's staging share, with the FCS and the ARRIVAL rinds
computed as they arrive. -/
def execFrameReceive (o : LineObj) (bytes : List Byte) (fcsOk : Bool) (fec : FecSeen) (s : State) : Host.Outcome State
    Fault Refusal :=
  s.act (fun b => b.frameIn o.norm bytes fcsOk fec)

/-- PACKET_READY (R91): 12 FD core cycles after its last byte is stored, a staged packet becomes ready for admission. -/
def execPacketReady (p : Fin 256) (s : State) : Host.Outcome State Fault Refusal :=
  s.act (fun b => b.packetReady p.val)

/-- FROND_ADMISSION (R54): At each calendar entry, the frond admits the primary owner's or the secondary owner's packet,
or a bubble. -/
def execFrondAdmission (f : Fin 16) (seen : AdmitSeen) (s : State) : Host.Outcome State Fault Refusal :=
  s.act (fun b => b.frondAdmission f.val seen.norm)

/-- PARSER_EXIT (R102): The parser ends after PARSE_CYCLES with outcome OK, DEPTH_EXCEEDED or MALFORMED, and the packet
enters the frond. -/
def execParserExit (f : Fin 16) (s : State) : Host.Outcome State Fault Refusal :=
  s.act (fun b => b.parserExit f.val)

/-- HAND_OFF (R49): FROND_CYCLES after frond entry, the pass hands off and its disposition is applied. -/
def execHandOff (f : Fin 16) (wire : Fin 4) (cells : List Seen) (acc : AccSeen) (s : State) : Host.Outcome State Fault
    Refusal :=
  s.act (fun b => b.handOff f.val wire.val (cells.map Seen.norm) acc.norm)

/-- RECIRC_STORE (R88): A recirculated packet's store into the recirculation FIFO completes, or it is dropped at a full
FIFO. -/
def execRecircStore (k : Fin 8) (s : State) : Host.Outcome State Fault Refusal :=
  s.act (fun b => b.recircStore k.val)

/-- DRAIN_WINDOW_CLOSE (R82): DRAIN_WINDOW cycles after a swap, packets still counted are dropped as EXPIRED. -/
def execDrainWindowClose (s : State) : Host.Outcome State Fault Refusal :=
  s.act (fun b => b.windowClose)

/-- FRD_CAL_COMMIT (R57): FRDn.CAL_CTL.COMMIT requests the shadow calendar for the next wrap. -/
def execFrdCalCommit (w : RegWrite) (f : Fin 16) (s : State) : Host.Outcome State Fault Refusal :=
  s.act (fun b => b.regWrite w.src (FRD.CAL_CTL f.val) (fldPut FRD.CAL_CTL_COMMIT w.value 1))

/-- FRD_CAL_CHECK (R56): At the wrap to position 0, the shadow calendar is checked and becomes active, or COMMIT_FAIL
sets. -/
def execFrdCalCheck (f : Fin 16) (s : State) : Host.Outcome State Fault Refusal :=
  s.act (fun b => b.frdCalWrap f.val)

/-- PROG_LOAD_START (R76): PROG_LOAD_CTL.START begins a program load into the free bank, or it is refused. -/
def execProgLoadStart (w : RegWrite) (s : State) : Host.Outcome State Fault Refusal :=
  s.act (fun b => b.regWrite w.src GLB.PROG_LOAD_CTL (fldPut GLB.PROG_LOAD_CTL_START w.value 1))

/-- PROG_LOAD_ABORT (R76): PROG_LOAD_CTL.ABORT ends a load in progress, and the bank becomes EMPTY. -/
def execProgLoadAbort (w : RegWrite) (s : State) : Host.Outcome State Fault Refusal :=
  s.act (fun b => b.regWrite w.src GLB.PROG_LOAD_CTL (fldPut GLB.PROG_LOAD_CTL_ABORT w.value 1))

/-- PROG_ACTIVATE (R37): PROG_LOAD_CTL.ACTIVATE in QUIESCENT requests that the VERIFIED bank become active at the next
tick boundary. -/
def execProgActivate (w : RegWrite) (s : State) : Host.Outcome State Fault Refusal :=
  s.act (fun b => b.regWrite w.src GLB.PROG_LOAD_CTL (fldPut GLB.PROG_LOAD_CTL_ACTIVATE w.value 1))

/-- PROG_ACTIVATE_APPLY (R37): At the tick boundary, the VERIFIED bank becomes ACTIVE without a drain, or the outcome is
recorded as a failure. -/
def execProgActivateApply (s : State) : Host.Outcome State Fault Refusal :=
  s.act (fun b => b.activateApply)

/-- PROGRAM_BLOCK (R419): A PROGRAM_BLOCK descriptor writes image bytes at its offset, or it aborts the load or returns an
error status. -/
def execProgramBlock (s : State) : Host.Outcome State Fault Refusal :=
  s.act (fun b => b.programBlock)

/-- IMAGE_VERIFY (R77): Within 20 ms of the last byte, the image is checked and becomes VERIFIED or REFUSED. -/
def execImageVerify (s : State) : Host.Outcome State Fault Refusal :=
  s.act (fun b => b.imageVerify)

/-- PROGRAM_SWAP (R80): A PROGRAM_SWAP anchor entry makes the named bank ACTIVE and the old bank DRAINING at its tick. -/
def execProgramSwap (s : State) : Host.Outcome State Fault Refusal :=
  s.act (fun b => b.programSwap)

end Sys2Proof.Machine
end

