-- ==== Sys2Proof/Machine/CmdHost.lean ====
section
/-! DEFINITION. The meanings of the commands of one family. The host interface (R395 to R420). -/

namespace Sys2Proof.Machine

/-- TD_ACCESS_TIMEOUT (R402): A TD page access unanswered within 20 µs completes with 0xFFFF_FFFF and is captured with
code 0x07. -/
def execTdAccessTimeout (src : Source) (page : BitVec 10) (off : BitVec 16) (write : Bool) (s : State) : Host.Outcome
    State Fault Refusal :=
  s.act (fun b => b.tdTimeout src page.toNat off.toNat write)

/-- MSIX_SEND (R406): A vector whose summary is 1 while armed and unmasked sends its MSI-X message and disarms. -/
def execMsixSend (v : Fin 512) (fnMasked : Bool) (s : State) : Host.Outcome State Fault Refusal :=
  s.act (fun b => b.msixSend v.val fnMasked)

/-- VEC_ACK (R406): A write of PCI.VEC_ACK re-arms a vector, which resends if its summary is still 1. -/
def execVecAck (w : RegWrite) (s : State) : Host.Outcome State Fault Refusal :=
  s.act (fun b => b.regWrite w.src PCI.VEC_ACK w.value)

/-- WINDOW_READ (R409): A BAR2 read returns 32-byte words of the selected space through the aperture. -/
def execWindowRead (a : BitVec 30) (n : Fin 4097) (uncorr : Bool) (s : State) : Host.Outcome State Fault Refusal :=
  s.act (fun b => b.windowRead a.toNat n.val uncorr)

/-- WINDOW_WRITE (R409): A BAR2 write lands in DIRECT units as M-slot writes, or it is discarded and counted. -/
def execWindowWrite (a : BitVec 30) (bytes : List (Option Byte)) (s : State) : Host.Outcome State Fault Refusal :=
  s.act (fun b => b.windowWrite a.toNat bytes)

/-- RING_POST (R412): A write of RINGr_POST gives descriptors to the device, or it is discarded as a CREDIT error. -/
def execRingPost (w : RegWrite) (r : Fin 69) (s : State) : Host.Outcome State Fault Refusal :=
  s.act (fun b => b.regWrite w.src (PCI.RING_POST r.val) w.value)

/-- RING_ENABLE (R413): Setting RINGr_CFG.ENABLE sets HEAD to 0 and CREDIT to the ring size, and clears ERR and DROPS. -/
def execRingEnable (w : RegWrite) (r : Fin 69) (s : State) : Host.Outcome State Fault Refusal :=
  s.act (fun b => b.regWrite w.src (PCI.RING_CFG r.val) (fldPut PCI.RING_CFG_ENABLE w.value 1))

/-- RING_DISABLE (R413): Clearing ENABLE, or a ring stop, finishes the descriptor in progress, flushes the rest and sets
IDLE within 100 µs. -/
def execRingDisable (w : RegWrite) (r : Fin 69) (s : State) : Host.Outcome State Fault Refusal :=
  s.act (fun b => b.regWrite w.src (PCI.RING_CFG r.val) (fldPut PCI.RING_CFG_ENABLE w.value 0))

/-- RING_COALESCE (R414): After COUNT returns, or TIME µs after the first unreported return, the ring requests its
interrupt. -/
def execRingCoalesce (r : Fin 69) (s : State) : Host.Outcome State Fault Refusal :=
  s.act (fun b => b.ringCoalesce r.val)

/-- INJECT_FETCH (R418): The device fetches a whole packet from an inject ring into its frond's inject FIFO, or returns
BAD_LEN or BAD_TARGET. -/
def execInjectFetch (s : State) : Host.Outcome State Fault Refusal :=
  s.act (fun b => b.injectFetch)

/-- FUNCTION_LEVEL_RESET (R413): A PCIe FLR disables every ring without write-backs and clears the MSI-X table, VEC_MAPs,
host unlocks and the aperture. -/
def execFunctionLevelReset (s : State) : Host.Outcome State Fault Refusal :=
  s.act (fun b => b.flr)

/-- PCIE_PERST_N (R505): PCIE_PERST_N low holds the link down and resets the configuration space and rings; its rise
starts link training within 20 ms. -/
def execPciePerstN (level : Bool) (s : State) : Host.Outcome State Fault Refusal :=
  s.act (fun b => b.perst level)

end Sys2Proof.Machine
end

