-- ==== Sys2Proof/Machine/CmdLine.lean ====
section
/-! DEFINITION. The meanings of the commands of one family. The line (R276 to R308). -/

namespace Sys2Proof.Machine

/-- LANE_ENABLE (R277): Writing LINn.LANEl_CFG.ENABLE = 1 moves a line lane from DISABLED to ACQUIRE. -/
def execLaneEnable (w : RegWrite) (n : Fin 8) (l : Fin 8) (s : State) : Host.Outcome State Fault Refusal :=
  s.act (fun b => b.regWrite w.src (LIN.LANE_CFG n.val l.val) (fldPut LIN.LANE_CFG_ENABLE w.value 1))

/-- LANE_DISABLE (R277): Writing ENABLE = 0 moves a line lane to DISABLED and squelches it. -/
def execLaneDisable (w : RegWrite) (n : Fin 8) (l : Fin 8) (s : State) : Host.Outcome State Fault Refusal :=
  s.act (fun b => b.regWrite w.src (LIN.LANE_CFG n.val l.val) (fldPut LIN.LANE_CFG_ENABLE w.value 0))

/-- CDR_LOCK (R277): A line lane's CDR locks and the lane enters UP. -/
def execCdrLock (n : Fin 8) (l : Fin 8) (s : State) : Host.Outcome State Fault Refusal :=
  s.act (fun b => b.cdrLock n.val l.val)

/-- LOCK_LOSS_RETRAIN (R278): Loss of CDR lock with signal present for more than 20 ms puts the lane in RETRAIN. -/
def execLockLossRetrain (n : Fin 8) (l : Fin 8) (s : State) : Host.Outcome State Fault Refusal :=
  s.act (fun b => b.lockLoss n.val l.val)

/-- RETRAIN (R278): Writing LANEl_CFG.RETRAIN starts a retrain from ACQUIRE, UP or FAILED. -/
def execRetrain (w : RegWrite) (n : Fin 8) (l : Fin 8) (s : State) : Host.Outcome State Fault Refusal :=
  s.act (fun b => b.regWrite w.src (LIN.LANE_CFG n.val l.val) (fldPut LIN.LANE_CFG_RETRAIN w.value 1))

/-- RETRAIN_ATTEMPT_END (R278): A retrain attempt locks, returning the lane to UP, or fails; after three counted failures
the lane is FAILED. -/
def execRetrainAttemptEnd (n : Fin 8) (l : Fin 8) (locked : Bool) (lost : Bool) (s : State) : Host.Outcome State Fault
    Refusal :=
  s.act (fun b => b.retrainAttempt n.val l.val locked lost)

/-- DEFECT_CHANGE (R305): A raw defect of a port, PHY, group, client or context sets or clears, and its reported bits are
recomputed. -/
def execDefectChange (o : LineObj) (bit : Fin 16) (on : Bool) (s : State) : Host.Outcome State Fault Refusal :=
  s.act (fun b => b.defectChange o.norm bit.val on)

/-- PORT_UP (R286): A port is up once its defects have been clear for 10 ms. -/
def execPortUp (o : LineObj) (s : State) : Host.Outcome State Fault Refusal :=
  s.act (fun b => b.portUp o.norm)

/-- LINE_EVENT (R306): At the tick's end, one LINE event per object carries the reported bits that changed. -/
def execLineEvent (s : State) : Host.Outcome State Fault Refusal :=
  s.act (fun b => b.lineEvents)

/-- PORT_ENABLE (R283): Setting a MAC port, PHY or OTN context ENABLE claims its lanes, or it is refused with CFG_FAIL. -/
def execPortEnable (w : RegWrite) (o : OwnerReg) (s : State) : Host.Outcome State Fault Refusal :=
  s.act (fun b => b.regWrite w.src o.cfg (fldPut LIN.MAC_CFG_ENABLE w.value 1))

/-- PORT_DISABLE (R283): Clearing ENABLE releases the owner's lanes and may take new settings. -/
def execPortDisable (w : RegWrite) (o : OwnerReg) (s : State) : Host.Outcome State Fault Refusal :=
  s.act (fun b => b.regWrite w.src o.cfg (fldPut LIN.MAC_CFG_ENABLE w.value 0))

/-- LPORT_MAP_WRITE (R280): A write of LPORTp_MAP binds a logical port, or it is refused if the source is bound or out of
slice. -/
def execLportMapWrite (w : RegWrite) (p : Fin 256) (s : State) : Host.Outcome State Fault Refusal :=
  s.act (fun b => b.regWrite w.src (LIN.LPORT_MAP (p.val / 32) (p.val % 32)) w.value)

/-- FLEXE_OVERHEAD (R292): A FlexE overhead block is read, and lock, skew and mismatch states are updated. -/
def execFlexeOverhead (g : Fin 8) (phy : Fin 8) (o : FlexeOh) (s : State) : Host.Outcome State Fault Refusal :=
  s.act (fun b => b.flexeOverhead g.val phy.val o.norm)

/-- SKEW_RECOVERY (R293): Skew held within 4 µs for 10 ms clears SKEW, and the clients return. -/
def execSkewRecovery (g : Fin 8) (s : State) : Host.Outcome State Fault Refusal :=
  s.act (fun b => b.skewRecovery g.val)

/-- CAL_REQ (R295): FLX.GRPg_CTL.CAL_REQ sends CR for the inactive calendar. -/
def execCalReq (w : RegWrite) (g : Fin 8) (s : State) : Host.Outcome State Fault Refusal :=
  s.act (fun b => b.regWrite w.src (FLX.GRP_CTL g.val) (fldPut FLX.GRP_CTL_CAL_REQ w.value 1))

/-- CALENDAR_SWITCH (R295): The far end's CA matches, and the transmit side switches calendars at the next multiframe
boundary. -/
def execCalendarSwitch (g : Fin 8) (s : State) : Host.Outcome State Fault Refusal :=
  s.act (fun b => b.calSwitch g.val)

/-- CAL_TIMEOUT (R295): CA does not match within 10 ms, so nothing switches and CAL_TIMEOUT sets. -/
def execCalTimeout (g : Fin 8) (s : State) : Host.Outcome State Fault Refusal :=
  s.act (fun b => b.calTimeout g.val)

/-- OTN_FRAME (R298): An OTN frame period passes, and the trackers, frame and multiframe state, BIP, BEI and overhead
detectors update. -/
def execOtnFrame (c : Fin 64) (f : OtnFrame) (s : State) : Host.Outcome State Fault Refusal :=
  s.act (fun b => b.otnFrame c.val f.norm)

/-- OTN_LOF (R298): Out-of-frame or out-of-multiframe that lasts 3 ms raises LOF or LOM; in-frame for 3 ms clears it. -/
def execOtnLof (c : Fin 64) (multiframe : Bool) (s : State) : Host.Outcome State Fault Refusal :=
  s.act (fun b => b.otnLof c.val multiframe)

/-- GFP_FRAME (R304): A GFP frame is delineated; Ethernet client frames go to staging, and others are removed or counted.
-/
def execGfpFrame (c : Fin 64) (hec : Fin 3) (f : GfpFrame) (s : State) : Host.Outcome State Fault Refusal :=
  s.act (fun b => b.gfpFrame c.val hec.val f)

/-- CAGE_POLL (R307): Every 10 ms the sorus polls the cage expanders, handling module insertion, removal and interrupts.
-/
def execCagePoll (n : Fin 8) (c : Fin 8) (q : CagePoll) (s : State) : Host.Outcome State Fault Refusal :=
  s.act (fun b => b.cagePoll n.val c.val q.norm)

end Sys2Proof.Machine
end

