-- ==== Sys2Proof/Machine/CmdMessages.lean ====
section
/-! DEFINITION. The meanings of the commands of one family. Control messages of the fabric, and pauses (R237 to R241, R270 to R272, R287 to R289). -/

namespace Sys2Proof.Machine

/-- REQUEST (R239): A received REQUEST message creates, updates or frees a request context, or it is discarded as
CTX_FULL. -/
def execRequest (rx : Option CellRx) (src : BitVec 11) (voq : BitVec 20) (port : BitVec 8) (cls : BitVec 3) (state :
    BitVec 2) (s : State) : Host.Outcome State Fault Refusal :=
  s.act (fun b => b.controlIn (rx.map CellRx.norm) (fun y => y.requestIn src.toNat voq.toNat port.toNat cls.toNat
    state.toNat))

/-- GRANT (R237): A received GRANT message adds UNITS × 1,024 bytes to the VOQ's balance up to its cap. -/
def execGrant (rx : Option CellRx) (voq : BitVec 20) (units : BitVec 7) (s : State) : Host.Outcome State Fault Refusal
    :=
  s.act (fun b => b.controlIn (rx.map CellRx.norm) (fun y => y.grantIn voq.toNat units.toNat))

/-- SYNC (R270): A received SYNC message sets EXPECT to NEXT_SEQ and synchronises the stream context. -/
def execSync (rx : Option CellRx) (src : BitVec 11) (engine : BitVec 3) (next : BitVec 16) (s : State) : Host.Outcome
    State Fault Refusal :=
  s.act (fun b => b.controlIn (rx.map CellRx.norm) (fun y => y.syncTo (ctxOf src.toNat engine.toNat) next.toNat))

/-- SYNC_REQ (R271): A received SYNC_REQ message is answered with a SYNC for the named engine. -/
def execSyncReq (rx : Option CellRx) (src : BitVec 11) (engine : BitVec 3) (s : State) : Host.Outcome State Fault
    Refusal :=
  s.act (fun b => b.controlIn (rx.map CellRx.norm) (fun y => y.sendSync engine.toNat src.toNat))

/-- SYNC_REQ_RESEND (R270): An unsynchronised context sends another SYNC_REQ each time TIMEOUT passes. -/
def execSyncReqResend (ctx : BitVec 14) (s : State) : Host.Outcome State Fault Refusal :=
  s.act (fun b => b.syncAgain ctx.toNat)

/-- NOSYNC_EXPIRY (R270): Held cells of a context still unsynchronised after 16 × TIMEOUT are discarded. -/
def execNosyncExpiry (ctx : BitVec 14) (s : State) : Host.Outcome State Fault Refusal :=
  s.act (fun b => b.noSync ctx.toNat)

/-- PAUSE_EXPIRY (R288): A pause's quanta run out, and the block on the queues is lifted. -/
def execPauseExpiry (k : Fin 128) (cls : Fin 9) (s : State) : Host.Outcome State Fault Refusal :=
  s.act (fun b => b.pauseExpiry k.val cls.val)

/-- MAC_CONTROL_FRAME (R287): A received MAC control frame starts or ends a pause or PFC pause, or it is counted as
PAUSE_OTHER. -/
def execMacControlFrame (k : Fin 128) (bytes : List Byte) (s : State) : Host.Outcome State Fault Refusal :=
  s.act (fun b => b.macControlFrame k.val bytes)

/-- PFC_RESEND (R289): Every half of TX_QUANTA while a class is above XON, the pause frame is sent again. -/
def execPfcResend (k : Fin 128) (cls : Fin 9) (s : State) : Host.Outcome State Fault Refusal :=
  s.act (fun b => b.pfcResend k.val cls.val)

end Sys2Proof.Machine
end

