-- ==== Sys2Proof/Machine/CmdModes.lean ====
section
/-! DEFINITION. The meanings of the commands of one family. Mode requests, supplies, pins, boot, faults and handover (R39 to R45, R446, R455, R470, R496 to R508). -/

namespace Sys2Proof.Machine

/-- BOOT (R41): A BOOT mode request moves the device from STANDBY or SPORE toward BOOT, subject to the temperature gate
and the loader check. -/
def execBoot (w : RegWrite) (same : Bool) (s : State) : Host.Outcome State Fault Refusal :=
  s.act (fun b => b.regWriteMeets { same := same } w.src AUX.MODE_REQ (fldPut AUX.MODE_REQ_REQ w.value 1))

/-- SPORE (R41): A SPORE mode request moves the device from STANDBY into boot-ROM recovery. -/
def execSpore (w : RegWrite) (same : Bool) (s : State) : Host.Outcome State Fault Refusal :=
  s.act (fun b => b.regWriteMeets { same := same } w.src AUX.MODE_REQ (fldPut AUX.MODE_REQ_REQ w.value 2))

/-- MAIN_OFF (R41): A MAIN_OFF request from a mode between BRING-UP and FAULT-HOLD drops the main rails and enters
STANDBY. -/
def execMainOff (w : RegWrite) (same : Bool) (s : State) : Host.Outcome State Fault Refusal :=
  s.act (fun b => b.regWriteMeets { same := same } w.src AUX.MODE_REQ (fldPut AUX.MODE_REQ_REQ w.value 3))

/-- WARM_RESET (R484): A WARM_RESET request squelches the transmitters, discards core and data-plane state, and runs
BRING-UP with the main rails held up. -/
def execWarmReset (w : RegWrite) (same : Bool) (s : State) : Host.Outcome State Fault Refusal :=
  s.act (fun b => b.regWriteMeets { same := same } w.src AUX.MODE_REQ (fldPut AUX.MODE_REQ_REQ w.value 4))

/-- QUIESCENT (R42): A QUIESCENT request stops port admission at packet boundaries, or from LOW-POWER HOLD wakes every
group. -/
def execQuiescent (w : RegWrite) (same : Bool) (s : State) : Host.Outcome State Fault Refusal :=
  s.act (fun b => b.regWriteMeets { same := same } w.src AUX.MODE_REQ (fldPut AUX.MODE_REQ_REQ w.value 5))

/-- FORWARDING (R41): A FORWARDING request from QUIESCENT enters FORWARDING or DEGRADED when every enabled slice has an
active sealed program. -/
def execForwarding (w : RegWrite) (same : Bool) (s : State) : Host.Outcome State Fault Refusal :=
  s.act (fun b => b.regWriteMeets { same := same } w.src AUX.MODE_REQ (fldPut AUX.MODE_REQ_REQ w.value 6))

/-- LOW_POWER_HOLD (R41): A LOW_POWER_HOLD request from QUIESCENT holds the ports down and lets every power group reach
P4. -/
def execLowPowerHold (w : RegWrite) (same : Bool) (s : State) : Host.Outcome State Fault Refusal :=
  s.act (fun b => b.regWriteMeets { same := same } w.src AUX.MODE_REQ (fldPut AUX.MODE_REQ_REQ w.value 7))

/-- SORUS_RESTART (R470): A SORUS_RESTART request enters HANDOVER and gives the old firmware up to 100 ms of grace before
the cores reset. -/
def execSorusRestart (w : RegWrite) (same : Bool) (s : State) : Host.Outcome State Fault Refusal :=
  s.act (fun b => b.regWriteMeets { same := same } w.src AUX.MODE_REQ (fldPut AUX.MODE_REQ_REQ w.value 8))

/-- FAULT_HOLD (R41): A FAULT_HOLD request enters FAULT-HOLD as a fatal error recorded with code 0x80. -/
def execFaultHold (w : RegWrite) (same : Bool) (s : State) : Host.Outcome State Fault Refusal :=
  s.act (fun b => b.regWriteMeets { same := same } w.src AUX.MODE_REQ (fldPut AUX.MODE_REQ_REQ w.value 9))

/-- QUIESCENT_PORT_HOLD (R42): 10 ms after a QUIESCENT request, packets still queued are discarded and counted, and the
ports are held down. -/
def execQuiescentPortHold (s : State) : Host.Outcome State Fault Refusal :=
  s.act (fun b => b.portHoldEnd)

/-- VAUX_IN_VALID (R496): VAUX_IN rises above 4.6 V and the island power-on reset begins. -/
def execVauxInValid (s : State) : Host.Outcome State Fault Refusal :=
  s.act (fun b => b.vauxValid)

/-- ISLAND_POWER_ON_RESET (R41): 10 ms after VAUX_IN is valid, the island reset completes, the device enters STANDBY, the
straps are sampled and the loader is checked. -/
def execIslandPowerOnReset (bootAuto : Bool) (sporeN : Bool) (s : State) : Host.Outcome State Fault Refusal :=
  s.act (fun b => b.islandPor bootAuto sporeN)

/-- VAUX_IN_LOSS (R499): VAUX_IN stays below 4.5 V for 10 µs, the device goes UNPOWERED, and the main-domain outputs go
high impedance. -/
def execVauxInLoss (torn : Torn) (s : State) : Host.Outcome State Fault Refusal :=
  s.act (fun b => b.vauxLoss torn)

/-- MAIN_RST_N_ASSERT (R503): A filtered low pulse on MAIN_RST_N drops MAIN_EN and enters STANDBY. -/
def execMainRstNAssert (s : State) : Host.Outcome State Fault Refusal :=
  s.act (fun b => b.mainReset)

/-- MAIN_RST_N_RELEASE (R504): The rising edge of MAIN_RST_N samples the straps, and the boot ROM checks the resident
loader. -/
def execMainRstNRelease (bootAuto : Bool) (sporeN : Bool) (s : State) : Host.Outcome State Fault Refusal :=
  s.act (fun b => b.mainRstRelease bootAuto sporeN)

/-- LOADER_CHECK_RESULT (R455): The boot ROM's check of the resident loader ends, and the device goes to BOOT on a pass or
to SPORE on a fail. -/
def execLoaderCheckResult (sigOk : Bool) (s : State) : Host.Outcome State Fault Refusal :=
  s.act (fun b => b.loaderResult sigOk)

/-- MAIN_RAILS_GOOD (R498): MAIN_PG rises, and the monitors find every main rail good. -/
def execMainRailsGood (s : State) : Host.Outcome State Fault Refusal :=
  s.act (fun b => b.railsGood)

/-- MAIN_RAIL_TIMEOUT (R41): The main rails are not good within 50 ms of MAIN_EN, so the device returns from BOOT to
STANDBY. -/
def execMainRailTimeout (s : State) : Host.Outcome State Fault Refusal :=
  s.act (fun b => b.railTimeout)

/-- MAIN_RAIL_LOSS (R44): A main rail or MAIN_PG fails for 2 µs while MAIN_EN is high; the device goes to STANDBY, or
stays in SPORE with MAIN_EN low. -/
def execMainRailLoss (s : State) : Host.Outcome State Fault Refusal :=
  s.act (fun b => b.railLoss)

/-- TEMPERATURE_GATE_RELEASE (R4): Both large dies reach the grade's core range, and the gate that held the device in
STANDBY or held MAIN_EN low is released. -/
def execTemperatureGateRelease (s : State) : Host.Outcome State Fault Refusal :=
  s.act (fun b => b.gateRelease)

/-- FIRMWARE_START (R455): The loader chooses an image, checks it, copies LOAD_LEN bytes and jumps to ENTRY, or falls
back, or enters SPORE. -/
def execFirmwareStart (sigA : Bool) (sigB : Bool) (s : State) : Host.Outcome State Fault Refusal :=
  s.act (fun b => b.firmwareStart sigA sigB)

/-- BRING_UP_COMPLETE (R41): Bridge training, PLL lock, sward initialisation, and DDR5 and SerDes training finish, and the
device enters QUIESCENT. -/
def execBringUpComplete (half : Bool) (faults : List (Nat × Nat)) (trained : Vector D5Train 17) (s : State) :
    Host.Outcome State Fault Refusal :=
  s.act (fun b => b.bringUpComplete half (faultsNorm faults) trained.toList)

/-- BRING_UP_FAILURE (R41): The bridge fails to train even at half width, a core PLL fails to lock, or sward
initialisation fails, and the device enters FAULT-HOLD. -/
def execBringUpFailure (kind : Fin 3) (s : State) : Host.Outcome State Fault Refusal :=
  s.act (fun b => b.bringUpFailure kind.val)

/-- FATAL_ERROR (R41): A fatal error is recorded in GLB.ERR_INFO and the device enters FAULT-HOLD.
DEDUCED, unsafe: log entry 159. -/
def execFatalError (code : FatalCode) (s : State) : Host.Outcome State Fault Refusal :=
  s.act (fun b => b.fatal code.code code.page)

/-- BOUNDARY_SCAN_ENTRY (R508): A JTAG test instruction is loaded with the main rails good, and the device enters
FAULT-HOLD with LAST_CAUSE 0x0C. -/
def execBoundaryScanEntry (s : State) : Host.Outcome State Fault Refusal :=
  s.act (fun b => b.boundaryScan)

/-- DEGRADATION_CHANGE (R40): A change of degradation condition or slice drain state moves the mode among FORWARDING,
DEGRADED and DRAIN. -/
def execDegradationChange (s : State) : Host.Outcome State Fault Refusal :=
  s.act (fun b => b.follow40)

/-- FIRMWARE_READY (R470): New firmware sets READY, which ends HANDOVER and returns the mode to QUIESCENT or to the mode
that R40 gives. -/
def execFirmwareReady (s : State) : Host.Outcome State Fault Refusal :=
  s.act (fun b => b.firmwareReady)

/-- HANDOVER_LATE (R43): No ready report within 10 s of HANDOVER raises HANDOVER_LATE on PCIe and on the service port. -/
def execHandoverLate (s : State) : Host.Outcome State Fault Refusal :=
  s.act (fun b => b.handoverLate)

/-- HANDOVER_CORE_RESET (R470): After the grace period, or at once on a watchdog expiry, the sorus cores reset and READY
clears. -/
def execHandoverCoreReset (s : State) : Host.Outcome State Fault Refusal :=
  s.act (fun b => b.handoverReset)

/-- WATCHDOG_EXPIRY (R446): The firmware fails to kick within WDT_MS, and the device enters HANDOVER with LAST_CAUSE 0x07.
-/
def execWatchdogExpiry (s : State) : Host.Outcome State Fault Refusal :=
  s.act (fun b => b.watchdogExpiry)

/-- KICK (R446): A write of FWM.WDT.KICK restarts the watchdog period. -/
def execKick (w : RegWrite) (s : State) : Host.Outcome State Fault Refusal :=
  s.act (fun b => b.regWrite w.src FWM.WDT (fldPut FWM.WDT_KICK w.value 1))

end Sys2Proof.Machine
end

