-- ==== Sys2Proof/Machine/CmdParse.lean ====
section
/-! DEFINITION. The meanings of the commands of one family. Ranges, staging shares and payload patterns (R93, R110, R116, R117). -/

namespace Sys2Proof.Machine

/-- RANGE_COMMIT (R110): PRS.RANGE_CTL.COMMIT requests the copy of the range shadow at the next tick. -/
def execRangeCommit (w : RegWrite) (s : State) : Host.Outcome State Fault Refusal :=
  s.act (fun b => b.regWrite w.src PRS.RANGE_CTL (fldPut PRS.RANGE_CTL_COMMIT w.value 1))

/-- RANGE_COMMIT_APPLY (R110): At the tick boundary, the range shadow is copied into RANGE_ACTIVE. -/
def execRangeCommitApply (s : State) : Host.Outcome State Fault Refusal :=
  s.act (fun b => b.rangeApply)

/-- STAGE_WRITE (R93): A write of PRS.STAGE sets SHARE and MTU, or it is refused when the slice's shares would exceed 384
units. -/
def execStageWrite (w : RegWrite) (p : Fin 256) (s : State) : Host.Outcome State Fault Refusal :=
  s.act (fun b => b.regWrite w.src (PRS.STAGE p.val) w.value)

/-- PAY_COMMIT (R116): PAY.CTL.COMMIT requests the pattern-set check and exchange at the next tick. -/
def execPayCommit (w : RegWrite) (s : State) : Host.Outcome State Fault Refusal :=
  s.act (fun b => b.regWrite w.src PAY.CTL (fldPut PAY.CTL_COMMIT w.value 1))

/-- PAY_COMMIT_APPLY (R116): At the tick boundary, the shadow pattern set is checked and exchanged, or COMMIT_FAIL sets.
-/
def execPayCommitApply (s : State) : Host.Outcome State Fault Refusal :=
  s.act (fun b => b.payApply)

/-- COPY (R117): PAY.PAT_CMD.COPY copies the active pattern set into the shadow. -/
def execCopy (w : RegWrite) (s : State) : Host.Outcome State Fault Refusal :=
  s.act (fun b => b.regWrite w.src PAY.PAT_CMD (fldPut PAY.PAT_CMD_COPY w.value 1))

/-- PAT_READ (R117): PAY.PAT_CMD.READ loads a shadow pattern into PAT_W0–PAT_W8. -/
def execPatRead (w : RegWrite) (s : State) : Host.Outcome State Fault Refusal :=
  s.act (fun b => b.regWrite w.src PAY.PAT_CMD (fldPut PAY.PAT_CMD_READ w.value 1))

/-- PAT_WRITE (R117): PAY.PAT_CMD.WRITE stores PAT_W0–PAT_W8 as a shadow pattern. -/
def execPatWrite (w : RegWrite) (s : State) : Host.Outcome State Fault Refusal :=
  s.act (fun b => b.regWrite w.src PAY.PAT_CMD (fldPut PAY.PAT_CMD_WRITE w.value 1))

end Sys2Proof.Machine
end

