-- ==== Sys2Proof/Machine/CmdPower.lean ====
section
/-! DEFINITION. The meanings of the commands of one family. Power groups, slice drains, temperature and clocks (R475 to R492, R502). -/

namespace Sys2Proof.Machine

/-- LTR_WRITE (R478): A write of PWR.LTRg takes effect in the next island clock, waking the group if its state now exceeds
the tolerance. -/
def execLtrWrite (w : RegWrite) (g : Fin 46) (s : State) : Host.Outcome State Fault Refusal :=
  s.act (fun b => b.regWrite w.src (PWR.LTR g.val) w.value)

/-- POWER_STATE_ENTRY (R478): A group whose conditions held for the hold-off enters the deepest allowed state, or
retention is refused. -/
def execPowerStateEntry (g : Fin 46) (ready : Fin 5) (s : State) : Host.Outcome State Fault Refusal :=
  s.act (fun b => b.powerEntry g.val ready.val)

/-- DEMAND (R479): A change that breaks a group's conditions starts its exit from a state below P0. -/
def execDemand (g : Fin 46) (s : State) : Host.Outcome State Fault Refusal :=
  s.act (fun b => b.demand g.val)

/-- WAKE_COMPLETE (R479): Within its exit latency, the group returns to P0 and does the demanded work. -/
def execWakeComplete (g : Fin 46) (s : State) : Host.Outcome State Fault Refusal :=
  s.act (fun b => b.wakeComplete g.val)

/-- SLICE_DRAIN (R488): Writing 1 to PWR.SLICE_DRAIN bit k stops the slice's ports at packet boundaries and sets DRAINING.
-/
def execSliceDrain (w : RegWrite) (k : Fin 8) (s : State) : Host.Outcome State Fault Refusal :=
  s.act (fun b => b.regWrite w.src PWR.SLICE_DRAIN (fldPut ⟨k.val, 1⟩ w.value 1))

/-- SLICE_DRAIN_EXPIRY (R488): 10 ms into a drain, still-queued packets are discarded, the ports are held down, and
DRAINED sets. -/
def execSliceDrainExpiry (k : Fin 8) (s : State) : Host.Outcome State Fault Refusal :=
  s.act (fun b => b.sliceExpiry k.val)

/-- SLICE_RELEASE (R488): Writing 0 to the bit releases or abandons the slice drain at the next tick boundary. -/
def execSliceRelease (w : RegWrite) (k : Fin 8) (s : State) : Host.Outcome State Fault Refusal :=
  s.act (fun b => b.regWrite w.src PWR.SLICE_DRAIN (fldPut ⟨k.val, 1⟩ w.value 0))

/-- SLICE_RELEASE_APPLY (R488): At the tick boundary, the ports are released and DRAINING and DRAINED clear. -/
def execSliceReleaseApply (s : State) : Host.Outcome State Fault Refusal :=
  s.act (fun b => b.sliceRelease)

/-- SENSOR_SAMPLE (R487): Every 125 µs the junction sensors are sampled and the thermal limits are raised or cleared.
DEDUCED, unsafe: log entry 174. -/
def execSensorSample (temps : Vector (BitVec 16) 25) (s : State) : Host.Outcome State Fault Refusal :=
  s.act (fun b => b.sensorSample (temps.toList.map (fun x => x.toInt)))

/-- PEAK_CLR (R486): THM.STS.PEAK_CLR resets the peak temperature record. -/
def execPeakClr (w : RegWrite) (s : State) : Host.Outcome State Fault Refusal :=
  s.act (fun b => b.regWrite w.src THM.STS (fldPut THM.STS_PEAK_CLR w.value 1))

/-- REFCLK_LOSS (R502): A reference clock stops or leaves tolerance, with the effect that depends on which reference it
is. -/
def execRefclkLoss (c : RefClk) (s : State) : Host.Outcome State Fault Refusal :=
  s.act (fun b => b.refclkLoss c)

/-- FORWARDED_CLOCK_LOCK_LOSS (R29): A bridge wire group's forwarded clock loses lock, which fires the drift event and may
switch the bridge to half width. -/
def execForwardedClockLockLoss (g : Fin 32) (s : State) : Host.Outcome State Fault Refusal :=
  s.act (fun b => b.clockLockLoss g.val)

/-- CASCADE_LANE_STATE_CHANGE (R383): A cascade lane of SDS20 trains and gains codeword lock, or loses lock, changing
whether its cascade link can be UP. -/
def execCascadeLaneStateChange (j : Fin 4) (lanes : BitVec 2) (s : State) : Host.Outcome State Fault Refusal :=
  s.act (fun b => b.cscLanes j.val lanes.toNat)

/-- CASCADE_LINK_HELLO_LOSS (R383): No cascade HELLO arrives on a link for 1 ms, so the link is no longer UP and SEEN,
SPLIT and the link event change. -/
def execCascadeLinkHelloLoss (j : Fin 4) (s : State) : Host.Outcome State Fault Refusal :=
  s.act (fun b => b.cscHelloLoss j.val)

/-- SERVICE_PORT_LINK_CHANGE (R459): The service port's 1000BASE-X or SGMII link comes up or goes down, changing
SVC.STS.LINK_UP and raising its interrupt. -/
def execServicePortLinkChange (up : Bool) (s : State) : Host.Outcome State Fault Refusal :=
  s.act (fun b => b.svcLink up)

/-- SLEW_END (R370): A slew in progress completes its |s| × 10,000 ns spread, and TMB.STS.SLEWING clears. -/
def execSlewEnd (s : State) : Host.Outcome State Fault Refusal :=
  s.act (fun b => b.slewEnd)

/-- SETTINGS_SAVE (R463): A confirmed firmware image writes its settings to the inactive copy and then a boot record that
switches SETTINGS_ACTIVE. -/
def execSettingsSave (records : List Byte) (s : State) : Host.Outcome State Fault Refusal :=
  s.act (fun b => b.settingsSave records)

end Sys2Proof.Machine
end

