-- ==== Sys2Proof/Machine/CmdQueues.lean ====
section
/-! DEFINITION. The meanings of the commands of one family. Queue storage (R176 to R215). -/

namespace Sys2Proof.Machine

/-- CELL_ARRIVAL (R183): A cell from a producer stream arrives; an SOP cell runs the admission tests, and each cell
consumes a reserved cell. -/
def execCellArrival (stream : Fin 16416) (seen : Seen) (s : State) : Host.Outcome State Fault Refusal :=
  s.act (fun b => b.cellArrival stream.val seen.norm)

/-- SPILL_WRITE (R189): When its conditions hold, the oldest 8 tail cells are written to a peat block and the queue
becomes SPILLING. -/
def execSpillWrite (q : BitVec 20) (seens : List Seen) (s : State) : Host.Outcome State Fault Refusal :=
  s.act (fun b => b.spillWrite q.toNat (seens.map Seen.norm))

/-- SPILL_WRITE_COMPLETE (R189): A block write completes and its sward cells are freed, or relinked onto the head if the
block was already requested. -/
def execSpillWriteComplete (q : BitVec 20) (s : State) : Host.Outcome State Fault Refusal :=
  s.act (fun b => b.spillComplete q.toNat)

/-- PREFETCH_REQUEST (R190): A SPILLING queue's head at or below PREFETCH_MARK requests the oldest middle block. -/
def execPrefetchRequest (q : BitVec 20) (s : State) : Host.Outcome State Fault Refusal :=
  s.act (fun b => b.prefetch q.toNat)

/-- PREFETCH_READ_COMPLETE (R190): A block read returns from DDR5, its rinds are verified, and its cells are appended to
the head. -/
def execPrefetchReadComplete (q : BitVec 20) (seens : List Seen) (s : State) : Host.Outcome State Fault Refusal :=
  s.act (fun b => b.readComplete q.toNat (seens.map Seen.norm))

/-- PROF_READ (R215): QMG.PROF_CMD.READ loads a queue record, profile or queue state into PROF_W0–W7. -/
def execProfRead (w : RegWrite) (s : State) : Host.Outcome State Fault Refusal :=
  s.act (fun b => b.regWrite w.src QMG.PROF_CMD (fldPut QMG.PROF_CMD_READ w.value 1))

/-- PROF_WRITE (R215): QMG.PROF_CMD.WRITE checks and writes a record, or fails with FAIL_WORD. -/
def execProfWrite (w : RegWrite) (s : State) : Host.Outcome State Fault Refusal :=
  s.act (fun b => b.regWrite w.src QMG.PROF_CMD (fldPut QMG.PROF_CMD_WRITE w.value 1))

/-- CLEAR_WM (R204): QMG.PROF_CMD.CLEAR_WM clears CROSSED and re-arms both notices. -/
def execClearWm (w : RegWrite) (s : State) : Host.Outcome State Fault Refusal :=
  s.act (fun b => b.regWrite w.src QMG.PROF_CMD (fldPut QMG.PROF_CMD_CLEAR_WM w.value 1))

/-- CLEAR_WRAP (R215): QMG.PROF_CMD.CLEAR_WRAP clears a queue's drop-count WRAP bit. -/
def execClearWrap (w : RegWrite) (s : State) : Host.Outcome State Fault Refusal :=
  s.act (fun b => b.regWrite w.src QMG.PROF_CMD (fldPut QMG.PROF_CMD_CLEAR_WRAP w.value 1))

/-- QSPLIT_WRITE (R177): A write of VOQ_COUNT takes effect only in QUIESCENT with every queue empty; otherwise it is
refused. -/
def execQsplitWrite (w : RegWrite) (s : State) : Host.Outcome State Fault Refusal :=
  s.act (fun b => b.regWrite w.src QMG.QSPLIT w.value)

/-- POOL_LIMIT_WRITE (R186): A pool limit write is refused if the limits would total more than 638,976 cells. -/
def execPoolLimitWrite (w : RegWrite) (p : Fin 8) (s : State) : Host.Outcome State Fault Refusal :=
  s.act (fun b => b.regWrite w.src (poolLimitAddr p.val) w.value)

/-- RAND_SEED_WRITE (R202): A write of QMG.RAND_SEED reloads the drop generator; a write of 0 is refused. -/
def execRandSeedWrite (w : RegWrite) (s : State) : Host.Outcome State Fault Refusal :=
  s.act (fun b => b.regWrite w.src QMG.RAND_SEED w.value)

end Sys2Proof.Machine
end

