-- ==== Sys2Proof/Machine/CmdSched.lean ====
section
/-! DEFINITION. The meanings of the commands of one family. The scheduler, port egress FIFOs, shapers and grants (R205 to R243). -/

namespace Sys2Proof.Machine

/-- SCHEDULER_DECISION (R222): A decision engine picks an eligible L5 node by calendar and descends by phase, PRIO and DRR
to a queue that sends one packet. -/
def execSchedulerDecision (engine : Fin 16) (pick : Nat) (seens : List Seen) (s : State) : Host.Outcome State Fault
    Refusal :=
  s.act (fun b => b.decision engine.val pick (seens.map Seen.norm))

/-- EGF_FIRST_WORD (R209): A packet's first word is written into the port egress FIFO, and unneeded credits are returned.
-/
def execEgfFirstWord (p : Fin 256) (s : State) : Host.Outcome State Fault Refusal :=
  s.act (fun b => b.egfFirstWord p.val)

/-- EGF_TRANSMIT_START (R211): The oldest packet starts transmission when complete in STORE mode, or at CT_WORDS in CUT
mode. -/
def execEgfTransmitStart (p : Fin 256) (s : State) : Host.Outcome State Fault Refusal :=
  s.act (fun b => b.egfStart p.val)

/-- EGF_WORD_TRANSMIT (R322): A word leaves the FIFO for the MAC, feeding the FCS and the EGRESS_FIFO rind check. -/
def execEgfWordTransmit (p : Fin 256) (flips : List (Nat × Byte)) (s : State) : Host.Outcome State Fault Refusal :=
  s.act (fun b => b.egfWord p.val (flipsNorm 32 flips))

/-- WORD_CREDIT_RETURN (R209): Returned word credits reach the TD within 16 ns, and may release a held choice. -/
def execWordCreditReturn (p : Fin 256) (s : State) : Host.Outcome State Fault Refusal :=
  s.act (fun b => b.creditReturn p.val)

/-- EGF_SHARE_APPLY (R208): A new SHARE takes effect when the port's FIFO is empty with no credit outstanding, and the TD
credit count is reset. -/
def execEgfShareApply (p : Fin 256) (s : State) : Host.Outcome State Fault Refusal :=
  s.act (fun b => b.shareApply p.val)

/-- SHP_CTL_COMMIT (R230): SCH.SHP_CTL.COMMIT requests the shaper profile exchange at the next tick. -/
def execShpCtlCommit (w : RegWrite) (s : State) : Host.Outcome State Fault Refusal :=
  s.act (fun b => b.regWrite w.src SCH.SHP_CTL (fldPut SCH.SHP_CTL_COMMIT w.value 1))

/-- PROFILE_EXCHANGE (R230): At the tick boundary, the active and shadow shaper sets exchange, and buckets are updated and
cut to BURST. -/
def execProfileExchange (s : State) : Host.Outcome State Fault Refusal :=
  s.act (fun b => b.exchangeAtTick)

/-- SHAPER_COMMIT (R230): A SHAPER_COMMIT anchor entry exchanges the shaper profile sets. -/
def execShaperCommit (s : State) : Host.Outcome State Fault Refusal :=
  s.act (fun b => b.shaperAnchorDue)

/-- SCH_READ (R243): SCH.CMD.READ loads a record or node state into W0–W3. -/
def execSchRead (w : RegWrite) (s : State) : Host.Outcome State Fault Refusal :=
  s.act (fun b => b.regWrite w.src SCH.CMD (fldPut SCH.CMD_READ w.value 1))

/-- SCH_WRITE (R243): SCH.CMD.WRITE checks and writes a node, profile, VOQ or grant record. -/
def execSchWrite (w : RegWrite) (s : State) : Host.Outcome State Fault Refusal :=
  s.act (fun b => b.regWrite w.src SCH.CMD (fldPut SCH.CMD_WRITE w.value 1))

/-- SCH_COPY (R230): SCH.CMD.COPY copies the active profile set into the shadow. -/
def execSchCopy (w : RegWrite) (s : State) : Host.Outcome State Fault Refusal :=
  s.act (fun b => b.regWrite w.src SCH.CMD (fldPut SCH.CMD_COPY w.value 1))

/-- SCH_CAL_COMMIT (R232): SCH.CAL_CTLk.COMMIT requests the departure calendar for the next wrap. -/
def execSchCalCommit (w : RegWrite) (k : Fin 8) (s : State) : Host.Outcome State Fault Refusal :=
  s.act (fun b => b.regWrite w.src (SCH.CAL_CTL k.val) (fldPut SCH.CAL_CTL_COMMIT w.value 1))

/-- SCH_CAL_CHECK (R232): At the wrap, the slice's departure calendar is checked and becomes active, or COMMIT_FAIL sets.
-/
def execSchCalCheck (k : Fin 8) (s : State) : Host.Outcome State Fault Refusal :=
  s.act (fun b => b.schCalCheck k.val)

/-- REQUEST_REFRESH (R238): A VOQ not in OFF resends its request message every REFRESH_TICKS ticks. -/
def execRequestRefresh (q : BitVec 20) (s : State) : Host.Outcome State Fault Refusal :=
  s.act (fun b => b.requestRefresh q.toNat)

/-- BALANCE_AGE (R237): A VOQ empty for BALANCE_AGE ticks has its positive balance set to 0. -/
def execBalanceAge (q : BitVec 20) (s : State) : Host.Outcome State Fault Refusal :=
  s.act (fun b => b.balanceAge q.toNat)

/-- CONTEXT_EXPIRY (R239): A request context silent for 3 × REFRESH_TICKS ticks is freed and counted. -/
def execContextExpiry (src : BitVec 11) (voq : BitVec 20) (s : State) : Host.Outcome State Fault Refusal :=
  s.act (fun b => b.contextExpiry src.toNat voq.toNat)

/-- GRANT_ISSUE (R240): A running grant generator issues one grant to a context of its port. -/
def execGrantIssue (p : Fin 256) (s : State) : Host.Outcome State Fault Refusal :=
  s.act (fun b => b.grantIssue p.val)

end Sys2Proof.Machine
end

