-- ==== Sys2Proof/Machine/CmdTables.lean ====
section
/-! DEFINITION. The meanings of the commands of one family. Tables, learning, aging and the shadow walk (R118 to R148). -/

namespace Sys2Proof.Machine

/-- PART_COMMIT (R120): LKP.PART_CTL.COMMIT checks a new partition map and starts zeroing the units that change class, or
sets COMMIT_FAIL. -/
def execPartCommit (w : RegWrite) (s : State) : Host.Outcome State Fault Refusal :=
  s.act (fun b => b.regWrite w.src LKP.PART_CTL (fldPut LKP.PART_CTL_COMMIT w.value 1))

/-- PART_COMMIT_APPLY (R120): At the tick after the zeroing ends, the new partition map takes effect. -/
def execPartCommitApply (s : State) : Host.Outcome State Fault Refusal :=
  s.act (fun b => b.partApply)

/-- TABLE_OP (R135): A TABLE_OP descriptor's records are executed in order, and DONE, FIRST_FAIL and FAIL_INDEX are
written back.
DEDUCED, unsafe: log entry 160. -/
def execTableOp (s : State) : Host.Outcome State Fault Refusal :=
  s.act (fun b => b.tableOpDesc)

/-- NOP (R136): The table operation NOP does nothing and returns OK. -/
def execNop (w : RegWrite) (s : State) : Host.Outcome State Fault Refusal :=
  s.act (fun b => b.regWrite w.src LKP.OP_CTL (fldPut LKP.OP_CTL_GO (fldPut LKP.OP_CTL_OP w.value 0) 1))

/-- EM_INSERT (R131): Adds an exact-match key in every copy, moving residents if needed, or returns EXISTS or NO_ROOM. -/
def execEmInsert (w : RegWrite) (s : State) : Host.Outcome State Fault Refusal :=
  s.act (fun b => b.regWrite w.src LKP.OP_CTL (fldPut LKP.OP_CTL_GO (fldPut LKP.OP_CTL_OP w.value 1) 1))

/-- EM_UPDATE (R132): Rewrites the DATA and STATIC of a present key. -/
def execEmUpdate (w : RegWrite) (s : State) : Host.Outcome State Fault Refusal :=
  s.act (fun b => b.regWrite w.src LKP.OP_CTL (fldPut LKP.OP_CTL_GO (fldPut LKP.OP_CTL_OP w.value 2) 1))

/-- EM_DELETE (R132): Zeroes the key's slot in every copy. -/
def execEmDelete (w : RegWrite) (s : State) : Host.Outcome State Fault Refusal :=
  s.act (fun b => b.regWrite w.src LKP.OP_CTL (fldPut LKP.OP_CTL_GO (fldPut LKP.OP_CTL_OP w.value 3) 1))

/-- EM_READ (R136): Returns a key's DATA and STATIC. -/
def execEmRead (w : RegWrite) (s : State) : Host.Outcome State Fault Refusal :=
  s.act (fun b => b.regWrite w.src LKP.OP_CTL (fldPut LKP.OP_CTL_GO (fldPut LKP.OP_CTL_OP w.value 4) 1))

/-- EM_MOVE_ZERO (R132): The old slot of a moved entry is zeroed at the next M slot of its bank. -/
def execEmMoveZero (s : State) : Host.Outcome State Fault Refusal :=
  s.act (fun b => b.emMoveZero)

/-- ROUTE_ADD (R127): Adds or replaces a route by building new nodes and committing a pointer, or refuses with DEPTH,
LIMIT, NO_RESULT or NO_ROOM. -/
def execRouteAdd (w : RegWrite) (s : State) : Host.Outcome State Fault Refusal :=
  s.act (fun b => b.regWrite w.src LKP.OP_CTL (fldPut LKP.OP_CTL_GO (fldPut LKP.OP_CTL_OP w.value 5) 1))

/-- ROUTE_DELETE (R132): Removes a route and rewrites the trie canonically. -/
def execRouteDelete (w : RegWrite) (s : State) : Host.Outcome State Fault Refusal :=
  s.act (fun b => b.regWrite w.src LKP.OP_CTL (fldPut LKP.OP_CTL_GO (fldPut LKP.OP_CTL_OP w.value 6) 1))

/-- ROUTE_READ (R136): Returns the result of exactly the given prefix. -/
def execRouteRead (w : RegWrite) (s : State) : Host.Outcome State Fault Refusal :=
  s.act (fun b => b.regWrite w.src LKP.OP_CTL (fldPut LKP.OP_CTL_GO (fldPut LKP.OP_CTL_OP w.value 7) 1))

/-- DIRECT_WRITE (R136): Writes word INDEX of a DIRECT table in every copy. -/
def execDirectWrite (w : RegWrite) (s : State) : Host.Outcome State Fault Refusal :=
  s.act (fun b => b.regWrite w.src LKP.OP_CTL (fldPut LKP.OP_CTL_GO (fldPut LKP.OP_CTL_OP w.value 8) 1))

/-- DIRECT_READ (R136): Reads word INDEX of copy 0. -/
def execDirectRead (w : RegWrite) (s : State) : Host.Outcome State Fault Refusal :=
  s.act (fun b => b.regWrite w.src LKP.OP_CTL (fldPut LKP.OP_CTL_GO (fldPut LKP.OP_CTL_OP w.value 9) 1))

/-- TABLE_CLEAR (R136): Removes every entry or route of a table, static ones included. -/
def execTableClear (w : RegWrite) (s : State) : Host.Outcome State Fault Refusal :=
  s.act (fun b => b.regWrite w.src LKP.OP_CTL (fldPut LKP.OP_CTL_GO (fldPut LKP.OP_CTL_OP w.value 10) 1))

/-- TABLE_STATS (R136): Returns entry counts, capacity and the words used per level. -/
def execTableStats (w : RegWrite) (s : State) : Host.Outcome State Fault Refusal :=
  s.act (fun b => b.regWrite w.src LKP.OP_CTL (fldPut LKP.OP_CTL_GO (fldPut LKP.OP_CTL_OP w.value 11) 1))

/-- FREED_WORDS_RETURN (R132): Replaced LPM words return to the free pool after two tick boundaries. -/
def execFreedWordsReturn (s : State) : Host.Outcome State Fault Refusal :=
  s.act (fun b => b.freedReturn)

/-- LEARN_APPLY (R138): The learning engine takes a request from its FIFO, acts by table MODE, and sends a notice. -/
def execLearnApply (s : State) : Host.Outcome State Fault Refusal :=
  s.act (fun b => b.learnApply)

/-- AGING_PASS (R142): At a tick that is a multiple of AGE_TICKS, the sweeper ORs the hit bits, clearing them or
scheduling removal. -/
def execAgingPass (n : Fin 8) (s : State) : Host.Outcome State Fault Refusal :=
  s.act (fun b => b.agingPass n.val)

/-- AGING_REMOVAL (R143): The table engine removes an unhit entry from every copy and sends AGED, or it abandons the
removal if a hit wins. -/
def execAgingRemoval (hit : Bool) (s : State) : Host.Outcome State Fault Refusal :=
  s.act (fun b => b.agingRemoval hit)

/-- SHADOW_WALK (R145): The walker digests each enabled block and compares it with PRIOR or EXPECTED, or defers it. -/
def execShadowWalk (first second third fourth : WalkAt) (upsets : Upsets) (s : State) : Host.Outcome State Fault Refusal :=
  s.act (fun b => b.shadowWalk (walkFalls [first, second, third, fourth]) (upsetsNorm upsets))

/-- SHADOW_REREAD (R146): A failing block is read again within 1 ms, and on a second failure it is recorded, reported and
optionally repaired. -/
def execShadowReread (upsets : Upsets) (s : State) : Host.Outcome State Fault Refusal :=
  s.act (fun b => b.shadowReread (upsetsNorm upsets))

/-- REBASE (R144): A write of SHD.REBASE_END takes the present words of a block range as EXPECTED. -/
def execRebase (w : RegWrite) (s : State) : Host.Outcome State Fault Refusal :=
  s.act (fun b => b.regWrite w.src SHD.REBASE_END w.value)

/-- MISMATCH_VALID_CLEAR (R146): Clearing SHD.MISMATCH_VALID re-arms the mismatch capture. -/
def execMismatchValidClear (w : RegWrite) (s : State) : Host.Outcome State Fault Refusal :=
  s.act (fun b => b.regWrite w.src SHD.MISMATCH_VALID (fldPut SHD.MISMATCH_VALID_VALID w.value 1))

/-- TBL_LIMIT_WRITE (R148): A write of LRN.TBLn_LIMIT is checked against the 2,097,152 total for tables in HW mode. -/
def execTblLimitWrite (w : RegWrite) (n : Fin 8) (s : State) : Host.Outcome State Fault Refusal :=
  s.act (fun b => b.regWrite w.src (LRN.TBL_LIMIT n.val) w.value)

/-- TBL_MODE_WRITE (R148): A write of LRN.TBLn_CFG that sets MODE to HW is checked against the LIMIT total. -/
def execTblModeWrite (w : RegWrite) (n : Fin 8) (s : State) : Host.Outcome State Fault Refusal :=
  s.act (fun b => b.regWrite w.src (LRN.TBL_CFG n.val) (fldPut LRN.TBL_CFG_MODE w.value 2))

end Sys2Proof.Machine
end

