-- ==== Sys2Proof/Machine/CmdTcam.lean ====
section
/-! DEFINITION. The meanings of the commands of one family. The TCAM (R149 to R175). -/

namespace Sys2Proof.Machine

/-- TCAM_OP (R175): A TCAM_OP descriptor's 256-byte records are executed in order by the TCAM engine. -/
def execTcamOp (s : State) : Host.Outcome State Fault Refusal :=
  s.act (fun b => b.tcamOpDesc)

/-- TCAM_NOP (R175): The TCAM operation NOP does nothing and returns OK. -/
def execTcamNop (w : RegWrite) (s : State) : Host.Outcome State Fault Refusal :=
  s.act (fun b => b.regWrite w.src TCM.OP_CTL (fldPut TCM.OP_CTL_GO (fldPut TCM.OP_CTL_OP w.value 0) 1))

/-- INSERT (R162): Places a TCAM entry by priority, block-moving rows toward a free row, or returns NO_ROOM. -/
def execInsert (w : RegWrite) (s : State) : Host.Outcome State Fault Refusal :=
  s.act (fun b => b.regWrite w.src TCM.OP_CTL (fldPut TCM.OP_CTL_GO (fldPut TCM.OP_CTL_OP w.value 1) 1))

/-- UPDATE (R165): Replaces a TCAM entry's ACTION in place, or writes the new row before freeing the old one. -/
def execUpdate (w : RegWrite) (s : State) : Host.Outcome State Fault Refusal :=
  s.act (fun b => b.regWrite w.src TCM.OP_CTL (fldPut TCM.OP_CTL_GO (fldPut TCM.OP_CTL_OP w.value 2) 1))

/-- DELETE (R175): Removes the TCAM entry of HANDLE, at once or deferred as PENDING_DEL. -/
def execDelete (w : RegWrite) (s : State) : Host.Outcome State Fault Refusal :=
  s.act (fun b => b.regWrite w.src TCM.OP_CTL (fldPut TCM.OP_CTL_GO (fldPut TCM.OP_CTL_OP w.value 3) 1))

/-- READ (R175): Returns a TCAM entry's PRIORITY, ACTION, KEY, MASK and LOCATION. -/
def execRead (w : RegWrite) (s : State) : Host.Outcome State Fault Refusal :=
  s.act (fun b => b.regWrite w.src TCM.OP_CTL (fldPut TCM.OP_CTL_GO (fldPut TCM.OP_CTL_OP w.value 4) 1))

/-- TCAM_TABLE_CLEAR (R175): Frees every row of a TCAM table, pending rows included. -/
def execTcamTableClear (w : RegWrite) (s : State) : Host.Outcome State Fault Refusal :=
  s.act (fun b => b.regWrite w.src TCM.OP_CTL (fldPut TCM.OP_CTL_GO (fldPut TCM.OP_CTL_OP w.value 5) 1))

/-- TCAM_TABLE_STATS (R175): Returns the live, pending, free, spare and retired row counts of a TCAM table. -/
def execTcamTableStats (w : RegWrite) (s : State) : Host.Outcome State Fault Refusal :=
  s.act (fun b => b.regWrite w.src TCM.OP_CTL (fldPut TCM.OP_CTL_GO (fldPut TCM.OP_CTL_OP w.value 6) 1))

/-- GROUP_ABANDON (R169): Discards an uncommitted commit group, freeing its PENDING_ADD rows and restoring its PENDING_DEL
rows. -/
def execGroupAbandon (w : RegWrite) (s : State) : Host.Outcome State Fault Refusal :=
  s.act (fun b => b.regWrite w.src TCM.OP_CTL (fldPut TCM.OP_CTL_GO (fldPut TCM.OP_CTL_OP w.value 7) 1))

/-- TCAM_COMMIT (R168): A TCAM_COMMIT anchor entry sets the commit flags of its groups in all banks on one cycle, and
cleanup starts. -/
def execTcamCommit (s : State) : Host.Outcome State Fault Refusal :=
  s.act (fun b => b.tcamAnchorDue)

/-- COMMIT_CLEANUP_END (R168): Cleanup rewrites the group's pending rows, clears the flag and ends within 2 ms. -/
def execCommitCleanupEnd (mask : BitVec 16) (s : State) : Host.Outcome State Fault Refusal :=
  s.act (fun b => b.cleanupEnd mask.toNat)

/-- START (R170): TCM.STEP_CTL.START begins a step-through at the first matching entry. -/
def execStart (w : RegWrite) (s : State) : Host.Outcome State Fault Refusal :=
  s.act (fun b => b.regWrite w.src TCM.STEP_CTL (fldPut TCM.STEP_CTL_START w.value 1))

/-- NEXT (R170): TCM.STEP_CTL.NEXT returns the next visible matching entry, or sets DONE. -/
def execNext (w : RegWrite) (seen : TcSeen) (s : State) : Host.Outcome State Fault Refusal :=
  s.act (fun b => b.regWriteMeets { seen := seen.norm } w.src TCM.STEP_CTL (fldPut TCM.STEP_CTL_NEXT w.value 1))

/-- STOP (R170): TCM.STEP_CTL.STOP ends the step-through. -/
def execStop (w : RegWrite) (s : State) : Host.Outcome State Fault Refusal :=
  s.act (fun b => b.regWrite w.src TCM.STEP_CTL (fldPut TCM.STEP_CTL_STOP w.value 1))

/-- TCAM_SCRUB_PASS (R172): The scrubber compares each row with its stored copy every TICKS ticks and rewrites any row
that differs. -/
def execTcamScrubPass (found : List (Nat × Nat × ScrubSeen)) (s : State) : Host.Outcome State Fault Refusal :=
  s.act (fun b => b.scrubPass (foundNorm found))

/-- TCAM_ROW_SCRUB (R159): A row queued by a false hit is scrubbed at once from its stored copy. -/
def execTcamRowScrub (seen : ScrubSeen) (s : State) : Host.Outcome State Fault Refusal :=
  s.act (fun b => b.queuedScrub seen)

end Sys2Proof.Machine
end

