-- ==== Sys2Proof/Machine/CmdTime.lean ====
section
/-! DEFINITION. The meanings of the commands of one family. Time, the servo and anchors (R368 to R381, R432). -/

namespace Sys2Proof.Machine

/-- PPS_EDGE (R371): A rising PPS_IN edge is captured and rejected, applied by the servo, or used to load an armed time of
day. -/
def execPpsEdge (s : State) : Host.Outcome State Fault Refusal :=
  s.act (fun b => b.withTick Block.ppsEdge)

/-- TOD_ARM (R372): TMB.CTL.TOD_ARM arms the second held in TOD_SEC. -/
def execTodArm (w : RegWrite) (s : State) : Host.Outcome State Fault Refusal :=
  s.act (fun b => b.regWrite w.src TMB.CTL (fldPut TMB.CTL_TOD_ARM w.value 1))

/-- TOD_TIMEOUT (R372): No edge is accepted within 2 s of arming, so TOD_ARMED clears and TOD_TIMEOUT sets. -/
def execTodTimeout (s : State) : Host.Outcome State Fault Refusal :=
  s.act (fun b => b.withTick Block.todTimeout)

/-- HOLDOVER_ENTRY (R373): No edge is accepted for 2.5 s, and the servo enters HOLDOVER with FREQ_ADJ frozen. -/
def execHoldoverEntry (s : State) : Host.Outcome State Fault Refusal :=
  s.act (fun b => b.withTick Block.holdoverEntry)

/-- SLEW (R370): A write of TMB.SLEW_NS spreads an adjustment at 100 ppm, replacing any slew in progress. -/
def execSlew (w : RegWrite) (s : State) : Host.Outcome State Fault Refusal :=
  s.act (fun b => b.regWrite w.src TMB.SLEW_NS w.value)

/-- STEP (R370): TMB.CTL.STEP sets network time absolutely or relatively, firing at most one tick and releasing passed
anchor entries, or it is refused. -/
def execStep (w : RegWrite) (s : State) : Host.Outcome State Fault Refusal :=
  s.act (fun b => b.regWrite w.src TMB.CTL (fldPut TMB.CTL_STEP w.value 1))

/-- FREQ_ADJ_WRITE (R373): A write of FREQ_ADJ takes effect in HOST state and is refused in every other state. -/
def execFreqAdjWrite (w : RegWrite) (s : State) : Host.Outcome State Fault Refusal :=
  s.act (fun b => b.regWrite w.src TMB.FREQ_ADJ w.value)

/-- SERVO_EN_WRITE (R373): A write of SERVO_EN moves the servo between HOST and FREERUN. -/
def execServoEnWrite (w : RegWrite) (s : State) : Host.Outcome State Fault Refusal :=
  s.act (fun b => b.regWrite w.src TMB.CTL w.value)

/-- SQUELCH_LIFT (R376): A SyncE output is unsquelched 10 ms after its last cause clears. -/
def execSquelchLift (k : Fin 2) (s : State) : Host.Outcome State Fault Refusal :=
  s.act (fun b => b.squelchLift k.val)

/-- POST (R378): ANC.CMD.POST checks an entry and queues it, or records the failing result. -/
def execPost (w : RegWrite) (s : State) : Host.Outcome State Fault Refusal :=
  s.act (fun b => b.regWrite w.src ANC.CMD (fldPut ANC.CMD_POST w.value 1))

/-- CANCEL (R381): ANC.CMD.CANCEL ends a waiting entry by TAG, or reports NOT_FOUND or CONFIRMED. -/
def execCancel (w : RegWrite) (s : State) : Host.Outcome State Fault Refusal :=
  s.act (fun b => b.regWrite w.src ANC.CMD (fldPut ANC.CMD_CANCEL w.value 1))

/-- COUNTER_SNAPSHOT (R432): A COUNTER_SNAPSHOT anchor entry opens a new counter window at its instant and copies the
performance counters. -/
def execCounterSnapshot (s : State) : Host.Outcome State Fault Refusal :=
  s.act (fun b => b.counterSnapshot)

/-- MARKER (R377): A MARKER anchor entry sends an ANCHOR event and does nothing else. -/
def execMarker (s : State) : Host.Outcome State Fault Refusal :=
  s.act (fun b => b.marker)

end Sys2Proof.Machine
end

