-- ==== Sys2Proof/Machine/CmdTrasum.lean ====
section
/-! DEFINITION. The meanings of the commands of one family. The service port and the mailbox (R459 to R461, R472). -/

namespace Sys2Proof.Machine

/-- DISCOVER (R460): A Trasum DISCOVER returns the part, mode, CHIP_UID and service MAC. -/
def execDiscover (t : Trasum) (badOp : Option (BitVec 7)) (s : State) : Host.Outcome State Fault Refusal :=
  s.act (fun b => b.trasumIn (discoverOp badOp) t)

/-- TRASUM_READ (R460): A Trasum READ returns DWORDs of the island pages. -/
def execTrasumRead (t : Trasum) (s : State) : Host.Outcome State Fault Refusal :=
  s.act (fun b => b.trasumIn opRead t)

/-- TRASUM_WRITE (R460): A Trasum WRITE writes DWORDs of the island pages as service-port accesses. -/
def execTrasumWrite (t : Trasum) (s : State) : Host.Outcome State Fault Refusal :=
  s.act (fun b => b.trasumIn opWrite t)

/-- FW_START (R460): A Trasum FW_START starts a download as UPD_START does. -/
def execFwStart (t : Trasum) (s : State) : Host.Outcome State Fault Refusal :=
  s.act (fun b => b.trasumIn opFwStart t)

/-- FW_BLOCK (R460): A Trasum FW_BLOCK writes a 1,024-byte block of the download. -/
def execFwBlock (t : Trasum) (s : State) : Host.Outcome State Fault Refusal :=
  s.act (fun b => b.trasumIn opFwBlock t)

/-- FW_FINISH (R460): A Trasum FW_FINISH finishes the download as UPD_FINISH does. -/
def execFwFinish (t : Trasum) (s : State) : Host.Outcome State Fault Refusal :=
  s.act (fun b => b.trasumIn opFwFinish t)

/-- FW_ABORT (R460): A Trasum FW_ABORT aborts the download. -/
def execFwAbort (t : Trasum) (s : State) : Host.Outcome State Fault Refusal :=
  s.act (fun b => b.trasumIn opFwAbort t)

/-- LOG_READ (R460): A Trasum LOG_READ returns persistent log records. -/
def execLogRead (t : Trasum) (s : State) : Host.Outcome State Fault Refusal :=
  s.act (fun b => b.trasumIn opLogRead t)

/-- MAILBOX (R460): A Trasum MAILBOX runs a firmware mailbox command and returns MB_STS and its data. -/
def execMailbox (t : Trasum) (s : State) : Host.Outcome State Fault Refusal :=
  s.act (fun b => b.trasumIn opMailbox t)

/-- I2C_READ (R472): The mailbox reads module memory through a cage record into MB_DATA. -/
def execI2cRead (answer : BusAnswer) (s : State) : Host.Outcome State Fault Refusal :=
  s.act (fun b => (b.mbTransfer 1 false answer).mbAnswer)

/-- I2C_WRITE (R472): The mailbox writes MB_DATA into module memory. -/
def execI2cWrite (answer : BusAnswer) (s : State) : Host.Outcome State Fault Refusal :=
  s.act (fun b => (b.mbTransfer 2 true answer).mbAnswer)

/-- MDIO_READ (R472): The mailbox reads a Clause 45 register into MB_DATA0. -/
def execMdioRead (answer : BusAnswer) (s : State) : Host.Outcome State Fault Refusal :=
  s.act (fun b => (b.mbTransfer 3 false answer).mbAnswer)

/-- MDIO_WRITE (R472): The mailbox writes a Clause 45 register from MB_DATA0. -/
def execMdioWrite (answer : BusAnswer) (s : State) : Host.Outcome State Fault Refusal :=
  s.act (fun b => (b.mbTransfer 4 true answer).mbAnswer)

/-- MAILBOX_TIMEOUT (R472): A mailbox command not ended within 50 ms ends with code TIMEOUT. -/
def execMailboxTimeout (s : State) : Host.Outcome State Fault Refusal :=
  s.act (fun b => b.mbTimeout.mbAnswer)

end Sys2Proof.Machine
end

