-- ==== Sys2Proof/Machine/Dispatch.lean ====
section
/-! DEFINITION. The meaning of each command: one arm for each constructor of Instr. -/

namespace Sys2Proof.Machine

def exec (i : Instr) (s : State) : Host.Outcome State Fault Refusal :=
  match i with
  | .registerWrite x => Sys2Proof.Machine.execRegisterWrite x s
  | .loHiRead x => Sys2Proof.Machine.execLoHiRead x s
  | .lockKeyWrite w p => Sys2Proof.Machine.execLockKeyWrite w p s
  | .pageSoftReset w p => Sys2Proof.Machine.execPageSoftReset w p s
  | .pageSoftResetEnd p => Sys2Proof.Machine.execPageSoftResetEnd p s
  | .errClr w p => Sys2Proof.Machine.execErrClr w p s
  | .intForce w p => Sys2Proof.Machine.execIntForce w p s
  | .boot w same => Sys2Proof.Machine.execBoot w same s
  | .spore w same => Sys2Proof.Machine.execSpore w same s
  | .mainOff w same => Sys2Proof.Machine.execMainOff w same s
  | .warmReset w same => Sys2Proof.Machine.execWarmReset w same s
  | .quiescent w same => Sys2Proof.Machine.execQuiescent w same s
  | .forwarding w same => Sys2Proof.Machine.execForwarding w same s
  | .lowPowerHold w same => Sys2Proof.Machine.execLowPowerHold w same s
  | .sorusRestart w same => Sys2Proof.Machine.execSorusRestart w same s
  | .faultHold w same => Sys2Proof.Machine.execFaultHold w same s
  | .quiescentPortHold => Sys2Proof.Machine.execQuiescentPortHold s
  | .vauxInValid => Sys2Proof.Machine.execVauxInValid s
  | .islandPowerOnReset bootAuto sporeN => Sys2Proof.Machine.execIslandPowerOnReset bootAuto sporeN s
  | .vauxInLoss torn => Sys2Proof.Machine.execVauxInLoss torn s
  | .mainRstNAssert => Sys2Proof.Machine.execMainRstNAssert s
  | .mainRstNRelease bootAuto sporeN => Sys2Proof.Machine.execMainRstNRelease bootAuto sporeN s
  | .loaderCheckResult sigOk => Sys2Proof.Machine.execLoaderCheckResult sigOk s
  | .mainRailsGood => Sys2Proof.Machine.execMainRailsGood s
  | .mainRailTimeout => Sys2Proof.Machine.execMainRailTimeout s
  | .mainRailLoss => Sys2Proof.Machine.execMainRailLoss s
  | .temperatureGateRelease => Sys2Proof.Machine.execTemperatureGateRelease s
  | .firmwareStart sigA sigB => Sys2Proof.Machine.execFirmwareStart sigA sigB s
  | .bringUpComplete half faults trained => Sys2Proof.Machine.execBringUpComplete half faults trained s
  | .bringUpFailure kind => Sys2Proof.Machine.execBringUpFailure kind s
  | .fatalError code => Sys2Proof.Machine.execFatalError code s
  | .boundaryScanEntry => Sys2Proof.Machine.execBoundaryScanEntry s
  | .degradationChange => Sys2Proof.Machine.execDegradationChange s
  | .firmwareReady => Sys2Proof.Machine.execFirmwareReady s
  | .handoverLate => Sys2Proof.Machine.execHandoverLate s
  | .handoverCoreReset => Sys2Proof.Machine.execHandoverCoreReset s
  | .watchdogExpiry => Sys2Proof.Machine.execWatchdogExpiry s
  | .kick w => Sys2Proof.Machine.execKick w s
  | .bridgeSlot d g pick seen => Sys2Proof.Machine.execBridgeSlot d g pick seen s
  | .bridgeChunkArrive d g flips => Sys2Proof.Machine.execBridgeChunkArrive d g flips s
  | .bridgeCreditReturn d g => Sys2Proof.Machine.execBridgeCreditReturn d g s
  | .halfWidthSwitch => Sys2Proof.Machine.execHalfWidthSwitch s
  | .chunkReplay d g => Sys2Proof.Machine.execChunkReplay d g s
  | .widthReq w => Sys2Proof.Machine.execWidthReq w s
  | .fullWidthReturn passed => Sys2Proof.Machine.execFullWidthReturn passed s
  | .driftClear w => Sys2Proof.Machine.execDriftClear w s
  | .tick drift => Sys2Proof.Machine.execTick drift s
  | .frameReceive o bytes fcsOk fec => Sys2Proof.Machine.execFrameReceive o bytes fcsOk fec s
  | .packetReady p => Sys2Proof.Machine.execPacketReady p s
  | .frondAdmission f seen => Sys2Proof.Machine.execFrondAdmission f seen s
  | .parserExit f => Sys2Proof.Machine.execParserExit f s
  | .handOff f wire cells acc => Sys2Proof.Machine.execHandOff f wire cells acc s
  | .recircStore k => Sys2Proof.Machine.execRecircStore k s
  | .drainWindowClose => Sys2Proof.Machine.execDrainWindowClose s
  | .frdCalCommit w f => Sys2Proof.Machine.execFrdCalCommit w f s
  | .frdCalCheck f => Sys2Proof.Machine.execFrdCalCheck f s
  | .progLoadStart w => Sys2Proof.Machine.execProgLoadStart w s
  | .progLoadAbort w => Sys2Proof.Machine.execProgLoadAbort w s
  | .progActivate w => Sys2Proof.Machine.execProgActivate w s
  | .progActivateApply => Sys2Proof.Machine.execProgActivateApply s
  | .programBlock => Sys2Proof.Machine.execProgramBlock s
  | .imageVerify => Sys2Proof.Machine.execImageVerify s
  | .programSwap => Sys2Proof.Machine.execProgramSwap s
  | .rangeCommit w => Sys2Proof.Machine.execRangeCommit w s
  | .rangeCommitApply => Sys2Proof.Machine.execRangeCommitApply s
  | .stageWrite w p => Sys2Proof.Machine.execStageWrite w p s
  | .payCommit w => Sys2Proof.Machine.execPayCommit w s
  | .payCommitApply => Sys2Proof.Machine.execPayCommitApply s
  | .copy w => Sys2Proof.Machine.execCopy w s
  | .patRead w => Sys2Proof.Machine.execPatRead w s
  | .patWrite w => Sys2Proof.Machine.execPatWrite w s
  | .partCommit w => Sys2Proof.Machine.execPartCommit w s
  | .partCommitApply => Sys2Proof.Machine.execPartCommitApply s
  | .tableOp => Sys2Proof.Machine.execTableOp s
  | .nop w => Sys2Proof.Machine.execNop w s
  | .emInsert w => Sys2Proof.Machine.execEmInsert w s
  | .emUpdate w => Sys2Proof.Machine.execEmUpdate w s
  | .emDelete w => Sys2Proof.Machine.execEmDelete w s
  | .emRead w => Sys2Proof.Machine.execEmRead w s
  | .emMoveZero => Sys2Proof.Machine.execEmMoveZero s
  | .routeAdd w => Sys2Proof.Machine.execRouteAdd w s
  | .routeDelete w => Sys2Proof.Machine.execRouteDelete w s
  | .routeRead w => Sys2Proof.Machine.execRouteRead w s
  | .directWrite w => Sys2Proof.Machine.execDirectWrite w s
  | .directRead w => Sys2Proof.Machine.execDirectRead w s
  | .tableClear w => Sys2Proof.Machine.execTableClear w s
  | .tableStats w => Sys2Proof.Machine.execTableStats w s
  | .freedWordsReturn => Sys2Proof.Machine.execFreedWordsReturn s
  | .learnApply => Sys2Proof.Machine.execLearnApply s
  | .agingPass n => Sys2Proof.Machine.execAgingPass n s
  | .agingRemoval hit => Sys2Proof.Machine.execAgingRemoval hit s
  | .shadowWalk first second third fourth upsets => Sys2Proof.Machine.execShadowWalk first second third fourth upsets s
  | .shadowReread upsets => Sys2Proof.Machine.execShadowReread upsets s
  | .rebase w => Sys2Proof.Machine.execRebase w s
  | .mismatchValidClear w => Sys2Proof.Machine.execMismatchValidClear w s
  | .tblLimitWrite w n => Sys2Proof.Machine.execTblLimitWrite w n s
  | .tblModeWrite w n => Sys2Proof.Machine.execTblModeWrite w n s
  | .tcamOp => Sys2Proof.Machine.execTcamOp s
  | .tcamNop w => Sys2Proof.Machine.execTcamNop w s
  | .insert w => Sys2Proof.Machine.execInsert w s
  | .update w => Sys2Proof.Machine.execUpdate w s
  | .delete w => Sys2Proof.Machine.execDelete w s
  | .read w => Sys2Proof.Machine.execRead w s
  | .tcamTableClear w => Sys2Proof.Machine.execTcamTableClear w s
  | .tcamTableStats w => Sys2Proof.Machine.execTcamTableStats w s
  | .groupAbandon w => Sys2Proof.Machine.execGroupAbandon w s
  | .tcamCommit => Sys2Proof.Machine.execTcamCommit s
  | .commitCleanupEnd mask => Sys2Proof.Machine.execCommitCleanupEnd mask s
  | .start w => Sys2Proof.Machine.execStart w s
  | .next w seen => Sys2Proof.Machine.execNext w seen s
  | .stop w => Sys2Proof.Machine.execStop w s
  | .tcamScrubPass found => Sys2Proof.Machine.execTcamScrubPass found s
  | .tcamRowScrub seen => Sys2Proof.Machine.execTcamRowScrub seen s
  | .cellArrival stream seen => Sys2Proof.Machine.execCellArrival stream seen s
  | .spillWrite q seens => Sys2Proof.Machine.execSpillWrite q seens s
  | .spillWriteComplete q => Sys2Proof.Machine.execSpillWriteComplete q s
  | .prefetchRequest q => Sys2Proof.Machine.execPrefetchRequest q s
  | .prefetchReadComplete q seens => Sys2Proof.Machine.execPrefetchReadComplete q seens s
  | .profRead w => Sys2Proof.Machine.execProfRead w s
  | .profWrite w => Sys2Proof.Machine.execProfWrite w s
  | .clearWm w => Sys2Proof.Machine.execClearWm w s
  | .clearWrap w => Sys2Proof.Machine.execClearWrap w s
  | .qsplitWrite w => Sys2Proof.Machine.execQsplitWrite w s
  | .poolLimitWrite w p => Sys2Proof.Machine.execPoolLimitWrite w p s
  | .randSeedWrite w => Sys2Proof.Machine.execRandSeedWrite w s
  | .schedulerDecision engine pick seens => Sys2Proof.Machine.execSchedulerDecision engine pick seens s
  | .egfFirstWord p => Sys2Proof.Machine.execEgfFirstWord p s
  | .egfTransmitStart p => Sys2Proof.Machine.execEgfTransmitStart p s
  | .egfWordTransmit p flips => Sys2Proof.Machine.execEgfWordTransmit p flips s
  | .wordCreditReturn p => Sys2Proof.Machine.execWordCreditReturn p s
  | .egfShareApply p => Sys2Proof.Machine.execEgfShareApply p s
  | .shpCtlCommit w => Sys2Proof.Machine.execShpCtlCommit w s
  | .profileExchange => Sys2Proof.Machine.execProfileExchange s
  | .shaperCommit => Sys2Proof.Machine.execShaperCommit s
  | .schRead w => Sys2Proof.Machine.execSchRead w s
  | .schWrite w => Sys2Proof.Machine.execSchWrite w s
  | .schCopy w => Sys2Proof.Machine.execSchCopy w s
  | .schCalCommit w k => Sys2Proof.Machine.execSchCalCommit w k s
  | .schCalCheck k => Sys2Proof.Machine.execSchCalCheck k s
  | .requestRefresh q => Sys2Proof.Machine.execRequestRefresh q s
  | .balanceAge q => Sys2Proof.Machine.execBalanceAge q s
  | .contextExpiry src voq => Sys2Proof.Machine.execContextExpiry src voq s
  | .grantIssue p => Sys2Proof.Machine.execGrantIssue p s
  | .request rx src voq port cls state => Sys2Proof.Machine.execRequest rx src voq port cls state s
  | .grant rx voq units => Sys2Proof.Machine.execGrant rx voq units s
  | .sync rx src engine next => Sys2Proof.Machine.execSync rx src engine next s
  | .syncReq rx src engine => Sys2Proof.Machine.execSyncReq rx src engine s
  | .syncReqResend ctx => Sys2Proof.Machine.execSyncReqResend ctx s
  | .nosyncExpiry ctx => Sys2Proof.Machine.execNosyncExpiry ctx s
  | .pauseExpiry k cls => Sys2Proof.Machine.execPauseExpiry k cls s
  | .macControlFrame k bytes => Sys2Proof.Machine.execMacControlFrame k bytes s
  | .pfcResend k cls => Sys2Proof.Machine.execPfcResend k cls s
  | .fabLaneEnable w l => Sys2Proof.Machine.execFabLaneEnable w l s
  | .fabLaneDisable w l => Sys2Proof.Machine.execFabLaneDisable w l s
  | .laneTrainingResult l r => Sys2Proof.Machine.execLaneTrainingResult l r s
  | .codeword l cw => Sys2Proof.Machine.execCodeword l cw s
  | .hello rx h => Sys2Proof.Machine.execHello rx h s
  | .helloSend l => Sys2Proof.Machine.execHelloSend l s
  | .helloTimeout l => Sys2Proof.Machine.execHelloTimeout l s
  | .probationEnd l => Sys2Proof.Machine.execProbationEnd l s
  | .laneRetry l => Sys2Proof.Machine.execLaneRetry l s
  | .laneJoinSpray l => Sys2Proof.Machine.execLaneJoinSpray l s
  | .reach rx map => Sys2Proof.Machine.execReach rx map s
  | .idle rx type => Sys2Proof.Machine.execIdle rx type s
  | .dataCell rx cell => Sys2Proof.Machine.execDataCell rx cell s
  | .reseqTimeout ctx => Sys2Proof.Machine.execReseqTimeout ctx s
  | .spray => Sys2Proof.Machine.execSpray s
  | .unreachDrop j => Sys2Proof.Machine.execUnreachDrop j s
  | .controlCellSend dev => Sys2Proof.Machine.execControlCellSend dev s
  | .planeDrain w => Sys2Proof.Machine.execPlaneDrain w s
  | .drain w n => Sys2Proof.Machine.execDrain w n s
  | .drained n => Sys2Proof.Machine.execDrained n s
  | .laneEnable w n l => Sys2Proof.Machine.execLaneEnable w n l s
  | .laneDisable w n l => Sys2Proof.Machine.execLaneDisable w n l s
  | .cdrLock n l => Sys2Proof.Machine.execCdrLock n l s
  | .lockLossRetrain n l => Sys2Proof.Machine.execLockLossRetrain n l s
  | .retrain w n l => Sys2Proof.Machine.execRetrain w n l s
  | .retrainAttemptEnd n l locked lost => Sys2Proof.Machine.execRetrainAttemptEnd n l locked lost s
  | .defectChange o bit on => Sys2Proof.Machine.execDefectChange o bit on s
  | .portUp o => Sys2Proof.Machine.execPortUp o s
  | .lineEvent => Sys2Proof.Machine.execLineEvent s
  | .portEnable w o => Sys2Proof.Machine.execPortEnable w o s
  | .portDisable w o => Sys2Proof.Machine.execPortDisable w o s
  | .lportMapWrite w p => Sys2Proof.Machine.execLportMapWrite w p s
  | .flexeOverhead g phy o => Sys2Proof.Machine.execFlexeOverhead g phy o s
  | .skewRecovery g => Sys2Proof.Machine.execSkewRecovery g s
  | .calReq w g => Sys2Proof.Machine.execCalReq w g s
  | .calendarSwitch g => Sys2Proof.Machine.execCalendarSwitch g s
  | .calTimeout g => Sys2Proof.Machine.execCalTimeout g s
  | .otnFrame c f => Sys2Proof.Machine.execOtnFrame c f s
  | .otnLof c multiframe => Sys2Proof.Machine.execOtnLof c multiframe s
  | .gfpFrame c hec f => Sys2Proof.Machine.execGfpFrame c hec f s
  | .cagePoll n c q => Sys2Proof.Machine.execCagePoll n c q s
  | .checkStart w e words found => Sys2Proof.Machine.execCheckStart w e words found s
  | .checkPause w e words found => Sys2Proof.Machine.execCheckPause w e words found s
  | .checkResume w e words found => Sys2Proof.Machine.execCheckResume w e words found s
  | .checkAbort w e words found => Sys2Proof.Machine.execCheckAbort w e words found s
  | .checkRunEnd e found expBad => Sys2Proof.Machine.execCheckRunEnd e found expBad s
  | .checkPeriodRestart e => Sys2Proof.Machine.execCheckPeriodRestart e s
  | .scrubWriteback => Sys2Proof.Machine.execScrubWriteback s
  | .ddr5Read a parity first second => Sys2Proof.Machine.execDdr5Read a parity first second s
  | .ddr5Write a bytes errs => Sys2Proof.Machine.execDdr5Write a bytes errs s
  | .refreshSlot k => Sys2Proof.Machine.execRefreshSlot k s
  | .owedRefreshIssue k => Sys2Proof.Machine.execOwedRefreshIssue k s
  | .mr4Read k field twice beyond => Sys2Proof.Machine.execMr4Read k field twice beyond s
  | .hotCrossing k => Sys2Proof.Machine.execHotCrossing k s
  | .coolCrossing k => Sys2Proof.Machine.execCoolCrossing k s
  | .periodicCalibration k inRange => Sys2Proof.Machine.execPeriodicCalibration k inRange s
  | .zqCalibration k => Sys2Proof.Machine.execZqCalibration k s
  | .hold k => Sys2Proof.Machine.execHold k s
  | .holdEnd k pass => Sys2Proof.Machine.execHoldEnd k pass s
  | .remirrorEnd l => Sys2Proof.Machine.execRemirrorEnd l s
  | .channelRetrain w k => Sys2Proof.Machine.execChannelRetrain w k s
  | .channelTrainingEnd k t => Sys2Proof.Machine.execChannelTrainingEnd k t s
  | .evacStart w => Sys2Proof.Machine.execEvacStart w s
  | .evacAbort w => Sys2Proof.Machine.execEvacAbort w s
  | .evacCopyEnd => Sys2Proof.Machine.execEvacCopyEnd s
  | .evacMapChange => Sys2Proof.Machine.execEvacMapChange s
  | .retire w => Sys2Proof.Machine.execRetire w s
  | .restore w => Sys2Proof.Machine.execRestore w s
  | .ppsEdge => Sys2Proof.Machine.execPpsEdge s
  | .todArm w => Sys2Proof.Machine.execTodArm w s
  | .todTimeout => Sys2Proof.Machine.execTodTimeout s
  | .holdoverEntry => Sys2Proof.Machine.execHoldoverEntry s
  | .slew w => Sys2Proof.Machine.execSlew w s
  | .step w => Sys2Proof.Machine.execStep w s
  | .freqAdjWrite w => Sys2Proof.Machine.execFreqAdjWrite w s
  | .servoEnWrite w => Sys2Proof.Machine.execServoEnWrite w s
  | .squelchLift k => Sys2Proof.Machine.execSquelchLift k s
  | .post w => Sys2Proof.Machine.execPost w s
  | .cancel w => Sys2Proof.Machine.execCancel w s
  | .counterSnapshot => Sys2Proof.Machine.execCounterSnapshot s
  | .marker => Sys2Proof.Machine.execMarker s
  | .join w => Sys2Proof.Machine.execJoin w s
  | .masterElection => Sys2Proof.Machine.execMasterElection s
  | .masterLoss => Sys2Proof.Machine.execMasterLoss s
  | .cascadeHelloSend j => Sys2Proof.Machine.execCascadeHelloSend j s
  | .cascadeHello j h m => Sys2Proof.Machine.execCascadeHello j h m s
  | .cascadeResend j => Sys2Proof.Machine.execCascadeResend j s
  | .timeSyncSend => Sys2Proof.Machine.execTimeSyncSend s
  | .timeSync j h t1 => Sys2Proof.Machine.execTimeSync j h t1 s
  | .delayReq j h t3 => Sys2Proof.Machine.execDelayReq j h t3 s
  | .delayResp j h t4 lseq => Sys2Proof.Machine.execDelayResp j h t4 lseq s
  | .prepare j h stamp type operand tag => Sys2Proof.Machine.execPrepare j h stamp type operand tag s
  | .accept j h tag => Sys2Proof.Machine.execAccept j h tag s
  | .refuse j h tag result => Sys2Proof.Machine.execRefuse j h tag result s
  | .confirm j h tag => Sys2Proof.Machine.execConfirm j h tag s
  | .abandon j h tag => Sys2Proof.Machine.execAbandon j h tag s
  | .coordDeadline tag => Sys2Proof.Machine.execCoordDeadline tag s
  | .unconfirmed tag => Sys2Proof.Machine.execUnconfirmed tag s
  | .learn j h seq key value table age => Sys2Proof.Machine.execLearn j h seq key value table age s
  | .tdAccessTimeout src page off write => Sys2Proof.Machine.execTdAccessTimeout src page off write s
  | .msixSend v fnMasked => Sys2Proof.Machine.execMsixSend v fnMasked s
  | .vecAck w => Sys2Proof.Machine.execVecAck w s
  | .windowRead a n uncorr => Sys2Proof.Machine.execWindowRead a n uncorr s
  | .windowWrite a bytes => Sys2Proof.Machine.execWindowWrite a bytes s
  | .ringPost w r => Sys2Proof.Machine.execRingPost w r s
  | .ringEnable w r => Sys2Proof.Machine.execRingEnable w r s
  | .ringDisable w r => Sys2Proof.Machine.execRingDisable w r s
  | .ringCoalesce r => Sys2Proof.Machine.execRingCoalesce r s
  | .injectFetch => Sys2Proof.Machine.execInjectFetch s
  | .functionLevelReset => Sys2Proof.Machine.execFunctionLevelReset s
  | .pciePerstN level => Sys2Proof.Machine.execPciePerstN level s
  | .counterSweep n => Sys2Proof.Machine.execCounterSweep n s
  | .counterWriteBack => Sys2Proof.Machine.execCounterWriteBack s
  | .counterEnableWrite w => Sys2Proof.Machine.execCounterEnableWrite w s
  | .counterRead w => Sys2Proof.Machine.execCounterRead w s
  | .counterClear w => Sys2Proof.Machine.execCounterClear w s
  | .counterClearWrap w => Sys2Proof.Machine.execCounterClearWrap w s
  | .snapshotNow w => Sys2Proof.Machine.execSnapshotNow w s
  | .snapshotBuildEnd => Sys2Proof.Machine.execSnapshotBuildEnd s
  | .counterExport => Sys2Proof.Machine.execCounterExport s
  | .pmcReprogram w n reg => Sys2Proof.Machine.execPmcReprogram w n reg s
  | .pmcFreeze w => Sys2Proof.Machine.execPmcFreeze w s
  | .updStart w => Sys2Proof.Machine.execUpdStart w s
  | .updFinish w => Sys2Proof.Machine.execUpdFinish w s
  | .updAbort w => Sys2Proof.Machine.execUpdAbort w s
  | .updActivate w => Sys2Proof.Machine.execUpdActivate w s
  | .updConfirm w => Sys2Proof.Machine.execUpdConfirm w s
  | .firmwareBlock => Sys2Proof.Machine.execFirmwareBlock s
  | .discover t badOp => Sys2Proof.Machine.execDiscover t badOp s
  | .trasumRead t => Sys2Proof.Machine.execTrasumRead t s
  | .trasumWrite t => Sys2Proof.Machine.execTrasumWrite t s
  | .fwStart t => Sys2Proof.Machine.execFwStart t s
  | .fwBlock t => Sys2Proof.Machine.execFwBlock t s
  | .fwFinish t => Sys2Proof.Machine.execFwFinish t s
  | .fwAbort t => Sys2Proof.Machine.execFwAbort t s
  | .logRead t => Sys2Proof.Machine.execLogRead t s
  | .mailbox t => Sys2Proof.Machine.execMailbox t s
  | .i2cRead answer => Sys2Proof.Machine.execI2cRead answer s
  | .i2cWrite answer => Sys2Proof.Machine.execI2cWrite answer s
  | .mdioRead answer => Sys2Proof.Machine.execMdioRead answer s
  | .mdioWrite answer => Sys2Proof.Machine.execMdioWrite answer s
  | .mailboxTimeout => Sys2Proof.Machine.execMailboxTimeout s
  | .ltrWrite w g => Sys2Proof.Machine.execLtrWrite w g s
  | .powerStateEntry g ready => Sys2Proof.Machine.execPowerStateEntry g ready s
  | .demand g => Sys2Proof.Machine.execDemand g s
  | .wakeComplete g => Sys2Proof.Machine.execWakeComplete g s
  | .sliceDrain w k => Sys2Proof.Machine.execSliceDrain w k s
  | .sliceDrainExpiry k => Sys2Proof.Machine.execSliceDrainExpiry k s
  | .sliceRelease w k => Sys2Proof.Machine.execSliceRelease w k s
  | .sliceReleaseApply => Sys2Proof.Machine.execSliceReleaseApply s
  | .sensorSample temps => Sys2Proof.Machine.execSensorSample temps s
  | .peakClr w => Sys2Proof.Machine.execPeakClr w s
  | .refclkLoss c => Sys2Proof.Machine.execRefclkLoss c s
  | .forwardedClockLockLoss g => Sys2Proof.Machine.execForwardedClockLockLoss g s
  | .cascadeLaneStateChange j lanes => Sys2Proof.Machine.execCascadeLaneStateChange j lanes s
  | .cascadeLinkHelloLoss j => Sys2Proof.Machine.execCascadeLinkHelloLoss j s
  | .servicePortLinkChange up => Sys2Proof.Machine.execServicePortLinkChange up s
  | .slewEnd => Sys2Proof.Machine.execSlewEnd s
  | .settingsSave records => Sys2Proof.Machine.execSettingsSave records s

end Sys2Proof.Machine
end

