-- ==== Sys2Proof/Safety.lean ====
section
/-! DEFINITION. What claims are stated in: runs that stop nowhere, writes that a page accepts, and what a command leaves alone. -/

namespace Sys2Proof.Machine

/-- Every waiting command is one that its source can bring. -/
def State.queueWf (s : State) : Bool := s.pending.all Instr.wf

/-- A source's write of the register at `a` is accepted: its page answers that source and is assigned (R17, R396, R398), the page is
not in its soft reset, and WR_EN lets registers beyond the header be written (R403). -/
def Block.accepts (b : Block) (src : Source) (a : Nat) : Prop :=
  b.reach src (a / 0x10000) (a % 0x10000) = .answers ∧ (pageRow (a / 0x10000)).isSome = true ∧
    b.flag (HDR.PAGE_CTL (a / 0x10000)) HDR.PAGE_CTL_SOFT_RESET = false ∧
    b.flag (HDR.PAGE_CTL (a / 0x10000)) HDR.PAGE_CTL_WR_EN = true

/-- Every register but those at the addresses named reads what it read. -/
def Block.regsKept (b b' : Block) (but : List Nat) : Prop := ∀ a, a ∉ but → b'.reg a = b.reg a

/-- The registers that an event of a page may change beside its own report: the page's and PCI's event counts, HOST's interrupt causes,
and the state of the event ring (R413, R415). -/
def eventRegs (page : Nat) : List Nat :=
  [HDR.EVT_SEQ page, HDR.EVT_SEQ 1, HDR.INT_RAW 1, PCI.RING_HEAD 65, PCI.RING_STS 65]

/-- The parts of the device that a command may change: the fields of its state. -/
inductive Part where
  | regs
  | frozen
  | latches
  | armed
  | rings
  | host
  | lost
  | sent
  | mode
  | time
  | nv
  | temps
  | fw
  | svc
  | anchors
  | csc
  | fd
  | td
  | line
  | tbl
  | tcam
  | d5
  | cnt
  | chk
  | pwr
  | told
  | draws
  | out
deriving DecidableEq, Repr

/-- A part is as it was. -/
def Block.samePart (b b' : Block) : Part → Prop
  | .regs => b'.regs = b.regs
  | .frozen => b'.frozen = b.frozen
  | .latches => b'.latches = b.latches
  | .armed => b'.armed = b.armed
  | .rings => b'.rings = b.rings
  | .host => b'.host = b.host
  | .lost => b'.lost = b.lost
  | .sent => b'.sent = b.sent
  | .mode => b'.mode = b.mode
  | .time => b'.time = b.time
  | .nv => b'.nv = b.nv
  | .temps => b'.temps = b.temps
  | .fw => b'.fw = b.fw
  | .svc => b'.svc = b.svc
  | .anchors => b'.anchors = b.anchors
  | .csc => b'.csc = b.csc
  | .fd => b'.fd = b.fd
  | .td => b'.td = b.td
  | .line => b'.line = b.line
  | .tbl => b'.tbl = b.tbl
  | .tcam => b'.tcam = b.tcam
  | .d5 => b'.d5 = b.d5
  | .cnt => b'.cnt = b.cnt
  | .chk => b'.chk = b.chk
  | .pwr => b'.pwr = b.pwr
  | .told => b'.told = b.told
  | .draws => b'.draws = b.draws
  | .out => b'.out = b.out

/-- Every part but those named is as it was. -/
def Block.changesOnly (b b' : Block) (ps : List Part) : Prop := ∀ p, p ∉ ps → b.samePart b' p

/-- Nothing but registers differs. -/
def Block.onlyRegs (b b' : Block) : Prop := b' = { b with regs := b'.regs }

/-- Nothing differs but registers and what an event or a returned descriptor touches: the rings, host memory and the mark of a lost
event. -/
def Block.onlyHost (b b' : Block) : Prop := b' = { b with regs := b'.regs, rings := b'.rings, host := b'.host, lost := b'.lost }

/-- Nothing differs but registers, the latched halves and the armed unlocks, which every write access may change (R12, R404). -/
def Block.onlyWrite (b b' : Block) : Prop := b' = { b with regs := b'.regs, latches := b'.latches, armed := b'.armed }

/-- The field that a description stands for. -/
def FieldDesc.fld (f : FieldDesc) : Fld := ⟨f.lsb, f.msb - f.lsb + 1⟩

/-- The number that a write of `v` brings for a field is one that it may not hold: outside its codes, or reserved by other state
(R11). -/
def FieldDesc.refuses (f : FieldDesc) (v : Word) (bad : List Nat) : Prop :=
  fldGet f.fld v < f.lo ∨ f.hi < fldGet f.fld v ∨ f.lsb ∈ bad

/-- `n` is a field's number after a write of `v` over `old`, by its access code (R8, R9, R11). -/
def FieldDesc.takes (f : FieldDesc) (old v : Word) (unlocked : Bool) (bad : List Nat) (n : Nat) : Prop :=
  match f.acc with
  | .ro | .ros | .wo => n = fldGet f.fld old
  | .rw => (f.refuses v bad → n = fldGet f.fld old) ∧ (¬ f.refuses v bad → n = fldGet f.fld v)
  | .rwl => (unlocked = false ∨ f.refuses v bad → n = fldGet f.fld old) ∧
      (unlocked = true → ¬ f.refuses v bad → n = fldGet f.fld v)
  | .rw1c => n = fldGet f.fld old - (fldGet f.fld old &&& fldGet f.fld v)
  | .w1s => n = fldGet f.fld old ||| fldGet f.fld v
  | .w1sl => (unlocked = true → n = fldGet f.fld old ||| fldGet f.fld v) ∧ (unlocked = false → n = fldGet f.fld old)

/-- `n` is the number that a register's effect sees in a field: a command or clear bit as it was written (a locked one 0 without the
unlock), every other field as it then stands. -/
def FieldDesc.sees (f : FieldDesc) (old v : Word) (unlocked : Bool) (bad : List Nat) (n : Nat) : Prop :=
  match f.acc with
  | .ro | .ros | .rw | .rwl => f.takes old v unlocked bad n
  | .rw1c | .w1s | .wo => n = fldGet f.fld v
  | .w1sl => (unlocked = true → n = fldGet f.fld v) ∧ (unlocked = false → n = 0)

/-- A message with header `h` is the next in order on cascade link `j`, which is up and has nothing held ahead of its turn (R384). -/
def Block.inTurn (b : Block) (j : Nat) (h : CHdr) : Prop :=
  b.cascadeOn = true ∧ b.fld (CSC.LINK_STS j) CSC.LINK_STS_LANES_UP ≠ 0 ∧ b.flag (CSC.LINK_STS j) CSC.LINK_STS_UP = true ∧
    (b.csc.link j).nextIn = h.lseq.toNat ∧ (b.csc.link j).early = []

/-- The parts of the device that a row which lets time or a cascade message pass may touch: the mode itself stays. -/
def cushionParts : List Part :=
  [.regs, .rings, .host, .lost, .mode, .time, .fw, .anchors, .csc, .fd, .td, .tbl, .d5, .cnt, .pwr, .told, .draws, .out]

/-- A 32-bit word as the bytes of a write access, all enabled (R7, R399). -/
def wordBytes (v : Word) : List (Option Byte) := (leBytes 4 v.toNat).map some

/-- The write of one register that a command is, where it is one: its source, the register's address and the word (R8). -/
def writeOf : Instr → Option (Source × Nat × Word)
  | .lockKeyWrite w p => some (w.src, HDR.LOCK_KEY p.toNat, w.value)
  | .pageSoftReset w p => some (w.src, HDR.PAGE_CTL p.toNat, fldPut HDR.PAGE_CTL_SOFT_RESET w.value 1)
  | .errClr w p => some (w.src, HDR.PAGE_CTL p.toNat, fldPut HDR.PAGE_CTL_ERR_CLR w.value 1)
  | .intForce w p => some (w.src, HDR.INT_FORCE p.toNat, w.value)
  | .boot w _ => some (w.src, AUX.MODE_REQ, fldPut AUX.MODE_REQ_REQ w.value 1)
  | .spore w _ => some (w.src, AUX.MODE_REQ, fldPut AUX.MODE_REQ_REQ w.value 2)
  | .mainOff w _ => some (w.src, AUX.MODE_REQ, fldPut AUX.MODE_REQ_REQ w.value 3)
  | .warmReset w _ => some (w.src, AUX.MODE_REQ, fldPut AUX.MODE_REQ_REQ w.value 4)
  | .quiescent w _ => some (w.src, AUX.MODE_REQ, fldPut AUX.MODE_REQ_REQ w.value 5)
  | .forwarding w _ => some (w.src, AUX.MODE_REQ, fldPut AUX.MODE_REQ_REQ w.value 6)
  | .lowPowerHold w _ => some (w.src, AUX.MODE_REQ, fldPut AUX.MODE_REQ_REQ w.value 7)
  | .sorusRestart w _ => some (w.src, AUX.MODE_REQ, fldPut AUX.MODE_REQ_REQ w.value 8)
  | .faultHold w _ => some (w.src, AUX.MODE_REQ, fldPut AUX.MODE_REQ_REQ w.value 9)
  | .kick w => some (w.src, FWM.WDT, fldPut FWM.WDT_KICK w.value 1)
  | .widthReq w => some (w.src, BRG.CTL, fldPut BRG.CTL_WIDTH_REQ w.value 1)
  | .driftClear w => some (w.src, BRG.STS, fldPut BRG.STS_DRIFT w.value 1)
  | .frdCalCommit w f => some (w.src, FRD.CAL_CTL f.val, fldPut FRD.CAL_CTL_COMMIT w.value 1)
  | .progLoadStart w => some (w.src, GLB.PROG_LOAD_CTL, fldPut GLB.PROG_LOAD_CTL_START w.value 1)
  | .progLoadAbort w => some (w.src, GLB.PROG_LOAD_CTL, fldPut GLB.PROG_LOAD_CTL_ABORT w.value 1)
  | .progActivate w => some (w.src, GLB.PROG_LOAD_CTL, fldPut GLB.PROG_LOAD_CTL_ACTIVATE w.value 1)
  | .rangeCommit w => some (w.src, PRS.RANGE_CTL, fldPut PRS.RANGE_CTL_COMMIT w.value 1)
  | .stageWrite w p => some (w.src, PRS.STAGE p.val, w.value)
  | .payCommit w => some (w.src, PAY.CTL, fldPut PAY.CTL_COMMIT w.value 1)
  | .copy w => some (w.src, PAY.PAT_CMD, fldPut PAY.PAT_CMD_COPY w.value 1)
  | .patRead w => some (w.src, PAY.PAT_CMD, fldPut PAY.PAT_CMD_READ w.value 1)
  | .patWrite w => some (w.src, PAY.PAT_CMD, fldPut PAY.PAT_CMD_WRITE w.value 1)
  | .partCommit w => some (w.src, LKP.PART_CTL, fldPut LKP.PART_CTL_COMMIT w.value 1)
  | .nop w => some (w.src, LKP.OP_CTL, fldPut LKP.OP_CTL_GO (fldPut LKP.OP_CTL_OP w.value 0) 1)
  | .emInsert w => some (w.src, LKP.OP_CTL, fldPut LKP.OP_CTL_GO (fldPut LKP.OP_CTL_OP w.value 1) 1)
  | .emUpdate w => some (w.src, LKP.OP_CTL, fldPut LKP.OP_CTL_GO (fldPut LKP.OP_CTL_OP w.value 2) 1)
  | .emDelete w => some (w.src, LKP.OP_CTL, fldPut LKP.OP_CTL_GO (fldPut LKP.OP_CTL_OP w.value 3) 1)
  | .emRead w => some (w.src, LKP.OP_CTL, fldPut LKP.OP_CTL_GO (fldPut LKP.OP_CTL_OP w.value 4) 1)
  | .routeAdd w => some (w.src, LKP.OP_CTL, fldPut LKP.OP_CTL_GO (fldPut LKP.OP_CTL_OP w.value 5) 1)
  | .routeDelete w => some (w.src, LKP.OP_CTL, fldPut LKP.OP_CTL_GO (fldPut LKP.OP_CTL_OP w.value 6) 1)
  | .routeRead w => some (w.src, LKP.OP_CTL, fldPut LKP.OP_CTL_GO (fldPut LKP.OP_CTL_OP w.value 7) 1)
  | .directWrite w => some (w.src, LKP.OP_CTL, fldPut LKP.OP_CTL_GO (fldPut LKP.OP_CTL_OP w.value 8) 1)
  | .directRead w => some (w.src, LKP.OP_CTL, fldPut LKP.OP_CTL_GO (fldPut LKP.OP_CTL_OP w.value 9) 1)
  | .tableClear w => some (w.src, LKP.OP_CTL, fldPut LKP.OP_CTL_GO (fldPut LKP.OP_CTL_OP w.value 10) 1)
  | .tableStats w => some (w.src, LKP.OP_CTL, fldPut LKP.OP_CTL_GO (fldPut LKP.OP_CTL_OP w.value 11) 1)
  | .rebase w => some (w.src, SHD.REBASE_END, w.value)
  | .mismatchValidClear w => some (w.src, SHD.MISMATCH_VALID, fldPut SHD.MISMATCH_VALID_VALID w.value 1)
  | .tblLimitWrite w n => some (w.src, LRN.TBL_LIMIT n.val, w.value)
  | .tblModeWrite w n => some (w.src, LRN.TBL_CFG n.val, fldPut LRN.TBL_CFG_MODE w.value 2)
  | .tcamNop w => some (w.src, TCM.OP_CTL, fldPut TCM.OP_CTL_GO (fldPut TCM.OP_CTL_OP w.value 0) 1)
  | .insert w => some (w.src, TCM.OP_CTL, fldPut TCM.OP_CTL_GO (fldPut TCM.OP_CTL_OP w.value 1) 1)
  | .update w => some (w.src, TCM.OP_CTL, fldPut TCM.OP_CTL_GO (fldPut TCM.OP_CTL_OP w.value 2) 1)
  | .delete w => some (w.src, TCM.OP_CTL, fldPut TCM.OP_CTL_GO (fldPut TCM.OP_CTL_OP w.value 3) 1)
  | .read w => some (w.src, TCM.OP_CTL, fldPut TCM.OP_CTL_GO (fldPut TCM.OP_CTL_OP w.value 4) 1)
  | .tcamTableClear w => some (w.src, TCM.OP_CTL, fldPut TCM.OP_CTL_GO (fldPut TCM.OP_CTL_OP w.value 5) 1)
  | .tcamTableStats w => some (w.src, TCM.OP_CTL, fldPut TCM.OP_CTL_GO (fldPut TCM.OP_CTL_OP w.value 6) 1)
  | .groupAbandon w => some (w.src, TCM.OP_CTL, fldPut TCM.OP_CTL_GO (fldPut TCM.OP_CTL_OP w.value 7) 1)
  | .start w => some (w.src, TCM.STEP_CTL, fldPut TCM.STEP_CTL_START w.value 1)
  | .next w _ => some (w.src, TCM.STEP_CTL, fldPut TCM.STEP_CTL_NEXT w.value 1)
  | .stop w => some (w.src, TCM.STEP_CTL, fldPut TCM.STEP_CTL_STOP w.value 1)
  | .profRead w => some (w.src, QMG.PROF_CMD, fldPut QMG.PROF_CMD_READ w.value 1)
  | .profWrite w => some (w.src, QMG.PROF_CMD, fldPut QMG.PROF_CMD_WRITE w.value 1)
  | .clearWm w => some (w.src, QMG.PROF_CMD, fldPut QMG.PROF_CMD_CLEAR_WM w.value 1)
  | .clearWrap w => some (w.src, QMG.PROF_CMD, fldPut QMG.PROF_CMD_CLEAR_WRAP w.value 1)
  | .qsplitWrite w => some (w.src, QMG.QSPLIT, w.value)
  | .poolLimitWrite w p => some (w.src, poolLimitAddr p.val, w.value)
  | .randSeedWrite w => some (w.src, QMG.RAND_SEED, w.value)
  | .shpCtlCommit w => some (w.src, SCH.SHP_CTL, fldPut SCH.SHP_CTL_COMMIT w.value 1)
  | .schRead w => some (w.src, SCH.CMD, fldPut SCH.CMD_READ w.value 1)
  | .schWrite w => some (w.src, SCH.CMD, fldPut SCH.CMD_WRITE w.value 1)
  | .schCopy w => some (w.src, SCH.CMD, fldPut SCH.CMD_COPY w.value 1)
  | .schCalCommit w k => some (w.src, SCH.CAL_CTL k.val, fldPut SCH.CAL_CTL_COMMIT w.value 1)
  | .fabLaneEnable w l => some (w.src, laneCfg l.val, fldPut FAB.LANE_CFG_ENABLE w.value 1)
  | .fabLaneDisable w l => some (w.src, laneCfg l.val, fldPut FAB.LANE_CFG_ENABLE w.value 0)
  | .planeDrain w => some (w.src, KCL.PLANE_DRAIN, w.value)
  | .drain w n => some (w.src, FAB.CTL n.val, w.value)
  | .laneEnable w n l => some (w.src, LIN.LANE_CFG n.val l.val, fldPut LIN.LANE_CFG_ENABLE w.value 1)
  | .laneDisable w n l => some (w.src, LIN.LANE_CFG n.val l.val, fldPut LIN.LANE_CFG_ENABLE w.value 0)
  | .retrain w n l => some (w.src, LIN.LANE_CFG n.val l.val, fldPut LIN.LANE_CFG_RETRAIN w.value 1)
  | .portEnable w o => some (w.src, o.cfg, fldPut LIN.MAC_CFG_ENABLE w.value 1)
  | .portDisable w o => some (w.src, o.cfg, fldPut LIN.MAC_CFG_ENABLE w.value 0)
  | .lportMapWrite w p => some (w.src, LIN.LPORT_MAP (p.val / 32) (p.val % 32), w.value)
  | .calReq w g => some (w.src, FLX.GRP_CTL g.val, fldPut FLX.GRP_CTL_CAL_REQ w.value 1)
  | .checkStart w e _ _ => some (w.src, CHK.CTX_CTL e.val, fldPut CHK.CTX_CTL_START w.value 1)
  | .checkPause w e _ _ => some (w.src, CHK.CTX_CTL e.val, fldPut CHK.CTX_CTL_PAUSE w.value 1)
  | .checkResume w e _ _ => some (w.src, CHK.CTX_CTL e.val, fldPut CHK.CTX_CTL_RESUME w.value 1)
  | .checkAbort w e _ _ => some (w.src, CHK.CTX_CTL e.val, fldPut CHK.CTX_CTL_ABORT w.value 1)
  | .channelRetrain w k => some (w.src, D5C.CTL k.val, fldPut D5C.CTL_RETRAIN w.value 1)
  | .evacStart w => some (w.src, D5M.EVAC_CTL, fldPut D5M.EVAC_CTL_START w.value 1)
  | .evacAbort w => some (w.src, D5M.EVAC_CTL, fldPut D5M.EVAC_CTL_ABORT w.value 1)
  | .retire w => some (w.src, D5M.RETIRE_CMD, fldPut D5M.RETIRE_CMD_RETIRE w.value 1)
  | .restore w => some (w.src, D5M.RETIRE_CMD, fldPut D5M.RETIRE_CMD_RESTORE w.value 1)
  | .todArm w => some (w.src, TMB.CTL, fldPut TMB.CTL_TOD_ARM w.value 1)
  | .slew w => some (w.src, TMB.SLEW_NS, w.value)
  | .step w => some (w.src, TMB.CTL, fldPut TMB.CTL_STEP w.value 1)
  | .freqAdjWrite w => some (w.src, TMB.FREQ_ADJ, w.value)
  | .servoEnWrite w => some (w.src, TMB.CTL, w.value)
  | .post w => some (w.src, ANC.CMD, fldPut ANC.CMD_POST w.value 1)
  | .cancel w => some (w.src, ANC.CMD, fldPut ANC.CMD_CANCEL w.value 1)
  | .join w => some (w.src, CSC.CTL, fldPut CSC.CTL_JOIN w.value 1)
  | .vecAck w => some (w.src, PCI.VEC_ACK, w.value)
  | .ringPost w r => some (w.src, PCI.RING_POST r.val, w.value)
  | .ringEnable w r => some (w.src, PCI.RING_CFG r.val, fldPut PCI.RING_CFG_ENABLE w.value 1)
  | .ringDisable w r => some (w.src, PCI.RING_CFG r.val, fldPut PCI.RING_CFG_ENABLE w.value 0)
  | .counterEnableWrite w => some (w.src, CNT.CTL, w.value)
  | .counterRead w => some (w.src, CNT.OP_CMD, fldPut CNT.OP_CMD_READ w.value 1)
  | .counterClear w => some (w.src, CNT.OP_CMD, fldPut CNT.OP_CMD_CLEAR w.value 1)
  | .counterClearWrap w => some (w.src, CNT.OP_CMD, fldPut CNT.OP_CMD_CLEAR_WRAP w.value 1)
  | .snapshotNow w => some (w.src, CNT.SNAP_CTL, fldPut CNT.SNAP_CTL_NOW w.value 1)
  | .pmcReprogram w n reg => some (w.src, reg.addr n.val, w.value)
  | .pmcFreeze w => some (w.src, PMC.CTL, w.value)
  | .updStart w => some (w.src, FWM.UPD_CTL, fldPut FWM.UPD_CTL_START w.value 1)
  | .updFinish w => some (w.src, FWM.UPD_CTL, fldPut FWM.UPD_CTL_FINISH w.value 1)
  | .updAbort w => some (w.src, FWM.UPD_CTL, fldPut FWM.UPD_CTL_ABORT w.value 1)
  | .updActivate w => some (w.src, FWM.UPD_CTL, fldPut FWM.UPD_CTL_ACTIVATE w.value 1)
  | .updConfirm w => some (w.src, FWM.UPD_CTL, fldPut FWM.UPD_CTL_CONFIRM w.value 1)
  | .ltrWrite w g => some (w.src, PWR.LTR g.val, w.value)
  | .sliceDrain w k => some (w.src, PWR.SLICE_DRAIN, fldPut ⟨k.val, 1⟩ w.value 1)
  | .sliceRelease w k => some (w.src, PWR.SLICE_DRAIN, fldPut ⟨k.val, 1⟩ w.value 0)
  | .peakClr w => some (w.src, THM.STS, fldPut THM.STS_PEAK_CLR w.value 1)
  | _ => none

/-- What a register-write command meets beside the write (R45, R160, R328). -/
def meetsOf : Instr → Meets
  | .boot _ same | .spore _ same | .mainOff _ same | .warmReset _ same | .quiescent _ same | .forwarding _ same
  | .lowPowerHold _ same | .sorusRestart _ same | .faultHold _ same => { same := same }
  | .checkStart _ _ words found | .checkPause _ _ words found | .checkResume _ _ words found | .checkAbort _ _ words found =>
    { words := words, found := found }
  | .next _ seen => { seen := seen.norm }
  | _ => {}

end Sys2Proof.Machine
end

