-- ==== Sys2Proof/Certificates/Slice0/Obligations.lean ====
section
/-! DEFINITION. The statements about the model: one definition for each. -/

open Sys2Proof Sys2Proof.Machine

/-- One step takes the first waiting command and is that command's own effect on the device, with the commands behind it still waiting. -/
def Obligations.StepTakesFront : Prop :=
  ∀ (c : Instr) (rest : List Instr) (b : Block),
    Machine.step { blk := b, pending := c :: rest } = Machine.exec c { blk := b, pending := rest }

/-- Every command completes, whatever its operands and the device's state: the answer is a next state in which the waiting commands are
as they were. No command stops (log entry 1). -/
def Obligations.EveryCommandCompletes : Prop :=
  ∀ (c : Instr) (s : State), ∃ b, Machine.exec c s = .next { s with blk := b }

/-- Every command does what some command with well-formed operands does, and it is that command itself where its own are well formed: a
field of more bits than the spec gives it is never taken beyond them (log entry 1). -/
def Obligations.OperandsAreBroughtToTheirBounds : Prop :=
  ∀ c : Instr, ∃ c' : Instr, c'.wf = true ∧ (c.wf = true → c' = c) ∧ ∀ s : State, Machine.exec c s = Machine.exec c' s

/-- The device that a command leaves is the same whatever commands wait behind it, and it hands those on as they were. -/
def Obligations.WaitingCommandsDoNotMatter : Prop :=
  ∀ (c : Instr) (b b' : Block) (p p' q : List Instr),
    Machine.exec c { blk := b, pending := p } = .next { blk := b', pending := q } →
      q = p ∧ Machine.exec c { blk := b, pending := p' } = .next { blk := b', pending := p' }

/-- Any queue of commands is run to its end in as many steps as it holds, and leaves one device, whatever waits behind it: the later
commands neither run early nor change what the earlier ones do. -/
def Obligations.QueueRunsInOrder : Prop :=
  ∀ (cs : List Instr) (b : Block), ∃ b', ∀ rest,
    Sys2Proof.core.run cs.length { blk := b, pending := cs ++ rest } = .next { blk := b', pending := rest }

/-- From every state a step answers a next state and takes at most the command in front, so no run stops, whatever the device's state;
and where the waiting commands are well formed, those left waiting are. -/
def Obligations.NoStepStops : Prop :=
  ∀ s : State, ∃ t, Machine.step s = .next t ∧ t.pending = s.pending.tail ∧ (s.queueWf = true → t.queueWf = true)

/-- After reset the queue is empty, and so well formed. -/
def Obligations.ResetQueueIsEmpty : Prop := State.reset.pending = [] ∧ State.reset.queueWf = true

/-- Whatever source reads a register, every bit that is no field of it reads 0, and an offset that no register has reads 0 whole; and
no store puts a 1 where no field is. -/
def Obligations.ReservedBitsReadZero : Prop :=
  ∀ (b : Block) (src : Source) (a : Nat) (v : Word),
    b.regNow src a &&& ~~~maskOf a = 0#32 ∧ (regOf a = none → b.regNow src a = 0#32) ∧
      (b.setReg a v).reg a &&& ~~~maskOf a = 0#32

/-- REGISTER_WRITE: a full four-byte write of an aligned register beyond the header that has no effect beside its fields completes on a
page that accepts it: each field holds what R8, R9 and R11 make of the number written, the page's unlock for that source is spent
(R404), and no other register changes but the page's capture and what its event may change (R405, R415). -/
def Obligations.WriteTakesFields : Prop :=
  ∀ (s : State) (src : Source) (a : Nat) (v : Word) (r : RegDesc), a < 2 ^ 26 → a % 4 = 0 → 0x100 ≤ a % 0x10000 →
    regOf a = some r → effOf src {} a = noEff → s.blk.accepts src a → s.blk.fw.mbTrasum = none →
    ∃ b, Machine.exec (.registerWrite ⟨src, BitVec.ofNat 26 a, wordBytes v⟩) s = .next { s with blk := b } ∧
      (∀ f ∈ r.fields, f.takes (s.blk.reg a) v (s.blk.isArmed (a / 0x10000) src)
        (regBad (s.blk.disarm (a / 0x10000) src) src a (s.blk.reg a) v) (b.fld a f.fld)) ∧
      b.isArmed (a / 0x10000) src = false ∧
      s.blk.regsKept b (a :: HDR.ERR_ADDR (a / 0x10000) :: HDR.ERR_INFO (a / 0x10000) :: eventRegs (a / 0x10000))

/-- In STANDBY and BOOT every command that is a host's write of a register completes and writes none: at most the writer's own latched
halves change; and a host's read gets no completion. -/
def Obligations.HostMeetsNothingBeforeRails : Prop :=
  ∀ s : State, s.blk.mode.mode = .standby ∨ s.blk.mode.mode = .boot → s.blk.fw.mbTrasum = none →
    (∀ (c : Instr) (a : Nat) (v : Word), writeOf c = some (.host, a, v) → c.wf = true →
      ∃ b, Machine.exec c s = .next { s with blk := b } ∧ b = { s.blk with latches := b.latches }) ∧
    ∀ (a : BitVec 26) (n : Fin 4097),
      Machine.exec (.loHiRead (.bar0 .host a n)) s = .next { s with blk := { s.blk with out := s.blk.out ++ [.noCompletion] } }

/-- Every command that is a write of a register beyond the header of an assigned page that answers completes with no register written
where the page is in soft reset or WR_EN is 0: with no capture held, ERR_ADDR holds the offset and ERR_INFO the source, WRITE, the
whole access and code 0x06 or 0x05; with one held, nothing at all is captured. -/
def Obligations.RefusedWriteIsCaptured : Prop :=
  ∀ (s : State) (c : Instr) (src : Source) (a : Nat) (v : Word) (code : Nat), writeOf c = some (src, a, v) → c.wf = true →
    s.blk.fw.mbTrasum = none → s.blk.reach src (a / 0x10000) (a % 0x10000) = .answers →
    (pageRow (a / 0x10000)).isSome = true → 0x100 ≤ a % 0x10000 →
    (code = 6 ∧ s.blk.flag (HDR.PAGE_CTL (a / 0x10000)) HDR.PAGE_CTL_SOFT_RESET = true ∨
      code = 5 ∧ s.blk.flag (HDR.PAGE_CTL (a / 0x10000)) HDR.PAGE_CTL_SOFT_RESET = false ∧
        s.blk.flag (HDR.PAGE_CTL (a / 0x10000)) HDR.PAGE_CTL_WR_EN = false) →
    ∃ b, Machine.exec c s = .next { s with blk := b } ∧
      (s.blk.flag (HDR.ERR_INFO (a / 0x10000)) HDR.ERR_INFO_VALID = true → ∀ k, b.reg k = s.blk.reg k) ∧
      (s.blk.flag (HDR.ERR_INFO (a / 0x10000)) HDR.ERR_INFO_VALID = false →
        b.fld (HDR.ERR_ADDR (a / 0x10000)) HDR.ERR_ADDR_OFFSET = a % 0x10000 / 4 ∧
        b.flag (HDR.ERR_INFO (a / 0x10000)) HDR.ERR_INFO_VALID = true ∧
        b.fld (HDR.ERR_INFO (a / 0x10000)) HDR.ERR_INFO_SOURCE = sourceCode src ∧
        b.flag (HDR.ERR_INFO (a / 0x10000)) HDR.ERR_INFO_WRITE = true ∧
        b.fld (HDR.ERR_INFO (a / 0x10000)) HDR.ERR_INFO_FIELD_LSB = 0xFF ∧
        b.fld (HDR.ERR_INFO (a / 0x10000)) HDR.ERR_INFO_CODE = code) ∧
      s.blk.regsKept b (HDR.ERR_ADDR (a / 0x10000) :: HDR.ERR_INFO (a / 0x10000) :: eventRegs (a / 0x10000)) ∧
      b.mode = s.blk.mode ∧ b.td = s.blk.td ∧ b.tbl = s.blk.tbl ∧ b.nv = s.blk.nv

/-- A four-byte read of an unassigned page that the source reaches answers four bytes of 0, and a write of one stores nothing; either
adds 1 to UNMAPPED_CNT, which saturates, and changes no other register but PCI's interrupt causes. An offset of an assigned page that no
register has reads 0, and a write of it changes no register. -/
def Obligations.UnassignedPageIsCounted : Prop :=
  ∀ (s : State) (src : Source) (a : Nat) (v : Word), a < 2 ^ 26 → a % 4 = 0 → s.blk.fw.mbTrasum = none →
    s.blk.reach src (a / 0x10000) (a % 0x10000) = .answers →
    ((pageRow (a / 0x10000)).isSome = false →
      (∃ b, Machine.exec (.loHiRead (.bar0 src (BitVec.ofNat 26 a) 4)) s = .next { s with blk := b } ∧
        b.out = s.blk.out ++ [.data [0, 0, 0, 0] false] ∧
        (b.reg PCI.UNMAPPED_CNT).toNat = min ((s.blk.reg PCI.UNMAPPED_CNT).toNat + 1) 0xFFFFFFFF ∧
        s.blk.regsKept b [PCI.UNMAPPED_CNT, HDR.INT_RAW 1]) ∧
      ∃ b, Machine.exec (.registerWrite ⟨src, BitVec.ofNat 26 a, wordBytes v⟩) s = .next { s with blk := b } ∧
        b.out = s.blk.out ∧
        (b.reg PCI.UNMAPPED_CNT).toNat = min ((s.blk.reg PCI.UNMAPPED_CNT).toNat + 1) 0xFFFFFFFF ∧
        s.blk.regsKept b [PCI.UNMAPPED_CNT, HDR.INT_RAW 1]) ∧
    ((pageRow (a / 0x10000)).isSome = true → regOf a = none → NMap.find? s.blk.latches (latchKey src a) = none →
      (∃ b, Machine.exec (.loHiRead (.bar0 src (BitVec.ofNat 26 a) 4)) s = .next { s with blk := b } ∧
        b.out = s.blk.out ++ [.data [0, 0, 0, 0] false] ∧ b.regs = s.blk.regs) ∧
      (s.blk.accepts src a → ∃ b, Machine.exec (.registerWrite ⟨src, BitVec.ofNat 26 a, wordBytes v⟩) s = .next { s with blk := b } ∧
        b.regs = s.blk.regs))

/-- LOCK_KEY_WRITE on a page that answers its source: the unlock of that page for that source is armed if and only if the word is
0x0000_C1AD, every other unlock stands as it stood, and nothing else changes. -/
def Obligations.LockKeyArmsUnlock : Prop :=
  ∀ (s : State) (w : RegWrite) (p : BitVec 10), s.blk.reach w.src p.toNat 0x34 = .answers → (pageRow p.toNat).isSome = true →
    ∃ b, Machine.exec (.lockKeyWrite w p) s = .next { s with blk := b } ∧
      b.isArmed p.toNat w.src = decide (w.value = 0xC1AD#32) ∧
      (∀ q src, (q, src) ≠ (p.toNat, w.src) → b.isArmed q src = s.blk.isArmed q src) ∧
      b = { s.blk with armed := b.armed }

/-- INT_FORCE sets, of the causes written, those that the page defines, and no other register changes. ERR_CLR, in a write that leaves
FREEZE as it is and asks no reset, clears ERR_ADDR and ERR_INFO. PAGE_SOFT_RESET_END clears SOFT_RESET and no other field or register. -/
def Obligations.HeaderCommands : Prop :=
  (∀ (s : State) (w : RegWrite) (p : BitVec 10), s.blk.accepts w.src (HDR.INT_FORCE p.toNat) →
    ∃ b, Machine.exec (.intForce w p) s = .next { s with blk := b } ∧
      b.reg (HDR.INT_RAW p.toNat) =
        (s.blk.reg (HDR.INT_RAW p.toNat) ||| w.value) &&& maskOf (HDR.INT_RAW p.toNat) ∧
      s.blk.regsKept b [HDR.INT_RAW p.toNat, HDR.INT_FORCE p.toNat] ∧ s.blk.onlyWrite b) ∧
  (∀ (s : State) (w : RegWrite) (p : BitVec 10), s.blk.accepts w.src (HDR.PAGE_CTL p.toNat) →
    fldGet HDR.PAGE_CTL_SOFT_RESET w.value = 0 →
    fldGet HDR.PAGE_CTL_FREEZE w.value = s.blk.fld (HDR.PAGE_CTL p.toNat) HDR.PAGE_CTL_FREEZE →
    ∃ b, Machine.exec (.errClr w p) s = .next { s with blk := b } ∧
      b.reg (HDR.ERR_ADDR p.toNat) = 0#32 ∧ b.reg (HDR.ERR_INFO p.toNat) = 0#32 ∧
      b.fld (HDR.PAGE_CTL p.toNat) HDR.PAGE_CTL_WR_EN = fldGet HDR.PAGE_CTL_WR_EN w.value ∧
      s.blk.regsKept b [HDR.PAGE_CTL p.toNat, HDR.ERR_ADDR p.toNat, HDR.ERR_INFO p.toNat] ∧ s.blk.onlyWrite b) ∧
  ∀ (s : State) (p : BitVec 10), (pageRow p.toNat).isSome = true →
    ∃ b, Machine.exec (.pageSoftResetEnd p) s = .next { s with blk := b } ∧
      b.flag (HDR.PAGE_CTL p.toNat) HDR.PAGE_CTL_SOFT_RESET = false ∧
      b.flag (HDR.PAGE_CTL p.toNat) HDR.PAGE_CTL_WR_EN = s.blk.flag (HDR.PAGE_CTL p.toNat) HDR.PAGE_CTL_WR_EN ∧
      b.flag (HDR.PAGE_CTL p.toNat) HDR.PAGE_CTL_FREEZE = s.blk.flag (HDR.PAGE_CTL p.toNat) HDR.PAGE_CTL_FREEZE ∧
      s.blk.regsKept b [HDR.PAGE_CTL p.toNat] ∧ s.blk.onlyRegs b

/-- MSIX_SEND sends the vector's message, with the table's address and data, if and only if its summary is 1, it is armed, it and the
function are unmasked, and the core runs or the device is in SPORE; sending disarms that vector alone; no register changes. VEC_ACK
arms the vector that it names, and no other vector's arming changes. -/
def Obligations.VectorSendsAndRearms : Prop :=
  (∀ (s : State) (v : Fin 512) (masked : Bool),
    ∃ b, Machine.exec (.msixSend v masked) s = .next { s with blk := b } ∧ b.regs = s.blk.regs ∧
      ((s.blk.vecSummary v.val && s.blk.vecArmed v.val && !s.blk.vecMasked v.val && !masked
          && (coreOn s.blk.mode.mode || decide (s.blk.mode.mode = .spore))) = true →
        b.out = s.blk.out ++ [.msix v.val ((s.blk.reg (PCI.MSIX_ADDR_HI v.val)).toNat * 2 ^ 32
          + (s.blk.reg (PCI.MSIX_ADDR_LO v.val)).toNat) (s.blk.reg (PCI.MSIX_DATA v.val)).toNat] ∧
        b.vecArmed v.val = false ∧ ∀ u, u ≠ v.val → b.vecArmed u = s.blk.vecArmed u) ∧
      ((s.blk.vecSummary v.val && s.blk.vecArmed v.val && !s.blk.vecMasked v.val && !masked
          && (coreOn s.blk.mode.mode || decide (s.blk.mode.mode = .spore))) = false → b = s.blk)) ∧
  ∀ (s : State) (w : RegWrite), s.blk.accepts w.src PCI.VEC_ACK →
    ∃ b, Machine.exec (.vecAck w) s = .next { s with blk := b } ∧
      b.vecArmed (fldGet PCI.VEC_ACK_VECTOR w.value) = true ∧
      ∀ u, u ≠ fldGet PCI.VEC_ACK_VECTOR w.value → b.vecArmed u = s.blk.vecArmed u

/-- LO_HI_READ of the `_LO` of a pair on pages that answer, with no latched value waiting, answers what it then reads and latches its
`_HI` for that source: whatever the registers hold afterwards, the source's next read of `_HI` answers the value that stood at the first
read, and the latch is spent. -/
def Obligations.LoReadLatchesHi : Prop :=
  ∀ (s : State) (src : Source) (a : Nat), a < 2 ^ 26 → a % 8 = 0 → latched a = [a + 4] →
    s.blk.reach src (a / 0x10000) (a % 0x10000) = .answers → s.blk.reach src ((a + 4) / 0x10000) ((a + 4) % 0x10000) = .answers →
    (pageRow (a / 0x10000)).isSome = true → (pageRow ((a + 4) / 0x10000)).isSome = true →
    s.blk.flag (HDR.PAGE_CTL (a / 0x10000)) HDR.PAGE_CTL_SOFT_RESET = false →
    NMap.find? s.blk.latches (latchKey src a) = none →
    ∃ b, Machine.exec (.loHiRead (.bar0 src (BitVec.ofNat 26 a) 4)) s = .next { s with blk := b } ∧
      b.out = s.blk.out ++ [.data (leBytes 4 (s.blk.regNow src a).toNat) false] ∧
      ∀ regs : NMap Word, ∃ b2,
        Machine.exec (.loHiRead (.bar0 src (BitVec.ofNat 26 (a + 4)) 4)) { s with blk := { b with regs := regs } } =
          .next { s with blk := b2 } ∧
        ({ b with regs := regs }.flag (HDR.PAGE_CTL (a / 0x10000)) HDR.PAGE_CTL_SOFT_RESET = false →
          b2.out = b.out ++ [.data (leBytes 4 (s.blk.regNow src (a + 4)).toNat) false] ∧
          NMap.find? b2.latches (latchKey src (a + 4)) = none)

/-- BRIDGE_CREDIT_RETURN with a credit owed, outside FAULT-HOLD, moves one credit from those owed to those held by the sender of that wire
group and direction, and changes nothing else of the device; with none owed it changes nothing. BRIDGE_CHUNK_ARRIVE into a FIFO of the FD→TD
direction with 4 entries free after it puts the oldest chunk in flight at the FIFO's end, spending and returning no credit; into a full
FIFO the chunk is discarded, CREDIT_VIOL sets, the violation is counted and the drift event fires. -/
def Obligations.BridgeCreditAccount : Prop :=
  (∀ (s : State) (d : Fin 2) (g : Fin 32), s.blk.mode.mode ≠ .faultHold →
    ∃ b, Machine.exec (.bridgeCreditReturn d g) s = .next { s with blk := b } ∧
      ((s.blk.group d.val g.val).owed = 0 → b = s.blk) ∧
      ((s.blk.group d.val g.val).owed ≠ 0 →
        b.group d.val g.val = { s.blk.group d.val g.val with
          owed := (s.blk.group d.val g.val).owed - 1, credits := (s.blk.group d.val g.val).credits + 1 } ∧
        (∀ d' g' : Nat, 32 * d' + g' ≠ 32 * d.val + g.val → b.group d' g' = s.blk.group d' g') ∧
        b = { s.blk with fd := { s.blk.fd with bridge := { s.blk.fd.bridge with groups := b.fd.bridge.groups } } })) ∧
  ∀ (s : State) (g : Fin 32) (flips : List (Nat × Byte)) (c : Chunk) (rest : List Chunk),
    s.blk.mode.mode ≠ .faultHold → (s.blk.group 0 g.val).flight = c :: rest →
    ∃ b, Machine.exec (.bridgeChunkArrive 0 g flips) s = .next { s with blk := b } ∧
      ((s.blk.group 0 g.val).fifo.length < 44 →
        b.group 0 g.val = { s.blk.group 0 g.val with
          flight := rest, fifo := (s.blk.group 0 g.val).fifo ++ [c.flip (flipsNorm 32 flips)], fails := 0 } ∧
        ∀ a, b.reg a = s.blk.reg a) ∧
      (48 ≤ (s.blk.group 0 g.val).fifo.length →
        b.group 0 g.val = { s.blk.group 0 g.val with flight := rest, fails := 0 } ∧
        b.fd.bridge.violCnt = min (s.blk.fd.bridge.violCnt + 1) 0xFFFFFFFF ∧
        b.flag BRG.STS BRG.STS_CREDIT_VIOL = true ∧ b.flag BRG.STS BRG.STS_DRIFT = true ∧
        s.blk.regsKept b [BRG.STS, BRG.CTL])

/-- HALF_WIDTH_SWITCH while a drift event's switch is under way, outside FAULT-HOLD, sets HALF, ends the switch and changes no register
but BRG.STS, the pace status and those of a mode change; with none under way it changes nothing. CHUNK_REPLAY at half width keeps the
chunk in flight and counts the replay; the one after three failures in a row enters FAULT-HOLD. FULL_WIDTH_RETURN ends WIDTH_REQ, and
clears HALF on a pass or sets WIDTH_FAIL and keeps HALF on a failure. FORWARDED_CLOCK_LOCK_LOSS flags the drift event, the first of them
with its group and cause 6, and a switch is then under way if one was, or if AUTO_HALF is set at full width. -/
def Obligations.HalfWidth : Prop :=
  (∀ s : State, coreOn s.blk.mode.mode = true → s.blk.mode.mode ≠ .faultHold →
    ∃ b, Machine.exec .halfWidthSwitch s = .next { s with blk := b } ∧
      (s.blk.fd.bridge.halfDue = true → b.flag BRG.STS BRG.STS_HALF = true ∧ b.fd.bridge.halfDue = false ∧
        s.blk.regsKept b (BRG.STS :: SCH.PACE_STS :: HDR.INT_RAW 0 :: eventRegs 0)) ∧
      (s.blk.fd.bridge.halfDue = false → b = s.blk)) ∧
  (∀ (s : State) (d : Fin 2) (g : Fin 32), s.blk.flag BRG.STS BRG.STS_HALF = true → (s.blk.group d.val g.val).flight ≠ [] →
    bringUpToHold s.blk.mode.mode = true →
    ∃ b, Machine.exec (.chunkReplay d g) s = .next { s with blk := b } ∧
      ((s.blk.group d.val g.val).fails < 3 →
        b.group d.val g.val = { s.blk.group d.val g.val with
          fails := (s.blk.group d.val g.val).fails + 1, replays := min ((s.blk.group d.val g.val).replays + 1) 0xFFFFFFFF } ∧
        ∀ a, b.reg a = s.blk.reg a) ∧
      (3 ≤ (s.blk.group d.val g.val).fails → b.mode.mode = .faultHold ∧ b.mode.cause = 8)) ∧
  (∀ (s : State) (passed : Bool), s.blk.flag BRG.CTL BRG.CTL_WIDTH_REQ = true → s.blk.mode.mode ≠ .faultHold →
    ∃ b, Machine.exec (.fullWidthReturn passed) s = .next { s with blk := b } ∧
      b.flag BRG.CTL BRG.CTL_WIDTH_REQ = false ∧
      b.flag BRG.STS BRG.STS_HALF = (if passed then false else s.blk.flag BRG.STS BRG.STS_HALF) ∧
      b.flag BRG.STS BRG.STS_WIDTH_FAIL = (if passed then s.blk.flag BRG.STS BRG.STS_WIDTH_FAIL else true) ∧
      s.blk.regsKept b (BRG.CTL :: BRG.STS :: SCH.PACE_STS :: HDR.INT_RAW 0 :: eventRegs 0)) ∧
  ∀ (s : State) (g : Fin 32), coreOn s.blk.mode.mode = true → s.blk.mode.mode ≠ .faultHold →
    ∃ b, Machine.exec (.forwardedClockLockLoss g) s = .next { s with blk := b } ∧
      b.flag BRG.STS BRG.STS_DRIFT = true ∧
      (s.blk.flag BRG.STS BRG.STS_DRIFT = false →
        b.fld BRG.STS BRG.STS_FIRST_GROUP = g.val ∧ b.fld BRG.STS BRG.STS_FIRST_CAUSE = 6) ∧
      (s.blk.flag BRG.STS BRG.STS_DRIFT = true →
        b.fld BRG.STS BRG.STS_FIRST_GROUP = s.blk.fld BRG.STS BRG.STS_FIRST_GROUP ∧
        b.fld BRG.STS BRG.STS_FIRST_CAUSE = s.blk.fld BRG.STS BRG.STS_FIRST_CAUSE) ∧
      (b.fd.bridge.halfDue = true ↔ s.blk.fd.bridge.halfDue = true ∨
        s.blk.flag BRG.CTL BRG.CTL_AUTO_HALF = true ∧ s.blk.flag BRG.STS BRG.STS_HALF = false) ∧
      s.blk.regsKept b [BRG.STS, BRG.CTL]

/-- What supplies and pins do. VAUX_IN_VALID marks the supply and when it rose, and nothing else. ISLAND_POWER_ON_RESET, 10 ms after that, takes an
unpowered device to STANDBY from UNPOWERED with LAST_CAUSE 0, its strap sampled and the NV die kept. VAUX_IN_LOSS leaves UNPOWERED with every
register at reset. MAIN_RST_N low takes a powered device to STANDBY with LAST_CAUSE 0x0A and the core blocks lost; its rise in
STANDBY, SPORE's strap high, samples the straps and changes only the mode's state. In STANDBY a loader that fails its check leads to
SPORE with LAST_CAUSE 4. MAIN_RAILS_GOOD outside BOOT marks the rails good and since when, and nothing else; in BOOT, rails not good within 50 ms lead to STANDBY with
LAST_CAUSE 9 and MAIN_EN low, as rails lost do from a running core. The gate's release starts a held start with LAST_CAUSE 0x0B. -/
def Obligations.SuppliesAndPins : Prop :=
  ∀ s : State,
    (∃ b, Machine.exec .vauxInValid s = .next { s with blk := b } ∧ b = { s.blk with mode := { s.blk.mode with
      vaux := true, vauxSince := if s.blk.mode.vaux then s.blk.mode.vauxSince else s.blk.time.elapsed } }) ∧
    (∀ auto : Bool, s.blk.mode.mode = .unpowered → s.blk.mode.vaux = true → s.blk.mode.vauxSince + 10000000 ≤ s.blk.time.elapsed →
      ∃ b, Machine.exec (.islandPowerOnReset auto true) s = .next { s with blk := b } ∧
        b.mode.mode = .standby ∧ b.mode.prev = .unpowered ∧ b.mode.cause = 0 ∧ b.mode.bootAuto = auto ∧ b.nv = s.blk.nv) ∧
    (∀ torn : Torn, ∃ b, Machine.exec (.vauxInLoss torn) s = .next { s with blk := b } ∧
      b.mode.mode = .unpowered ∧ b.mode.prev = s.blk.mode.mode ∧ b.mode.vaux = false ∧ b.regs = [] ∧ b.nv = s.blk.nv.tear torn) ∧
    (s.blk.mode.mode ≠ .unpowered → ∃ b, Machine.exec .mainRstNAssert s = .next { s with blk := b } ∧
      b.mode.mode = .standby ∧ b.mode.prev = s.blk.mode.mode ∧ b.mode.cause = 0x0A ∧ b.mode.mainRstN = false ∧
      b.mode.mainEn = false ∧ b.td = {} ∧ b.fd = {} ∧ b.tbl = {}) ∧
    (∀ auto : Bool, s.blk.mode.mode = .standby → ∃ b, Machine.exec (.mainRstNRelease auto true) s = .next { s with blk := b } ∧
      b.mode.mode = .standby ∧ b.mode.mainRstN = true ∧ b.mode.bootAuto = auto ∧ b.mode.autoStart = true ∧
      b = { s.blk with mode := b.mode }) ∧
    (∀ ok : Bool, s.blk.mode.mode = .standby → s.blk.mode.mainRstN = true → s.blk.nv.checkLoader ok ≠ 0 →
      ∃ b, Machine.exec (.loaderCheckResult ok) s = .next { s with blk := b } ∧
        b.mode.mode = .spore ∧ b.mode.prev = .standby ∧ b.mode.cause = 4 ∧ b.nv = s.blk.nv) ∧
    (s.blk.mode.mode ≠ .boot → s.blk.mode.mainEn = true →
      ∃ b, Machine.exec .mainRailsGood s = .next { s with blk := b } ∧ b = { s.blk with mode := { s.blk.mode with
        railsGood := true, railsSince := if s.blk.mode.railsGood then s.blk.mode.railsSince else s.blk.time.elapsed } }) ∧
    (s.blk.mode.mode = .boot → s.blk.mode.railsGood = false → s.blk.mode.mainEnSince + 50000000 ≤ s.blk.time.elapsed → ∃ b, Machine.exec .mainRailTimeout s = .next { s with blk := b } ∧
      b.mode.mode = .standby ∧ b.mode.prev = .boot ∧ b.mode.cause = 9 ∧ b.mode.mainEn = false ∧ b.nv = s.blk.nv) ∧
    (coreOn s.blk.mode.mode = true → s.blk.mode.mainEn = true → ∃ b, Machine.exec .mainRailLoss s = .next { s with blk := b } ∧
      b.mode.mode = .standby ∧ b.mode.prev = s.blk.mode.mode ∧ b.mode.cause = 9 ∧ b.mode.mainEn = false ∧
      b.mode.railsGood = false) ∧
    (s.blk.mode.mode = .standby → s.blk.mode.inRange = true → s.blk.mode.gated = true → s.blk.mode.mainRstN = true →
      ∃ b, Machine.exec .temperatureGateRelease s = .next { s with blk := b } ∧
        b.mode.mode = .boot ∧ b.mode.cause = 0x0B ∧ b.mode.mainEn = true ∧ b.fw.loaderDue = true ∧ b.nv = s.blk.nv)

/-- A mode request is a write of AUX.MODE_REQ under the page's unlock. One that R41 refuses (busy, mode, source or condition, in that
order) shows its code in RESULT with its source and the next sequence number, and the device is as it was but for that; so it is, with
code 5, for one that an earlier trigger of the same island clock outranks. One that is carried out leads: BOOT from SPORE with a loader
that has passed its check to BOOT with MAIN_EN high, and else to a loader check with RESULT in progress; SPORE, MAIN_OFF,
WARM_RESET, LOW_POWER_HOLD, SORUS_RESTART and FAULT_HOLD to their modes, and QUIESCENT from LOW-POWER HOLD with nothing retained
to QUIESCENT, FORWARDING to a forwarding mode, each from the mode before with the source's LAST_CAUSE (FAULT_HOLD with 8) and RESULT done; QUIESCENT from a forwarding mode
holds the ports with RESULT in progress. -/
def Obligations.ModeRequests : Prop :=
  ∀ (s : State) (w : RegWrite), s.blk.accepts w.src AUX.MODE_REQ → s.blk.isArmed 0x60 w.src = true →
    (∀ (same : Bool) (k : Nat) (c : Instr), (k, c) ∈ [(1, .boot w same), (2, .spore w same), (3, .mainOff w same), (4, .warmReset w same),
        (5, .quiescent w same), (6, .forwarding w same), (7, .lowPowerHold w same), (8, .sorusRestart w same), (9, .faultHold w same)] →
      ∀ r : Nat, (same = true ∧ (∃ n, s.blk.mode.winner = some n ∧ n ≤ reqRank w.src k) ∧ r = 5) ∨
          ((same = false ∨ ∀ n, s.blk.mode.winner = some n → reqRank w.src k < n) ∧ s.blk.refusal w.src k ≠ 0 ∧ r = s.blk.refusal w.src k) →
        ∃ b, Machine.exec c s = .next { s with blk := b } ∧
        b.mode = { s.blk.mode with reqSeq := (s.blk.mode.reqSeq + 1) % 256, reqSrc := w.src, reqResult := r } ∧
        b.nv = s.blk.nv ∧ b.out = s.blk.out ∧ b.td = s.blk.td ∧ s.blk.regsKept b [AUX.MODE_REQ]) ∧
    (s.blk.refusal w.src 1 = 0 → ∃ b, Machine.exec (.boot w false) s = .next { s with blk := b } ∧
      (s.blk.mode.mode = .standby ∨ s.blk.mode.loaderOk ≠ some true → b.mode.mode = s.blk.mode.mode ∧ b.mode.transition = true ∧
        b.mode.reqResult = 1 ∧ b.mode.bootPending = some w.src) ∧
      (s.blk.mode.mode = .spore → s.blk.mode.loaderOk = some true → b.mode.mode = .boot ∧ b.mode.mainEn = true ∧ b.mode.cause = reqCause w.src ∧ b.mode.reqResult = 2)) ∧
    (s.blk.refusal w.src 5 = 0 → ∃ b, Machine.exec (.quiescent w false) s = .next { s with blk := b } ∧
      (forwards s.blk.mode.mode = true → b.mode.mode = s.blk.mode.mode ∧ b.mode.portHold = true ∧ b.mode.transition = true ∧
        b.mode.reqResult = 1) ∧
      (s.blk.mode.mode = .lowPowerHold → s.blk.retained = [] → b.mode.mode = .quiescent ∧ b.mode.prev = .lowPowerHold ∧
        b.mode.reqResult = 2)) ∧
    (s.blk.refusal w.src 6 = 0 → ∃ b, Machine.exec (.forwarding w false) s = .next { s with blk := b } ∧
      forwards b.mode.mode = true ∧ b.mode.prev = .quiescent ∧ b.mode.cause = reqCause w.src ∧ b.mode.reqResult = 2) ∧
    ∀ (k : Nat) (c : Instr) (m : Mode), (k, c, m) ∈ [(2, .spore w false, .spore), (3, .mainOff w false, .standby), (4, .warmReset w false, .bringUp),
        (7, .lowPowerHold w false, .lowPowerHold), (8, .sorusRestart w false, .handover),
        (9, .faultHold w false, .faultHold)] → s.blk.refusal w.src k = 0 →
      ∃ b, Machine.exec c s = .next { s with blk := b } ∧ b.mode.mode = m ∧ b.mode.prev = s.blk.mode.mode ∧
        b.mode.cause = (if k = 9 then 8 else reqCause w.src) ∧ b.mode.reqResult = 2

/-- How the device comes up and what takes it down. FIRMWARE_START in BOOT with the rails good and the selected slot's check passed goes to
BRING-UP with LAST_CAUSE 4, in HANDOVER it runs the selected slot; in BOOT with the check failed and no fall-back it goes to SPORE with
LAST_CAUSE 4. BRING_UP_COMPLETE, once every channel that trains is past step 1, goes to QUIESCENT with LAST_CAUSE 5, and on to HANDOVER for
an image that asked for its own restart. BRING_UP_FAILURE and FATAL_ERROR go to FAULT-HOLD with LAST_CAUSE 8, with
their code in GLB.ERR_INFO unless a fatal error is held, and BOUNDARY_SCAN_ENTRY with LAST_CAUSE 0x0C; outside their modes they change nothing.
DEGRADATION_CHANGE follows R40 with LAST_CAUSE 6, and changes nothing outside the forwarding modes. FIRMWARE_READY ends HANDOVER with LAST_CAUSE
0x0D, HANDOVER_LATE says so on the service port once, 10 s into it, HANDOVER_CORE_RESET stops the image, and WATCHDOG_EXPIRY, WDT_MS after
the last kick, enters HANDOVER with LAST_CAUSE 7. QUIESCENT_PORT_HOLD, 10 ms after its request, enters QUIESCENT with the request's LAST_CAUSE. -/
def Obligations.BringUpFaultsAndHandover : Prop :=
  ∀ s : State,
    (∀ sigA sigB : Bool, s.blk.fw.loaderDue = true → s.blk.nv.boot.trial = false → s.blk.nv.boot.selected ≤ 1 →
      (s.blk.mode.mode = .boot ∨ s.blk.mode.mode = .handover) →
      ∃ b, Machine.exec (.firmwareStart sigA sigB) s = .next { s with blk := b } ∧
        (s.blk.nv.checkSlot s.blk.nv.boot.selected (if s.blk.nv.boot.selected = 0 then sigA else sigB) = 0 →
          b.nv = s.blk.nv ∧
          (s.blk.mode.mode = .handover → b.fld FWM.FW_STS FWM.FW_STS_RUNNING_SLOT = s.blk.nv.boot.selected ∧
            b.fw.loaderDue = false ∧ b.mode = { s.blk.mode with winner := some 10 }) ∧
          (s.blk.mode.mode = .boot → s.blk.mode.railsGood = true → s.blk.mode.scan = false →
            b.mode.mode = .bringUp ∧ b.mode.prev = .boot ∧ b.mode.cause = 4)) ∧
        (s.blk.nv.checkSlot s.blk.nv.boot.selected (if s.blk.nv.boot.selected = 0 then sigA else sigB) ≠ 0 →
          s.blk.nv.boot.fallbackValid = false → s.blk.nv.boot.rejected = false → s.blk.mode.mode = .boot →
          b.mode.mode = .spore ∧ b.mode.prev = .boot ∧ b.mode.cause = 4)) ∧
    (∀ (half : Bool) (faults : List (Nat × Nat)) (tr : Vector D5Train 17), s.blk.mode.mode = .bringUp →
      ∃ b, Machine.exec (.bringUpComplete half faults tr) s = .next { s with blk := b } ∧
        (s.blk.d5Stepped = true → s.blk.fw.restartWanted = false → b.mode.mode = .quiescent ∧ b.mode.prev = .bringUp ∧ b.mode.cause = 5) ∧
        (s.blk.d5Stepped = true → s.blk.fw.restartWanted = true → s.blk.mode.inProgress = none →
          b.mode.mode = .handover ∧ b.mode.prev = .quiescent ∧ b.mode.cause = reqCause .firmware) ∧
        (s.blk.d5Stepped = false → b = s.blk)) ∧
    (∀ kind : Fin 3, ∃ b, Machine.exec (.bringUpFailure kind) s = .next { s with blk := b } ∧
      (s.blk.mode.mode = .bringUp → b.mode.mode = .faultHold ∧ b.mode.prev = .bringUp ∧ b.mode.cause = 8 ∧
        (s.blk.flag (HDR.ERR_INFO 0) HDR.ERR_INFO_VALID = false →
          b.fld (HDR.ERR_INFO 0) HDR.ERR_INFO_CODE = 0x83 + kind.val ∧ b.flag (HDR.ERR_INFO 0) HDR.ERR_INFO_VALID = true)) ∧
      (s.blk.mode.mode ≠ .bringUp → b = s.blk)) ∧
    (∀ code : FatalCode, ∃ b, Machine.exec (.fatalError code) s = .next { s with blk := b } ∧
      (bringUpToHold s.blk.mode.mode = true → b.mode.mode = .faultHold ∧ b.mode.prev = s.blk.mode.mode ∧ b.mode.cause = 8 ∧
        (s.blk.flag (HDR.ERR_INFO 0) HDR.ERR_INFO_VALID = false →
          b.fld (HDR.ERR_INFO 0) HDR.ERR_INFO_CODE = code.code ∧ b.flag (HDR.ERR_INFO 0) HDR.ERR_INFO_VALID = true) ∧
        (s.blk.flag (HDR.ERR_INFO 0) HDR.ERR_INFO_VALID = true → 0x80 ≤ s.blk.fld (HDR.ERR_INFO 0) HDR.ERR_INFO_CODE →
          b.reg (HDR.ERR_INFO 0) = s.blk.reg (HDR.ERR_INFO 0))) ∧
      (bringUpToHold s.blk.mode.mode = false → b = s.blk)) ∧
    (∃ b, Machine.exec .boundaryScanEntry s = .next { s with blk := b } ∧
      (bringUpToHold s.blk.mode.mode = true → b.mode.mode = .faultHold ∧ b.mode.prev = s.blk.mode.mode ∧ b.mode.cause = 0x0C ∧
        b.mode.scan = true) ∧
      (s.blk.mode.mode = .standby → b = s.blk)) ∧
    (∃ b, Machine.exec .degradationChange s = .next { s with blk := b } ∧
      (forwards s.blk.mode.mode = true → b.mode.mode = s.blk.mode40 ∧
        (s.blk.mode40 ≠ s.blk.mode.mode → b.mode.cause = 6 ∧ b.mode.prev = s.blk.mode.mode)) ∧
      (forwards s.blk.mode.mode = false → b = s.blk)) ∧
    (s.blk.fwRuns = true → s.blk.flag FWM.FW_STS FWM.FW_STS_SETTINGS_INCOMPATIBLE = false → s.blk.mode.mode = .handover →
      ∃ b, Machine.exec .firmwareReady s = .next { s with blk := b } ∧ b.mode.prev = .handover ∧ b.mode.cause = 0x0D ∧
        (s.blk.mode.fromQuiescent = true → b.mode.mode = .quiescent) ∧
        (s.blk.mode.fromQuiescent = false → forwards b.mode.mode = true)) ∧
    (∃ b, Machine.exec .handoverLate s = .next { s with blk := b } ∧
      (s.blk.mode.mode = .handover → s.blk.mode.lateTold = false → s.blk.mode.since + 10000000000 ≤ s.blk.time.elapsed →
        b.out = s.blk.out ++ [.handoverLate] ∧ b.mode = { s.blk.mode with lateTold := true }) ∧
      (s.blk.mode.mode ≠ .handover ∨ s.blk.mode.lateTold = true → b = s.blk)) ∧
    (∃ b, Machine.exec .handoverCoreReset s = .next { s with blk := b } ∧
      (s.blk.mode.mode = .handover → s.blk.mbBusy = false → b.mode = s.blk.mode ∧ b.fw.loaderDue = true ∧
        b.fw.restartWanted = false ∧ b.nv = s.blk.nv) ∧
      (s.blk.mode.mode ≠ .handover → b = s.blk)) ∧
    (s.blk.fwRuns = true → s.blk.mode.mode = .quiescent ∨ forwards s.blk.mode.mode = true →
      s.blk.fw.kickedAt + s.blk.fld FWM.WDT FWM.WDT_WDT_MS * 1000000 ≤ s.blk.time.elapsed →
      ∃ b, Machine.exec .watchdogExpiry s = .next { s with blk := b } ∧ b.mode.mode = .handover ∧ b.mode.prev = s.blk.mode.mode ∧
        b.mode.cause = 7) ∧
    ∀ q : ModeReq, s.blk.mode.inProgress = some q → s.blk.mode.portHold = true → forwards s.blk.mode.mode = true →
      s.blk.mode.reqAt + 10000000 ≤ s.blk.time.elapsed →
      ∃ b, Machine.exec .quiescentPortHold s = .next { s with blk := b } ∧ b.mode.mode = .quiescent ∧ b.mode.cause = reqCause q.src

/-- Every command that is a write of a register beyond the header completes on a page that accepts it: each field is stored, and each is seen by
the register's effect, as R8, R9 and R11 make of the number written, a field refused is captured, the page's unlock for that source is
spent, and the device is then what that register's effect makes of it. -/
def Obligations.CommandWritesRunTheirEffect : Prop :=
  ∀ (s : State) (c : Instr) (src : Source) (a : Nat) (v : Word) (r : RegDesc), writeOf c = some (src, a, v) → c.wf = true →
    0x100 ≤ a % 0x10000 → regOf a = some r → s.blk.accepts src a →
    ∃ w : WriteOut,
      (∀ f ∈ r.fields, f.takes (s.blk.reg a) v (s.blk.isArmed (a / 0x10000) src)
        (regBad (s.blk.disarm (a / 0x10000) src) src a (s.blk.reg a) v) (fldGet f.fld w.value)) ∧
      (∀ f ∈ r.fields, f.sees (s.blk.reg a) v (s.blk.isArmed (a / 0x10000) src)
        (regBad (s.blk.disarm (a / 0x10000) src) src a (s.blk.reg a) v) (fldGet f.fld w.took)) ∧
      w.unlocked = s.blk.isArmed (a / 0x10000) src ∧
      Machine.exec c s = .next { s with blk := (effOf src (meetsOf c) a w (s.blk.reg a)
        (((s.blk.disarm (a / 0x10000) src).setReg a w.value).captureFields a src w)).unlatch src a }

/-- RANGE_COMMIT, PAY_COMMIT, FRD_CAL_COMMIT and SCH_CAL_COMMIT on an accepting page set COMMIT and change no other register. At the boundary,
with the frond die running: RANGE_COMMIT_APPLY copies the shadow comparators to the active ones; PAY_COMMIT_APPLY takes the shadow pattern
set if it passes R116, and otherwise sets COMMIT_FAIL with the set unchanged; FRD_CAL_CHECK, and SCH_CAL_CHECK with the slice's calendar at
position 0, copy the shadow calendar if it passes its checks, and otherwise set COMMIT_FAIL with the active calendar unchanged. Each clears
COMMIT; with no commit pending, and SCH_CAL_CHECK at another position, nothing changes. -/
def Obligations.CommitRequests : Prop :=
  (∀ (s : State) (w : RegWrite) (c : Instr) (a : Nat) (f : Fin 16) (k : Fin 8),
    (c, a) ∈ [(.rangeCommit w, PRS.RANGE_CTL), (.payCommit w, PAY.CTL), (.frdCalCommit w f, FRD.CAL_CTL f.val),
      (.schCalCommit w k, SCH.CAL_CTL k.val)] → s.blk.accepts w.src a →
    ∃ b, Machine.exec c s = .next { s with blk := b } ∧ b.flag a ⟨0, 1⟩ = true ∧ s.blk.regsKept b [a] ∧
      s.blk.changesOnly b [.regs, .armed, .latches]) ∧
  (∀ s : State, s.blk.fdLive = true → ∃ b, Machine.exec .rangeCommitApply s = .next { s with blk := b } ∧
    (s.blk.flag PRS.RANGE_CTL PRS.RANGE_CTL_COMMIT = true → b.flag PRS.RANGE_CTL PRS.RANGE_CTL_COMMIT = false ∧
      (∀ i, i < 128 → b.reg (0x200600 + 4 * i) = s.blk.reg (0x200400 + 4 * i) &&& maskOf (0x200600 + 4 * i)) ∧
      ∀ i, i < 128 → b.reg (0x200400 + 4 * i) = s.blk.reg (0x200400 + 4 * i)) ∧
    (s.blk.flag PRS.RANGE_CTL PRS.RANGE_CTL_COMMIT = false → b = s.blk) ∧ s.blk.changesOnly b [.regs]) ∧
  (∀ s : State, s.blk.fdLive = true → ∃ b, Machine.exec .payCommitApply s = .next { s with blk := b } ∧
    (s.blk.flag PAY.CTL PAY.CTL_COMMIT = true → b.flag PAY.CTL PAY.CTL_COMMIT = false ∧
      (s.blk.patsOk s.blk.payShadow = true → b.fld PAY.CTL PAY.CTL_ACTIVE_SET = 1 - s.blk.fld PAY.CTL PAY.CTL_ACTIVE_SET) ∧
      (s.blk.patsOk s.blk.payShadow = false → b.fld PAY.CTL PAY.CTL_ACTIVE_SET = s.blk.fld PAY.CTL PAY.CTL_ACTIVE_SET ∧
        b.flag PAY.CTL PAY.CTL_COMMIT_FAIL = true)) ∧
    (s.blk.flag PAY.CTL PAY.CTL_COMMIT = false → b = s.blk) ∧
    s.blk.regsKept b [PAY.CTL, HDR.INT_RAW 0x21] ∧ s.blk.changesOnly b [.regs]) ∧
  (∀ (s : State) (f : Fin 16), s.blk.fdLive = true → ∃ b, Machine.exec (.frdCalCheck f) s = .next { s with blk := b } ∧
    (s.blk.flag (FRD.CAL_CTL f.val) FRD.CAL_CTL_COMMIT = true → b.flag (FRD.CAL_CTL f.val) FRD.CAL_CTL_COMMIT = false ∧
      (s.blk.frdCalOk f.val (FRD.CAL_SHADOW f.val 0) = true → ∀ i, i < 64 →
        b.reg (FRD.CAL_ACTIVE f.val i) = s.blk.reg (FRD.CAL_SHADOW f.val i) &&& maskOf (FRD.CAL_ACTIVE f.val i)) ∧
      (s.blk.frdCalOk f.val (FRD.CAL_SHADOW f.val 0) = false → b.flag (FRD.CAL_CTL f.val) FRD.CAL_CTL_COMMIT_FAIL = true ∧
        ∀ i, i < 64 → b.reg (FRD.CAL_ACTIVE f.val i) = s.blk.reg (FRD.CAL_ACTIVE f.val i))) ∧
    (s.blk.flag (FRD.CAL_CTL f.val) FRD.CAL_CTL_COMMIT = false → b = s.blk) ∧ s.blk.changesOnly b [.regs, .fd, .td]) ∧
  ∀ (s : State) (k : Fin 8), s.blk.schLive = true → ∃ b, Machine.exec (.schCalCheck k) s = .next { s with blk := b } ∧
    (s.blk.flag (SCH.CAL_CTL k.val) SCH.CAL_CTL_COMMIT = true → NMap.get 0 s.blk.td.sched.calPos k.val = 0 →
      b.flag (SCH.CAL_CTL k.val) SCH.CAL_CTL_COMMIT = false ∧
      (s.blk.schCalOk k.val = true → ∀ i, i < 64 →
        b.reg (SCH.CAL_ACTIVE k.val i) = s.blk.reg (SCH.CAL_SHADOW k.val i) &&& maskOf (SCH.CAL_ACTIVE k.val i)) ∧
      (s.blk.schCalOk k.val = false → b.flag (SCH.CAL_CTL k.val) SCH.CAL_CTL_COMMIT_FAIL = true ∧
        ∀ i, i < 64 → b.reg (SCH.CAL_ACTIVE k.val i) = s.blk.reg (SCH.CAL_ACTIVE k.val i))) ∧
    (s.blk.flag (SCH.CAL_CTL k.val) SCH.CAL_CTL_COMMIT = false ∨ NMap.get 0 s.blk.td.sched.calPos k.val ≠ 0 → b = s.blk) ∧
    s.blk.changesOnly b [.regs, .rings, .host, .lost]

/-- Under the unlock of GLB: PROG_LOAD_START with nothing loading, in a mode that loads, no bank draining and a length makes the load receive
(STATE 1) into its bank with START reading 1, and in another mode refuses it with code 0x0F; PROG_LOAD_ABORT ends a load with STATE 5 and
does nothing without one; PROG_ACTIVATE in QUIESCENT waits with ACTIVATE reading 1, and elsewhere ends with RESULT 5. PROG_ACTIVATE_APPLY does
nothing without a request and clears one, with RESULT 5 outside QUIESCENT and RESULT 2 with no bank verified. IMAGE_VERIFY makes a load
that is complete VERIFIED (STATE 3) if every check of R77 passes, and otherwise REFUSED (STATE 4) with the check's code. DRAIN_WINDOW_CLOSE with
the window run out and packets counted sets EXPIRY_FIRED, and does nothing with no bank draining or before that. -/
def Obligations.ProgramLoads : Prop :=
  (∀ (s : State) (w : RegWrite), s.blk.accepts w.src GLB.PROG_LOAD_CTL → s.blk.isArmed 0 w.src = true →
    fldGet GLB.PROG_LOAD_CTL_START w.value = 0 → fldGet GLB.PROG_LOAD_CTL_ABORT w.value = 0 →
    fldGet GLB.PROG_LOAD_CTL_ACTIVATE w.value = 0 →
    (∃ b, Machine.exec (.progLoadStart w) s = .next { s with blk := b } ∧
      (s.blk.loading = false → progMode s.blk.mode.mode = true → s.blk.bankIn 4 = none →
        s.blk.fld GLB.PROG_LOAD_LEN GLB.PROG_LOAD_LEN_LEN ≠ 0 →
        b.fld GLB.PROG_LOAD_STS GLB.PROG_LOAD_STS_STATE = 1 ∧ b.fld GLB.PROG_LOAD_STS GLB.PROG_LOAD_STS_BANK = s.blk.loadTarget ∧
        b.flag GLB.PROG_LOAD_CTL GLB.PROG_LOAD_CTL_START = true ∧ b.fd.prog.received = []) ∧
      (s.blk.loading = false → progMode s.blk.mode.mode = false →
        b.fld GLB.PROG_LOAD_STS GLB.PROG_LOAD_STS_STATE = 4 ∧ b.fld GLB.PROG_LOAD_STS GLB.PROG_LOAD_STS_REFUSE_CODE = 0x0F ∧
        b.fd = s.blk.fd) ∧
      s.blk.changesOnly b [.regs, .armed, .latches, .fd, .rings, .host, .lost]) ∧
    (∃ b, Machine.exec (.progLoadAbort w) s = .next { s with blk := b } ∧
      (s.blk.loading = true → b.fld GLB.PROG_LOAD_STS GLB.PROG_LOAD_STS_STATE = 5 ∧ b.fd.prog.received = [] ∧
        b.fld GLB.PROG_LOAD_STS GLB.PROG_LOAD_STS_REFUSE_CODE = 0x0F) ∧
      (s.blk.loading = false → b.fd = s.blk.fd ∧ s.blk.regsKept b [GLB.PROG_LOAD_CTL]) ∧
      s.blk.changesOnly b [.regs, .armed, .latches, .fd, .rings, .host, .lost]) ∧
    ∃ b, Machine.exec (.progActivate w) s = .next { s with blk := b } ∧
      (s.blk.mode.mode = .quiescent → b.flag GLB.PROG_LOAD_CTL GLB.PROG_LOAD_CTL_ACTIVATE = true ∧
        s.blk.regsKept b [GLB.PROG_LOAD_CTL]) ∧
      (s.blk.mode.mode ≠ .quiescent → b.flag GLB.PROG_LOAD_CTL GLB.PROG_LOAD_CTL_ACTIVATE = false ∧
        b.fld GLB.PROG_SWAP_STS GLB.PROG_SWAP_STS_RESULT = 5) ∧
      s.blk.changesOnly b [.regs, .armed, .latches, .rings, .host, .lost]) ∧
  (∀ s : State, ∃ b, Machine.exec .progActivateApply s = .next { s with blk := b } ∧
    (s.blk.flag GLB.PROG_LOAD_CTL GLB.PROG_LOAD_CTL_ACTIVATE = false → b = s.blk) ∧
    (s.blk.flag GLB.PROG_LOAD_CTL GLB.PROG_LOAD_CTL_ACTIVATE = true → s.blk.mode.mode ≠ .quiescent →
      b.flag GLB.PROG_LOAD_CTL GLB.PROG_LOAD_CTL_ACTIVATE = false ∧ b.fld GLB.PROG_SWAP_STS GLB.PROG_SWAP_STS_RESULT = 5 ∧
      b.fd = s.blk.fd) ∧
    (s.blk.flag GLB.PROG_LOAD_CTL GLB.PROG_LOAD_CTL_ACTIVATE = true → s.blk.mode.mode = .quiescent → s.blk.bankIn 2 = none →
      b.flag GLB.PROG_LOAD_CTL GLB.PROG_LOAD_CTL_ACTIVATE = false ∧ b.fld GLB.PROG_SWAP_STS GLB.PROG_SWAP_STS_RESULT = 2 ∧
      b.fd = s.blk.fd)) ∧
  (∀ s : State, ∃ b, Machine.exec .imageVerify s = .next { s with blk := b } ∧
    (s.blk.loadState ≠ 2 → b = s.blk) ∧
    (s.blk.loadState = 2 →
      (s.blk.imageChecks (s.blk.bankImage (s.blk.fld GLB.PROG_LOAD_STS GLB.PROG_LOAD_STS_BANK))
          (s.blk.fld GLB.PROG_LOAD_LEN GLB.PROG_LOAD_LEN_LEN) = none → b.fld GLB.PROG_LOAD_STS GLB.PROG_LOAD_STS_STATE = 3) ∧
      (∀ code detail, s.blk.imageChecks (s.blk.bankImage (s.blk.fld GLB.PROG_LOAD_STS GLB.PROG_LOAD_STS_BANK))
          (s.blk.fld GLB.PROG_LOAD_LEN GLB.PROG_LOAD_LEN_LEN) = some (code, detail) →
        b.fld GLB.PROG_LOAD_STS GLB.PROG_LOAD_STS_STATE = 4 ∧
        b.fld GLB.PROG_LOAD_STS GLB.PROG_LOAD_STS_REFUSE_CODE = code % 256)) ∧
    s.blk.changesOnly b [.regs, .rings, .host, .lost]) ∧
  ∀ s : State, ∃ b, Machine.exec .drainWindowClose s = .next { s with blk := b } ∧ (s.blk.bankIn 4 = none ∨ s.blk.fd.prog.drainLeft ≠ 0 → b = s.blk) ∧
    (∀ n, s.blk.bankIn 4 = some n → s.blk.mode.mode ≠ .faultHold → s.blk.fd.prog.drainLeft = 0 → s.blk.drainTotal ≠ 0 →
      b.flag GLB.PROG_DRAIN GLB.PROG_DRAIN_EXPIRY_FIRED = true) ∧
    s.blk.changesOnly b [.regs, .rings, .host, .lost, .fd]

/-- A step on an empty queue lets 1 ns pass (the model's choice, log entry 2). UNPOWERED without VAUX, nothing changes; in every other
mode without the core only the time since power-on counts; with the core on and the next tick boundary more than one domain-45 cycle
away, network time grows by the nanosecond as FREQ_ADJ trims it and by the share of a slew, of which as much less is left, and no
command row's own effect happens: no mode, table, anchor, port, sensor or power state changes. -/
def Obligations.EmptyQueuePassesTime : Prop :=
  ∀ b : Block, ∃ b', Machine.step { blk := b, pending := [] } = .next { blk := b', pending := [] } ∧
    (b.mode.mode = .unpowered → b.mode.vaux = false → b' = b) ∧
    (coreOn b.mode.mode = false → b.mode.mode ≠ .unpowered ∨ b.mode.vaux = true →
      b' = { b with time := { b.time with elapsed := b.time.elapsed + 1 } }) ∧
    (coreOn b.mode.mode = true → 1 < b.cyclesFor b.toBoundary →
      b'.time.elapsed = b.time.elapsed + 1 ∧ b'.time.slewLeft = b.time.slewLeft - slewShare b.time.slewLeft 1 ∧
      b'.time.t = (b.time.t + (10 ^ 12 + b.freqAdj) + slewShare b.time.slewLeft 1).toNat % (2 ^ 48 * 10 ^ 21) ∧
      b.changesOnly b' [.regs, .rings, .host, .lost, .time, .fd, .td, .d5, .cnt, .out])

/-- After reset the device is in STANDBY, entered from UNPOWERED, with no command waiting; network time is 0, no slew is in progress, no
anchor entry waits, no unlock is armed and no event was lost; no packet, table, TCAM row or assembly is held, host memory is empty, and
every register beyond a header's first three words reads the reset value that its description in the register map gives. -/
def Obligations.ResetState : Prop :=
  State.reset.pending = [] ∧ State.reset.blk.mode.mode = .standby ∧ State.reset.blk.mode.prev = .unpowered ∧
  State.reset.blk.time.t = 0 ∧ State.reset.blk.time.slewLeft = 0 ∧ State.reset.blk.anchors = [] ∧ State.reset.blk.armed = [] ∧
  State.reset.blk.lost = false ∧ State.reset.blk.out = [] ∧
  (∀ p : Nat, State.reset.blk.staged p = []) ∧ (∀ k : Nat, (State.reset.blk.frond k).parser = [] ∧ (State.reset.blk.frond k).pinnae = []) ∧
  ∀ a r, 0xC ≤ a % 0x10000 → regOf a = some r → State.reset.blk.reg a = r.resetWord

/-- FRAME_RECEIVE does nothing for an object that is not enabled or with the line's receive side not running, and otherwise appends a frame
that fits its port's staging share and MTU, not yet ready, to what its port has staged. PACKET_READY makes the oldest packet that is not ready
ready and leaves the others. FROND_ADMISSION counts a cycle of the frond; with no bank ACTIVE it counts a bubble and no packet enters a
parser, and a ready packet of the calendar's first owner, outside the swap gap, leaves its staging and enters the parser with the stamp of the
ACTIVE bank. PARSER_EXIT moves the oldest packet of the parser into the pinnae, with the containers of its frond entry; HAND_OFF takes the
oldest pass out of the pinnae; RECIRC_STORE moves the oldest packet of the path into a FIFO with room, or drops and counts it. In FAULT-HOLD
the last four do nothing. -/
def Obligations.PacketsMoveThroughTheFrond : Prop :=
  (∀ (s : State) (o : LineObj) (bytes : List Byte) (ok : Bool) (fec : FecSeen),
    ∃ b, Machine.exec (.frameReceive o bytes ok fec) s = .next { s with blk := b } ∧
      (s.blk.lineLive = false ∨ s.blk.objEn o.norm = false → b = s.blk) ∧
      (∀ p, s.blk.lineLive = true → s.blk.objEn o.norm = true → s.blk.isUp o.norm = true → s.blk.lportOf o.norm = some p →
        (∃ g c, o.norm = .client g c) ∨ (∃ c, o.norm = .otn c) → s.blk.portAdmits p = true → s.blk.flag BRG.STS BRG.STS_HALF = false →
        bytes.length + 4 ≤ s.blk.fld (PRS.STAGE p) PRS.STAGE_MTU →
        bytes.length + 4 ≤ 4096 * s.blk.fld (PRS.STAGE p) PRS.STAGE_SHARE - s.blk.stageOcc p →
        (∃ k : Pkt, k.bytes = bytes ∧ k.fcsOk = (ok && decide (fec.uncorrCw = 0)) ∧ k.lport = p ∧
          b.staged p = s.blk.staged p ++ [⟨k, false⟩]) ∧
        ∀ q, q ≠ p → b.staged q = s.blk.staged q) ∧
      s.blk.changesOnly b [.regs, .rings, .host, .lost, .fd, .td, .line, .cnt, .out]) ∧
  (∀ (s : State) (p : Fin 256), ∃ b, Machine.exec (.packetReady p) s = .next { s with blk := b } ∧
    (s.blk.fdLive = false → b = s.blk) ∧
    (∀ (pre post : List Staged) (k : Pkt), s.blk.fdLive = true → s.blk.staged p.val = pre ++ ⟨k, false⟩ :: post →
      (∀ x ∈ pre, x.ready = true) → b.staged p.val = pre ++ ⟨k, true⟩ :: post) ∧
    (∀ q, q ≠ p.val → b.staged q = s.blk.staged q) ∧ s.blk.changesOnly b [.fd]) ∧
  (∀ (s : State) (f : Fin 16) (seen : AdmitSeen),
    ∃ b, Machine.exec (.frondAdmission f seen) s = .next { s with blk := b } ∧
    (s.blk.mode.mode = .faultHold → b = s.blk) ∧
    (s.blk.mode.mode ≠ .faultHold → (b.frond f.val).cycle = (s.blk.frond f.val).cycle + 1) ∧
    (s.blk.mode.mode ≠ .faultHold → s.blk.bankIn 3 = none → (∀ g, (b.frond g).parser = (s.blk.frond g).parser) ∧
      b.cnt48 (FRD.BUBBLES_LO f.val) = (s.blk.cnt48 (FRD.BUBBLES_LO f.val) + 1) % 2 ^ 48) ∧
    (∀ act x rest, f.val < 8 → s.blk.bankIn 3 = some act → s.blk.frondsRun = true → s.blk.groupState (20 + f.val) = 0 →
      (s.blk.frond f.val).cycle % 128 ≠ 0 ∨ s.blk.flag (FRD.CAL_CTL f.val) FRD.CAL_CTL_COMMIT = false →
      (s.blk.calEntry (FRD.CAL_ACTIVE f.val 0) ((s.blk.frond f.val).cycle % 128)).1 < 0x20 →
      s.blk.staged (32 * f.val + (s.blk.calEntry (FRD.CAL_ACTIVE f.val 0) ((s.blk.frond f.val).cycle % 128)).1) = x :: rest →
      x.ready = true → x.pkt.egress = false → s.blk.inGap f.val { x.pkt with stamped := true, bank := act } = false →
      b.staged (32 * f.val + (s.blk.calEntry (FRD.CAL_ACTIVE f.val 0) ((s.blk.frond f.val).cycle % 128)).1) = rest ∧
      ∃ q : Pass, (b.frond f.val).parser = (s.blk.frond f.val).parser ++ [q] ∧ q.pkt.bytes = x.pkt.bytes ∧ q.pkt.bank = act ∧
        q.pkt.stamped = true ∧ q.pkt.epoch = s.blk.fd.prog.epoch ∧ (q.kind = .runs ↔ x.pkt.fcsOk = true)) ∧
    s.blk.changesOnly b [.regs, .rings, .host, .lost, .fw, .fd, .td, .line, .tbl, .tcam, .cnt, .told, .out]) ∧
  (∀ (s : State) (f : Fin 16), ∃ b, Machine.exec (.parserExit f) s = .next { s with blk := b } ∧
    (s.blk.mode.mode = .faultHold ∨ (s.blk.frond f.val).parser = [] → b = s.blk) ∧
    (∀ p rest, s.blk.mode.mode ≠ .faultHold → (s.blk.frond f.val).parser = p :: rest →
      (b.frond f.val).parser = rest ∧
      ∃ k : PassKind, (b.frond f.val).pinnae = (s.blk.frond f.val).pinnae ++
        [{ p with kind := k, since := (s.blk.frond f.val).cycle, phv := phvEntry f.val p }] ∧ (p.kind ≠ .runs → k = p.kind)) ∧
    s.blk.changesOnly b [.regs, .fd]) ∧
  (∀ (s : State) (f : Fin 16) (wire : Fin 4) (cells : List Seen) (acc : AccSeen),
    ∃ b, Machine.exec (.handOff f wire cells acc) s = .next { s with blk := b } ∧
      (s.blk.mode.mode = .faultHold ∨ (s.blk.frond f.val).pinnae = [] → b = s.blk) ∧
      (∀ p rest, s.blk.mode.mode ≠ .faultHold → (s.blk.frond f.val).pinnae = p :: rest →
        (b.frond f.val).pinnae = rest ∧ (b.frond f.val).parser = (s.blk.frond f.val).parser) ∧
      s.blk.changesOnly b [.regs, .rings, .host, .lost, .fw, .fd, .line, .tbl, .tcam, .cnt, .told, .out]) ∧
  ∀ (s : State) (k : Fin 8), ∃ b, Machine.exec (.recircStore k) s = .next { s with blk := b } ∧
    (s.blk.mode.mode = .faultHold ∨ (s.blk.recirc k.val).path = [] → b = s.blk) ∧
    (∀ p rest, s.blk.mode.mode ≠ .faultHold → (s.blk.recirc k.val).path = p :: rest →
      ((s.blk.recirc k.val).fifo.length < 64 →
        ((s.blk.recirc k.val).fifo.foldl (fun n q => n + q.bytes.length) 0) + p.bytes.length ≤ 0x40000 →
        (b.recirc k.val).path = rest ∧
        (b.recirc k.val).fifo = (s.blk.recirc k.val).fifo ++ [{ p with rinds := arrivalRinds p.lport p.bytes }]) ∧
      (64 ≤ (s.blk.recirc k.val).fifo.length → (b.recirc k.val).path = rest ∧ (b.recirc k.val).fifo = (s.blk.recirc k.val).fifo ∧
        b.cnt48 (FRD.RECIRC_FULL_LO k.val) = (s.blk.cnt48 (FRD.RECIRC_FULL_LO k.val) + 1) % 2 ^ 48)) ∧
    s.blk.changesOnly b [.regs, .rings, .host, .lost, .fd]

/-- Each of the five rows that carry out an anchor entry does nothing in FAULT-HOLD or where the pending entry that executes next, in the
order of stamp, type and posting (shaper commits by themselves, on the TD), is not of its type. Otherwise it lets network time reach the time
at which that entry comes due; where time gets there without a tick boundary between, that entry leaves the queue, the others stay, and
EXECUTED counts one; where it does not, the queue and EXECUTED are as they were. A PROGRAM_SWAP to a VERIFIED bank that holds the IMAGE_ID,
with no bank DRAINING, in a mode that swaps, makes that bank ACTIVE if its re-check passes and REFUSED if not; a COUNTER_SNAPSHOT with none
building or exporting opens a new window and shows BUILDING with its operand's ID. -/
def Obligations.AnchorEntriesComeDue : Prop :=
  ∀ c ∈ [(Instr.programSwap, 1), (.tcamCommit, 2), (.shaperCommit, 3), (.counterSnapshot, 4), (.marker, 5)], ∀ s : State,
    ∃ b, Machine.exec c.1 s = .next { s with blk := b } ∧
      (s.blk.mode.mode = .faultHold ∨ s.blk.ancDue c.2 = none → b = s.blk) ∧
      (∀ e, s.blk.mode.mode ≠ .faultHold → s.blk.ancDue c.2 = some e →
        ((s.blk.reachStamp (s.blk.dueAt c.2 e.stamp)).time.t < s.blk.dueAt c.2 e.stamp →
          b.anchors = s.blk.anchors ∧ b.cnt48 ANC.EXECUTED_LO = s.blk.cnt48 ANC.EXECUTED_LO) ∧
        (s.blk.dueAt c.2 e.stamp ≤ (s.blk.reachStamp (s.blk.dueAt c.2 e.stamp)).time.t →
          b.anchors = s.blk.anchors.filter (fun x => x.tag ≠ e.tag) ∧
          b.cnt48 ANC.EXECUTED_LO = (s.blk.cnt48 ANC.EXECUTED_LO + 1) % 2 ^ 48 ∧
          (∀ n, c.1 = .programSwap → n < 2 → s.blk.bankOfId e.operand = some n → s.blk.bankState n = 2 → s.blk.bankIn 4 = none →
            progMode s.blk.mode.mode = true → b.bankState n = if (s.blk.recheckFails n).isSome then 6 else 3) ∧
          (c.1 = .counterSnapshot → s.blk.fld CNT.SNAP_STS CNT.SNAP_STS_STATE ≠ 1 → s.blk.fld CNT.SNAP_STS CNT.SNAP_STS_STATE ≠ 2 →
            b.cnt.window = !s.blk.cnt.window ∧ b.fld CNT.SNAP_STS CNT.SNAP_STS_STATE = 1 ∧
            b.fld CNT.SNAP_STS CNT.SNAP_STS_ID = e.operand % 2 ^ 16))) ∧
      s.blk.changesOnly b [.regs, .rings, .host, .lost, .time, .anchors, .fd, .td, .tcam, .d5, .cnt, .draws, .out]

/-- PROGRAM_BLOCK and FIRMWARE_BLOCK each take the descriptor at HEAD of their ring, if the ring runs, holds one, is alive in the mode and has
no descriptor of records in progress; if not, nothing changes. A descriptor of the row's own type is taken: HEAD moves one on around the ring,
the ring holds one fewer, and its OWN byte in host memory reads 0. One of a type that the ring does not accept goes back with STATUS 1
(BAD_TYPE), and one of another accepted type waits. TABLE_OP and TCAM_OP, with the frond die taking commands, begin the descriptor of their type
at HEAD if none is in progress: one whose COUNT is 0 or above 65,536, whose buffer is not 64-byte aligned or too short goes back with STATUS 2.
Of one in progress they execute the next record: one with more records left goes on at the record after it, and one with no more goes
back. They wait while one of another type is in progress. INJECT_FETCH changes nothing with no inject ring
running. -/
def Obligations.DescriptorsTakenAtHead : Prop :=
  (∀ c ∈ [(Instr.programBlock, 67, 8), (.firmwareBlock, 68, 9)], ∀ s : State,
    ∃ b, Machine.exec c.1 s = .next { s with blk := b } ∧
      (s.blk.ringRuns c.2.1 = false ∨ s.blk.ringFree c.2.1 = 0 ∨ ringAlive s.blk.mode.mode c.2.1 = false ∨
        (s.blk.ring c.2.1).job ≠ none → b = s.blk) ∧
      (∀ d, s.blk.ringRuns c.2.1 = true → 0 < s.blk.ringFree c.2.1 → ringAlive s.blk.mode.mode c.2.1 = true →
        (s.blk.ring c.2.1).job = none → s.blk.ringSize c.2.1 ≤ 2 ^ 16 → s.blk.fetchHead c.2.1 = .ok d →
        (leAt d 12 1 = c.2.2 ∨ (leAt d 12 1 ∉ [6, 7, 8] ∧ leAt d 12 1 ≠ c.2.2) →
          b.fld (PCI.RING_HEAD c.2.1) PCI.RING_HEAD_HEAD =
            (s.blk.fld (PCI.RING_HEAD c.2.1) PCI.RING_HEAD_HEAD + 1) % s.blk.ringSize c.2.1 ∧
          (b.ring c.2.1).owned = (s.blk.ring c.2.1).owned - 1 ∧
          ((s.blk.ring c.2.1).taken = 0 →
            Memory.read b.host.mem (s.blk.descAddr c.2.1 (s.blk.fld (PCI.RING_HEAD c.2.1) PCI.RING_HEAD_HEAD) + 15) = 0#8)) ∧
        (leAt d 12 1 ∉ [6, 7, 8] → leAt d 12 1 ≠ c.2.2 → (s.blk.ring c.2.1).taken = 0 →
          Memory.read b.host.mem (s.blk.descAddr c.2.1 (s.blk.fld (PCI.RING_HEAD c.2.1) PCI.RING_HEAD_HEAD) + 14) = 1#8) ∧
        (c.2.1 = 67 → leAt d 12 1 ∈ [6, 7, 8] → leAt d 12 1 ≠ c.2.2 → b = s.blk)) ∧
      s.blk.changesOnly b [.regs, .rings, .host, .lost, .nv, .fw, .fd]) ∧
  (∀ s : State, ∀ c ∈ [(Instr.tableOp, 6, 64), (.tcamOp, 7, 256)],
    ∃ b, Machine.exec c.1 s = .next { s with blk := b } ∧
      (s.blk.fdLive = false → b = s.blk) ∧
      ((s.blk.ring 67).job = none →
        (s.blk.ringRuns 67 = false ∨ s.blk.ringFree 67 = 0 ∨ ringAlive s.blk.mode.mode 67 = false → b = s.blk) ∧
        ∀ d, s.blk.fdLive = true → s.blk.ringRuns 67 = true → 0 < s.blk.ringFree 67 → ringAlive s.blk.mode.mode 67 = true →
          s.blk.ringSize 67 ≤ 2 ^ 16 → s.blk.fetchHead 67 = .ok d → leAt d 12 1 = c.2.1 →
          b.fld (PCI.RING_HEAD 67) PCI.RING_HEAD_HEAD = (s.blk.fld (PCI.RING_HEAD 67) PCI.RING_HEAD_HEAD + 1) % s.blk.ringSize 67 ∧
          ((leAt d 16 4 = 0 ∨ 65536 < leAt d 16 4 ∨ leAt d 0 8 % 64 ≠ 0 ∨ leAt d 8 3 < c.2.2 * leAt d 16 4) →
            (s.blk.ring 67).taken = 0 → (b.ring 67).job = none ∧ (b.ring 67).owned = (s.blk.ring 67).owned - 1 ∧
            Memory.read b.host.mem (s.blk.descAddr 67 (s.blk.fld (PCI.RING_HEAD 67) PCI.RING_HEAD_HEAD) + 14) = 2#8)) ∧
      (∀ j, (s.blk.ring 67).job = some j → j.type ≠ c.2.1 → b = s.blk) ∧
      (∀ j, s.blk.fdLive = true → (s.blk.ring 67).job = some j → j.type = c.2.1 →
        (1 < j.left → j.stop = false → ∃ j', (b.ring 67).job = some j' ∧ j'.left = j.left - 1 ∧
          j'.next = j.next + c.2.2 ∧ j'.done = j.done + 1) ∧
        (j.left ≤ 1 → s.blk.flag (PCI.RING_CFG 67) PCI.RING_CFG_ENABLE = true →
          (b.ring 67).job = none ∧ (b.ring 67).owned = (s.blk.ring 67).owned - 1)) ∧
      s.blk.changesOnly b [.regs, .rings, .host, .lost, .tbl, .tcam, .d5, .cnt, .draws]) ∧
  ∀ s : State, ∃ b, Machine.exec .injectFetch s = .next { s with blk := b } ∧
    ((∀ r, 32 ≤ r → r < 64 → s.blk.ringRuns r = false) → b = s.blk) ∧
    s.blk.changesOnly b [.regs, .rings, .host, .lost, .fd]

/-- PART_COMMIT_APPLY ends a finished zeroing: COMMIT reads 0 again. EM_MOVE_ZERO with no move in progress and no register operation waiting
for one changes nothing, and leaves fewer writes of a move otherwise. FREED_WORDS_RETURN leaves no replaced word waiting that was replaced two ticks
ago or more. LEARN_APPLY takes the oldest request from the learning FIFO, and for a table in MODE 1 numbers a notice. AGING_PASS does nothing unless its table ages at this
tick and has not yet, and otherwise only adds entries to those to be removed. AGING_REMOVAL takes the oldest of these. SHADOW_WALK takes the
next block of the walk, counts one that spans a change as deferred, and lists one whose digest differs from EXPECTED for a second reading; a walk
that is through begins again once WALK.TICKS ticks have fired since it began. SHADOW_REREAD takes the oldest of the list. Out of the frond die's
modes, or with nothing to do, each changes nothing. -/
def Obligations.TableEnginesWork : Prop :=
  (∀ s : State, ∃ b, Machine.exec .partCommitApply s = .next { s with blk := b } ∧
    (s.blk.fdLive = false ∨ s.blk.tbl.zeroed = none → b = s.blk) ∧
    (∀ m, s.blk.fdLive = true → s.blk.tbl.zeroed = some m → b.tbl.zeroed = none ∧ b.fld LKP.PART_CTL LKP.PART_CTL_COMMIT = 0 ∧
      ∀ i, i < 12 → b.reg (LKP.PART_ACTIVE_0 0 + 4 * i) = m.getD i 0#32 &&& maskOf (LKP.PART_ACTIVE_0 0 + 4 * i)) ∧
    s.blk.changesOnly b [.regs, .rings, .host, .lost, .tbl]) ∧
  (∀ s : State, ∃ b, Machine.exec .emMoveZero s = .next { s with blk := b } ∧
    (s.blk.fdLive = false → b = s.blk) ∧ (s.blk.tbl.moving = [] → s.blk.tbl.movingReg = false → b = s.blk) ∧
    (s.blk.fdLive = true → s.blk.tbl.moving ≠ [] → b.tbl.moving.length < s.blk.tbl.moving.length) ∧
    s.blk.changesOnly b [.regs, .rings, .host, .lost, .tbl, .d5, .cnt, .draws]) ∧
  (∀ s : State, ∃ b, Machine.exec .freedWordsReturn s = .next { s with blk := b } ∧
    (∀ k g, g ∈ (NMap.get {} b.tbl.lpm k).grace → s.blk.ticks < g.at_ + 2) ∧
    (∀ k g, g ∈ (NMap.get {} s.blk.tbl.lpm k).grace → s.blk.ticks < g.at_ + 2 → g ∈ (NMap.get {} b.tbl.lpm k).grace) ∧
    s.blk.changesOnly b [.tbl]) ∧
  (∀ s : State, ∃ b, Machine.exec .learnApply s = .next { s with blk := b } ∧
    (s.blk.fdLive = false ∨ s.blk.tbl.fifo = [] → b = s.blk) ∧
    (∀ q rest, s.blk.fdLive = true → s.blk.tbl.fifo = q :: rest → b.tbl.fifo = rest ∧
      (s.blk.fld (LRN.TBL_CFG q.table) LRN.TBL_CFG_MODE = 1 → s.blk.tbl.moving = [] → s.blk.tbl.movingReg = false →
        b.reg LRN.NOTICE_SEQ = s.blk.reg LRN.NOTICE_SEQ + 1#32)) ∧
    s.blk.changesOnly b [.regs, .rings, .host, .lost, .csc, .tbl, .d5, .cnt, .told, .draws, .out]) ∧
  (∀ (s : State) (n : Fin 8), ∃ b, Machine.exec (.agingPass n) s = .next { s with blk := b } ∧
    (s.blk.fdLive = false ∨ s.blk.flag (LRN.TBL_AGE n.val) LRN.TBL_AGE_ENABLE = false ∨
      s.blk.fld (LRN.TBL_AGE n.val) LRN.TBL_AGE_AGE_TICKS = 0 ∨ NMap.get 0 s.blk.tbl.agedAt n.val = s.blk.ticks ∨
      s.blk.ticks % s.blk.fld (LRN.TBL_AGE n.val) LRN.TBL_AGE_AGE_TICKS ≠ 0 → b = s.blk) ∧
    s.blk.tbl.aging <+: b.tbl.aging ∧ b.tbl.fifo = s.blk.tbl.fifo ∧ s.blk.changesOnly b [.tbl]) ∧
  (∀ (s : State) (hit : Bool), ∃ b, Machine.exec (.agingRemoval hit) s = .next { s with blk := b } ∧
    (s.blk.fdLive = false ∨ s.blk.tbl.aging = [] → b = s.blk) ∧
    (∀ x rest, s.blk.fdLive = true → s.blk.tbl.aging = x :: rest → b.tbl.aging = rest) ∧
    s.blk.changesOnly b [.regs, .rings, .host, .lost, .csc, .tbl, .d5, .cnt, .draws, .out]) ∧
  (∀ (s : State) (w1 w2 w3 w4 : WalkAt) (us : Upsets),
    ∃ b, Machine.exec (.shadowWalk w1 w2 w3 w4 us) s = .next { s with blk := b } ∧
      (s.blk.fdLive = false ∨ s.blk.flag SHD.CTL SHD.CTL_ENABLE = false → b = s.blk) ∧
      (s.blk.walkBlocks.length ≤ s.blk.tbl.walkPos → s.blk.ticks < s.blk.tbl.walkFrom + s.blk.fld SHD.WALK SHD.WALK_TICKS → b = s.blk) ∧
      (∀ m c k x y, s.blk.fdLive = true → s.blk.flag SHD.CTL SHD.CTL_ENABLE = true →
        s.blk.walkBlocks[s.blk.walkDue.tbl.walkPos]? = some (m, c, k) →
        x = s.blk.walkDue.withTbl { s.blk.walkDue.tbl with walkPos := s.blk.walkDue.tbl.walkPos + 1 } →
        y = (x.upset (x.shdTable m) c k (upsetsNorm us)).digests m c k →
        b.tbl.walkPos = s.blk.walkDue.tbl.walkPos + 1 ∧
        (w1 = .spans ∧ w2 = .spans ∧ w3 = .spans ∧ w4 = .spans → b.cnt48 SHD.DEFERRED_CNT_LO = (s.blk.cnt48 SHD.DEFERRED_CNT_LO + 1) % 2 ^ 48 ∧
          b.tbl.reread = s.blk.tbl.reread) ∧
        (¬(w1 = .spans ∧ w2 = .spans ∧ w3 = .spans ∧ w4 = .spans) → b.tbl.reread =
          if y.1.shdDigest m c k = y.2.1 then s.blk.tbl.reread else s.blk.tbl.reread ++ [(m, c, k)])) ∧
      s.blk.changesOnly b [.regs, .rings, .host, .lost, .tbl, .d5, .cnt, .draws]) ∧
  ∀ (s : State) (us : Upsets),
    ∃ b, Machine.exec (.shadowReread us) s = .next { s with blk := b } ∧ (s.blk.tbl.reread = [] → b = s.blk) ∧
      (∀ x rest, s.blk.tbl.reread = x :: rest → b.tbl.reread = rest) ∧
      s.blk.changesOnly b [.regs, .rings, .host, .lost, .tbl, .d5, .cnt, .draws]

/-- COMMIT_CLEANUP_END clears the commit flags of the named groups that stand in cleanup and of no other, and changes nothing where none does.
TCAM_SCRUB_PASS with SCRUB_EN 0, or before SCRUB.TICKS ticks have fired since the last pass, changes nothing, and a pass that finds no differing
row changes nothing but when it was; a row found to differ softly, with a good stored copy, counts one in SCRUB_FIX_CNT. TCAM_ROW_SCRUB takes
the oldest queued row, and changes nothing with none queued. -/
def Obligations.TcamUpkeep : Prop :=
  (∀ (s : State) (mask : BitVec 16), ∃ b, Machine.exec (.commitCleanupEnd mask) s = .next { s with blk := b } ∧
    (s.blk.fdLive = false ∨ mask.toNat &&& s.blk.tcam.flags = 0 → b = s.blk) ∧
    (s.blk.fdLive = true → ∀ c, c < 16 → bitAt b.tcam.flags c = (bitAt s.blk.tcam.flags c && !bitAt mask.toNat c)) ∧
    s.blk.changesOnly b [.regs, .rings, .host, .lost, .tcam, .cnt]) ∧
  (∀ (s : State) (found : List (Nat × Nat × ScrubSeen)),
    ∃ b, Machine.exec (.tcamScrubPass found) s = .next { s with blk := b } ∧
      (s.blk.fdLive = false ∨ s.blk.flag TCM.CTL TCM.CTL_SCRUB_EN = false ∨
        s.blk.ticks < s.blk.tcam.scrubFrom + s.blk.fld TCM.SCRUB TCM.SCRUB_TICKS → b = s.blk) ∧
      (s.blk.fdLive = true → s.blk.flag TCM.CTL TCM.CTL_SCRUB_EN = true →
        s.blk.tcam.scrubFrom + s.blk.fld TCM.SCRUB TCM.SCRUB_TICKS ≤ s.blk.ticks →
        (found = [] → b = s.blk.withTcam { s.blk.tcam with scrubFrom := s.blk.ticks }) ∧
        (∀ k r, found = [(k, r, .soft)] → k < 40 → r < 8192 →
          s.blk.badBank (s.blk.groupOf k).2 (s.blk.groupOf k).1 r [] = none → s.blk.rowUsable (s.blk.groupOf k).2 (s.blk.groupOf k).1 r = true →
          b.cnt48 TCM.SCRUB_FIX_CNT_LO = (s.blk.cnt48 TCM.SCRUB_FIX_CNT_LO + 1) % 2 ^ 48 ∧
          b.tcam = { s.blk.tcam with scrubFrom := s.blk.ticks })) ∧
      s.blk.changesOnly b [.regs, .rings, .host, .lost, .tcam, .cnt]) ∧
  ∀ (s : State) (seen : ScrubSeen), ∃ b, Machine.exec (.tcamRowScrub seen) s = .next { s with blk := b } ∧
    (s.blk.fdLive = false ∨ s.blk.tcam.scrubQ = [] → b = s.blk) ∧
    (∀ a rest, s.blk.fdLive = true → s.blk.tcam.scrubQ = a :: rest → b.tcam.scrubQ = rest) ∧
    s.blk.changesOnly b [.regs, .rings, .host, .lost, .tcam, .cnt]

/-- In FAULT-HOLD none of these rows changes anything. CELL_ARRIVAL takes the whole cell at the head of its wire group's crossing FIFO, whose
chunks are then owed as credits, or the oldest cell its re-sequencer delivered; without one it changes nothing, and a cell that continues no
open packet changes no queue. SPILL_WRITE moves the 8 oldest tail cells of a queue that must spill into a block being written and makes it
SPILLING; where the write budget has no room for it or an older request waits, the queue joins those that wait for the budget.
SPILL_WRITE_COMPLETE counts the oldest block as spilled and lets it rest in the peat. PREFETCH_REQUEST asks for the oldest block resting, or for
one still being written, or joins those that wait for the read budget. PREFETCH_READ_COMPLETE counts a block that was being read as fetched and
takes it out of those being fetched. -/
def Obligations.QueueStorageMovesCells : Prop :=
  (∀ (s : State) (st : Fin 16416) (seen : Seen),
    ∃ b, Machine.exec (.cellArrival st seen) s = .next { s with blk := b } ∧ (s.blk.mode.mode = .faultHold → b = s.blk) ∧
      (st.val < 32 → s.blk.mode.mode ≠ .faultHold →
        (wholeCell (s.blk.group 0 st.val).fifo = none → b = s.blk) ∧
        (∀ c n, wholeCell (s.blk.group 0 st.val).fifo = some (c, n) →
          (b.group 0 st.val).fifo = (s.blk.group 0 st.val).fifo.drop n ∧
          (b.group 0 st.val).owed = (s.blk.group 0 st.val).owed + n ∧
          (c.sop = false → s.blk.assembly st.val = none → ∀ q, b.queue q = s.blk.queue q))) ∧
      (32 ≤ st.val → s.blk.mode.mode ≠ .faultHold →
        ((s.blk.reseq (st.val - 32)).delivered = [] → b = s.blk) ∧
        (∀ f rest, (s.blk.reseq (st.val - 32)).delivered = f :: rest → (b.reseq (st.val - 32)).delivered = rest)) ∧
      s.blk.changesOnly b [.regs, .rings, .host, .lost, .fd, .td, .cnt, .told]) ∧
  (∀ (s : State) (q : BitVec 20) (seens : List Seen),
    ∃ b, Machine.exec (.spillWrite q seens) s = .next { s with blk := b } ∧
      (s.blk.mode.mode = .faultHold ∨ s.blk.mustSpill q.toNat = false → b = s.blk) ∧
      (s.blk.mode.mode ≠ .faultHold → s.blk.mustSpill q.toNat = true →
        (s.blk.budgetTurn s.blk.effWrite s.blk.td.store.writeFrom s.blk.writeWaits q.toNat = false →
          q.toNat ∈ b.td.store.writeWait ∧ b.queue q.toNat = s.blk.queue q.toNat) ∧
        (s.blk.budgetTurn s.blk.effWrite s.blk.td.store.writeFrom s.blk.writeWaits q.toNat = true →
          s.blk.nextBlock (s.blk.queue q.toNat).lastChan = none → b.queue q.toNat = s.blk.queue q.toNat) ∧
        (∀ n, s.blk.budgetTurn s.blk.effWrite s.blk.td.store.writeFrom s.blk.writeWaits q.toNat = true →
          s.blk.nextBlock (s.blk.queue q.toNat).lastChan = some n →
          q.toNat ∉ b.td.store.writeWait ∧ b.td.store.writeFrom = s.blk.time.elapsed + budgetGap s.blk.effWrite ∧
          (b.queue q.toNat).spilling = true ∧
          (b.queue q.toNat).tail = (s.blk.spillView q.toNat).2.drop 8 ∧
          (b.queue q.toNat).writing = (s.blk.queue q.toNat).writing ++ [(n, (s.blk.spillView q.toNat).2.take 8)])) ∧
      s.blk.changesOnly b [.regs, .rings, .host, .lost, .td, .d5, .cnt, .told, .out]) ∧
  (∀ (s : State) (q : BitVec 20), ∃ b, Machine.exec (.spillWriteComplete q) s = .next { s with blk := b } ∧
    (s.blk.mode.mode = .faultHold → b = s.blk) ∧
    (s.blk.mode.mode ≠ .faultHold → ((s.blk.queue q.toNat).pendingWrites.headD (0, [])).1 < noBlock →
      completeRelink (s.blk.queue q.toNat).fetching = none →
      ((s.blk.queue q.toNat).writing = [] → b = s.blk) ∧
      (∀ n cs rest, (s.blk.queue q.toNat).writing = (n, cs) :: rest →
        (b.queue q.toNat).writing = rest ∧ (b.queue q.toNat).middle = (s.blk.queue q.toNat).middle ++ [(n, (cs.headD ⟨0, 0⟩).cseq)] ∧
        b.cnt48 PEAT.SPILLED_LO = (s.blk.cnt48 PEAT.SPILLED_LO + 1) % 2 ^ 48)) ∧
    s.blk.changesOnly b [.regs, .rings, .host, .lost, .td, .d5, .cnt, .told]) ∧
  (∀ (s : State) (q : BitVec 20), ∃ b, Machine.exec (.prefetchRequest q) s = .next { s with blk := b } ∧
    (s.blk.mode.mode = .faultHold ∨ s.blk.mustPrefetch q.toNat = false → b = s.blk) ∧
    (∀ n c0 rest, s.blk.mode.mode ≠ .faultHold → s.blk.mustPrefetch q.toNat = true →
      (s.blk.queue q.toNat).middle = (n, c0) :: rest → s.blk.td.store.lost.contains n = false →
      (s.blk.chanHeld (n % 16) = true → b = s.blk) ∧
      (s.blk.chanHeld (n % 16) = false →
        s.blk.budgetTurn s.blk.effRead s.blk.td.store.readFrom s.blk.readWaits q.toNat = false →
        q.toNat ∈ b.td.store.readWait ∧ b.queue q.toNat = s.blk.queue q.toNat) ∧
      (s.blk.chanHeld (n % 16) = false →
        s.blk.budgetTurn s.blk.effRead s.blk.td.store.readFrom s.blk.readWaits q.toNat = true →
        q.toNat ∉ b.td.store.readWait ∧ b.td.store.readFrom = s.blk.time.elapsed + budgetGap s.blk.effRead ∧
        (b.queue q.toNat).middle = rest ∧ (b.queue q.toNat).fetching = (s.blk.queue q.toNat).fetching ++ [.read n c0])) ∧
    (∀ n cs rest, s.blk.mode.mode ≠ .faultHold → s.blk.mustPrefetch q.toNat = true → (s.blk.queue q.toNat).middle = [] →
      (s.blk.queue q.toNat).writing = (n, cs) :: rest →
      (b.queue q.toNat).writing = rest ∧ (b.queue q.toNat).fetching = (s.blk.queue q.toNat).fetching ++ [.relink n cs false]) ∧
    s.blk.changesOnly b [.regs, .rings, .host, .lost, .td, .d5, .cnt]) ∧
  ∀ (s : State) (q : BitVec 20) (seens : List Seen),
    ∃ b, Machine.exec (.prefetchReadComplete q seens) s = .next { s with blk := b } ∧
      (s.blk.mode.mode = .faultHold ∨ (∀ n c0 rest, (s.blk.queue q.toNat).fetching ≠ .read n c0 :: rest) → b = s.blk) ∧
      (∀ n c0 rest, s.blk.mode.mode ≠ .faultHold → (s.blk.queue q.toNat).fetching = .read n c0 :: rest →
        (s.blk.chanHeld (n % 16) = true → b = s.blk) ∧
        (s.blk.chanHeld (n % 16) = false → (b.queue q.toNat).fetching <:+ rest ∧
          b.cnt48 PEAT.FETCHED_LO = (s.blk.cnt48 PEAT.FETCHED_LO + 1) % 2 ^ 48)) ∧
      s.blk.changesOnly b [.regs, .rings, .host, .lost, .td, .d5, .cnt, .told]

/-- SCHEDULER_DECISION does nothing in FAULT-HOLD, moves a line slice's calendar one entry on, decides nothing for a FABRIC node outside the modes
in which data runs, and departs no packet to a FABRIC node whose staging is full. EGF_FIRST_WORD takes the next packet of its port: one for a port that is down is counted in DOWN_DROP, one grown
beyond 256 bytes in EGF_GROWTH, and any other enters the port's FIFO.
EGF_TRANSMIT_START starts the oldest packet once it is whole. EGF_WORD_TRANSMIT sends 32 bytes of a started packet and returns its word credit, and
counts an underrun where the packet is not whole and has no word. WORD_CREDIT_RETURN gives the TD the returned credits; EGF_SHARE_APPLY takes the
SHARE of an empty FIFO with no credit outstanding. PROFILE_EXCHANGE exchanges the profile sets where COMMIT waits and clears it. REQUEST_REFRESH
sends a VOQ's request again once REFRESH_TICKS ticks have fired since it was last sent; BALANCE_AGE clears a positive balance of a VOQ that has
been empty for BALANCE_AGE ticks; CONTEXT_EXPIRY frees and counts a context that has received nothing for three times REFRESH_TICKS; GRANT_ISSUE
charges its bucket and counts the grant. Where its condition does not hold, each changes nothing. -/
def Obligations.SchedulerWorks : Prop :=
  (∀ (s : State) (e : Fin 16) (pick : Nat) (seens : List Seen),
    ∃ b, Machine.exec (.schedulerDecision e pick seens) s = .next { s with blk := b } ∧
      (s.blk.schLive = false ∨ (s.blk.schRuns = false ∧ 8 ≤ e.val) → b = s.blk) ∧
      (s.blk.schLive = true → e.val < 8 →
        NMap.get 0 b.td.sched.calPos e.val = (NMap.get 0 s.blk.td.sched.calPos e.val + 1) % 128) ∧
      (8 ≤ e.val → 448 < (s.blk.staging (e.val - 8)).length → ∀ q, b.queue q = s.blk.queue q) ∧
      s.blk.changesOnly b [.regs, .rings, .host, .lost, .fd, .td, .cnt, .told]) ∧
  (∀ (s : State) (p : Fin 256), ∃ b, Machine.exec (.egfFirstWord p) s = .next { s with blk := b } ∧
    (s.blk.mode.mode = .faultHold ∨ (s.blk.egf p.val).coming = [] → b = s.blk) ∧
    (∀ id rest, s.blk.mode.mode ≠ .faultHold → (s.blk.egf p.val).coming = id :: rest →
      (b.egf p.val).coming = rest ∧ (s.blk.eg id = none → (b.egf p.val).pkts = (s.blk.egf p.val).pkts) ∧
      (∀ g, s.blk.eg id = some g → s.blk.lportDown p.val = true →
        (b.egf p.val).pkts = (s.blk.egf p.val).pkts ∧
        b.cnt48 (LIN.DOWN_DROP_LO (p.val / 32) (p.val % 32)) = (s.blk.cnt48 (LIN.DOWN_DROP_LO (p.val / 32) (p.val % 32)) + 1) % 2 ^ 48) ∧
      (∀ g, s.blk.eg id = some g → s.blk.lportDown p.val = false → g.len + 256 < g.newLen →
        (b.egf p.val).pkts = (s.blk.egf p.val).pkts ∧
        b.cnt48 (LIN.EGF_GROWTH_LO (p.val / 32) (p.val % 32)) = (s.blk.cnt48 (LIN.EGF_GROWTH_LO (p.val / 32) (p.val % 32)) + 1) % 2 ^ 48) ∧
      (∀ g, s.blk.eg id = some g → s.blk.lportDown p.val = false → g.newLen ≤ g.len + 256 → g.cells.length ≤ 1 →
        ∃ e ∈ (b.egf p.val).pkts, e.id = id ∧ e.started = false ∧ e.spans ≠ [])) ∧
    s.blk.changesOnly b [.regs, .rings, .host, .lost, .sent, .fw, .fd, .cnt, .told, .out]) ∧
  (∀ (s : State) (p : Fin 256), ∃ b, Machine.exec (.egfTransmitStart p) s = .next { s with blk := b } ∧
    (s.blk.mode.mode = .faultHold ∨ (s.blk.egf p.val).pkts = [] → b = s.blk) ∧
    (∀ e rest, s.blk.mode.mode ≠ .faultHold → (s.blk.egf p.val).pkts = e :: rest → e.started = false → e.whole = true →
      (b.egf p.val).pkts = { e with started := true } :: rest) ∧
    (∀ q, q ≠ p.val → b.egf q = s.blk.egf q) ∧ s.blk.changesOnly b [.fd]) ∧
  (∀ (s : State) (p : Fin 256) (flips : List (Nat × Byte)),
    ∃ b, Machine.exec (.egfWordTransmit p flips) s = .next { s with blk := b } ∧
      (s.blk.mode.mode = .faultHold ∨ (s.blk.egf p.val).pkts = [] → b = s.blk) ∧
      (∀ e rest, s.blk.mode.mode ≠ .faultHold → (s.blk.egf p.val).pkts = e :: rest →
        (e.started = false → b = s.blk) ∧
        (e.started = true → e.whole = false → e.bytes.length < e.sent + 32 →
          b.cnt48 (LIN.EGF_UNDERRUN_LO (p.val / 32) (p.val % 32)) =
            (s.blk.cnt48 (LIN.EGF_UNDERRUN_LO (p.val / 32) (p.val % 32)) + 1) % 2 ^ 48) ∧
        (e.started = true → e.sent + 32 < e.bytes.length → flips = [] →
          spansEnding (flipSpans [] 0 e.spans) e.sent (e.sent + 32) = [] →
          (∃ e', (b.egf p.val).pkts = e' :: rest ∧ e'.id = e.id ∧ e'.sent = e.sent + 32) ∧
          (∀ g, s.blk.eg e.id = some g → 0 < g.credits → (b.egf p.val).owed = (s.blk.egf p.val).owed + 1))) ∧
      s.blk.changesOnly b [.regs, .rings, .host, .lost, .sent, .fd, .cnt, .told, .out]) ∧
  (∀ (s : State) (p : Fin 256), ∃ b, Machine.exec (.wordCreditReturn p) s = .next { s with blk := b } ∧
    (s.blk.mode.mode = .faultHold → b = s.blk) ∧
    (s.blk.mode.mode ≠ .faultHold →
      b.egf p.val = { s.blk.egf p.val with tdCredits := (s.blk.egf p.val).tdCredits + (s.blk.egf p.val).owed, owed := 0 }) ∧
    (∀ q, q ≠ p.val → b.egf q = s.blk.egf q) ∧ s.blk.changesOnly b [.fd]) ∧
  (∀ (s : State) (p : Fin 256), ∃ b, Machine.exec (.egfShareApply p) s = .next { s with blk := b } ∧
    (s.blk.mode.mode = .faultHold ∨ (s.blk.egf p.val).pkts ≠ [] ∨ (s.blk.egf p.val).coming ≠ [] ∨ (s.blk.egf p.val).owed ≠ 0 ∨
      (s.blk.egf p.val).tdCredits ≠ 32 * (s.blk.egf p.val).share → b = s.blk) ∧
    (s.blk.mode.mode ≠ .faultHold → (s.blk.egf p.val).pkts = [] → (s.blk.egf p.val).coming = [] → (s.blk.egf p.val).owed = 0 →
      (s.blk.egf p.val).tdCredits = 32 * (s.blk.egf p.val).share →
      (b.egf p.val).share = s.blk.fld (LIN.EGF_CFG (p.val / 32) (p.val % 32)) LIN.EGF_CFG_SHARE ∧
      (b.egf p.val).tdCredits = 32 * s.blk.fld (LIN.EGF_CFG (p.val / 32) (p.val % 32)) LIN.EGF_CFG_SHARE) ∧
    s.blk.changesOnly b [.fd]) ∧
  (∀ s : State, ∃ b, Machine.exec .profileExchange s = .next { s with blk := b } ∧
    (s.blk.schLive = false ∨ s.blk.flag SCH.SHP_CTL SCH.SHP_CTL_COMMIT = false → b = s.blk) ∧
    (s.blk.schLive = true → s.blk.flag SCH.SHP_CTL SCH.SHP_CTL_COMMIT = true →
      b.flag SCH.SHP_CTL SCH.SHP_CTL_COMMIT = false ∧
      b.fld SCH.SHP_CTL SCH.SHP_CTL_ACTIVE_SET = 1 - s.blk.fld SCH.SHP_CTL SCH.SHP_CTL_ACTIVE_SET) ∧
    s.blk.changesOnly b [.regs, .rings, .host, .lost, .td, .cnt]) ∧
  (∀ (s : State) (q : BitVec 20), ∃ b, Machine.exec (.requestRefresh q) s = .next { s with blk := b } ∧
    (s.blk.schLive = false ∨ s.blk.voqCount ≤ q.toNat ∨ (s.blk.voq q.toNat).state = 0 ∨
      s.blk.ticks < (s.blk.voq q.toNat).sentAt + s.blk.refreshTicks → b = s.blk) ∧
    (s.blk.schLive = true → q.toNat < s.blk.voqCount → (s.blk.voq q.toNat).state ≠ 0 →
      (s.blk.voq q.toNat).sentAt + s.blk.refreshTicks ≤ s.blk.ticks →
      (b.voq q.toNat).sentAt = s.blk.ticks ∧
      NMap.get [] b.td.fab.control (s.blk.voqDev q.toNat) =
        NMap.get [] s.blk.td.fab.control (s.blk.voqDev q.toNat) ++
          [(s.blk.requestMsg q.toNat (s.blk.voq q.toNat).state, s.blk.time.elapsed)]) ∧
    s.blk.changesOnly b [.td]) ∧
  (∀ (s : State) (q : BitVec 20), ∃ b, Machine.exec (.balanceAge q) s = .next { s with blk := b } ∧
    (s.blk.schLive = false ∨ s.blk.voqCount ≤ q.toNat ∨ (s.blk.queue q.toNat).depth ≠ 0 ∨ (s.blk.voq q.toNat).balance ≤ 0 ∨
      (s.blk.voq q.toNat).emptyAt.any (fun t => decide (t + s.blk.balanceTicks ≤ s.blk.ticks)) = false → b = s.blk) ∧
    (s.blk.schLive = true → q.toNat < s.blk.voqCount → (s.blk.queue q.toNat).depth = 0 → 0 < (s.blk.voq q.toNat).balance →
      (s.blk.voq q.toNat).emptyAt.any (fun t => decide (t + s.blk.balanceTicks ≤ s.blk.ticks)) = true →
      (b.voq q.toNat).balance = 0) ∧
    s.blk.changesOnly b [.td]) ∧
  (∀ (s : State) (src : BitVec 11) (voq : BitVec 20), ∃ b, Machine.exec (.contextExpiry src voq) s = .next { s with blk := b } ∧
    (s.blk.schLive = false ∨ NMap.find? s.blk.td.sched.contexts (reqKey src.toNat voq.toNat) = none → b = s.blk) ∧
    (∀ c, NMap.find? s.blk.td.sched.contexts (reqKey src.toNat voq.toNat) = some c → s.blk.ticks < c.at_ + 3 * s.blk.refreshTicks →
      b = s.blk) ∧
    (∀ c, s.blk.schLive = true → NMap.find? s.blk.td.sched.contexts (reqKey src.toNat voq.toNat) = some c →
      c.at_ + 3 * s.blk.refreshTicks ≤ s.blk.ticks →
      NMap.find? b.td.sched.contexts (reqKey src.toNat voq.toNat) = none ∧
      b.cnt48 SCH.CTX_EXPIRED_LO = (s.blk.cnt48 SCH.CTX_EXPIRED_LO + 1) % 2 ^ 48) ∧
    s.blk.changesOnly b [.regs, .td]) ∧
  ∀ (s : State) (p : Fin 256), ∃ b, Machine.exec (.grantIssue p) s = .next { s with blk := b } ∧
    (s.blk.schRuns = false ∨ s.blk.grantProf p.val = 0 ∨ (s.blk.grantNow p.val).stopped = true ∨
      (s.blk.grantNow p.val).bucket < 0 ∨ s.blk.portHeld p.val = true → b = s.blk) ∧
    (∀ cls k run, s.blk.schRuns = true → s.blk.grantProf p.val ≠ 0 → (s.blk.grantNow p.val).stopped = false →
      0 ≤ (s.blk.grantNow p.val).bucket → s.blk.portHeld p.val = false → s.blk.grantClass p.val = some cls →
      s.blk.grantTo p.val cls = some (k, run) →
      b.cnt48 SCH.GRANTS_SENT_LO = (s.blk.cnt48 SCH.GRANTS_SENT_LO + 1) % 2 ^ 48 ∧
      (b.grant p.val).bucket = (s.blk.grantNow p.val).bucket -
        (s.blk.fld SCH.CREDIT_CFG SCH.CREDIT_CFG_GRANT_UNITS * 1024 * byteMicro : Nat)) ∧
    s.blk.changesOnly b [.regs, .td]

/-- A later message of a control cell (no cell of its own) acts with the cell link live and the fabric enabled, and else changes nothing. REQUEST
of state 0 frees the context, of 1 or 2 makes or replaces it where the table has room, and of 3 leaves all as it is. GRANT counts, and raises the
balance of an existing VOQ, to twice its unit at most. SYNC sets the stream's expected SEQ. SYNC_REQ queues a SYNC for its sender.
SYNC_REQ_RESEND asks again for a context that has waited TIMEOUT for a SYNC, and NOSYNC_EXPIRY discards and counts what an unsynchronised
context has held for 16 of them.
The message that brings its cell: a lane that receives nothing changes nothing, and a good cell on an UP lane counts as a
CONTROL cell, adds its returned credits and is owed one. -/
def Obligations.ControlMessages : Prop :=
  (∀ (s : State) (src : BitVec 11) (voq : BitVec 20) (port : BitVec 8) (cls : BitVec 3) (st : BitVec 2),
    ∃ b, Machine.exec (.request none src voq port cls st) s = .next { s with blk := b } ∧
      (s.blk.fabLive = false ∨ s.blk.flag KCL.CTL KCL.CTL_ENABLE = false ∨ st = 3#2 → b = s.blk) ∧
      (s.blk.fabLive = true → s.blk.flag KCL.CTL KCL.CTL_ENABLE = true →
        (st = 0#2 → NMap.find? b.td.sched.contexts (reqKey src.toNat voq.toNat) = none) ∧
        (st = 1#2 ∨ st = 2#2 → s.blk.td.sched.contexts.length < 524288 →
          NMap.find? b.td.sched.contexts (reqKey src.toNat voq.toNat) = some ⟨port.toNat, cls.toNat, decide (st = 2#2), s.blk.ticks⟩) ∧
        (st = 1#2 ∨ st = 2#2 → 524288 ≤ s.blk.td.sched.contexts.length →
          NMap.find? s.blk.td.sched.contexts (reqKey src.toNat voq.toNat) = none →
          b.td.sched.contexts = s.blk.td.sched.contexts ∧
          b.cnt48 SCH.CTX_FULL_LO = (s.blk.cnt48 SCH.CTX_FULL_LO + 1) % 2 ^ 48)) ∧
      s.blk.changesOnly b [.regs, .rings, .host, .lost, .td, .told]) ∧
  (∀ (s : State) (voq : BitVec 20) (units : BitVec 7),
    ∃ b, Machine.exec (.grant none voq units) s = .next { s with blk := b } ∧
      (s.blk.fabLive = false ∨ s.blk.flag KCL.CTL KCL.CTL_ENABLE = false → b = s.blk) ∧
      (s.blk.fabLive = true → s.blk.flag KCL.CTL KCL.CTL_ENABLE = true →
        b.cnt48 SCH.GRANTS_RECEIVED_LO = (s.blk.cnt48 SCH.GRANTS_RECEIVED_LO + 1) % 2 ^ 48 ∧
        (voq.toNat < s.blk.voqCount → (b.voq voq.toNat).balance = max (s.blk.voq voq.toNat).balance
          (min ((s.blk.voq voq.toNat).balance + (units.toNat * 1024 : Nat)) (2 * (units.toNat * 1024 : Nat)))) ∧
        (s.blk.voqCount ≤ voq.toNat → b.td = s.blk.td ∧
          b.cnt48 KCL.CREDIT_EXCESS_LO = (s.blk.cnt48 KCL.CREDIT_EXCESS_LO + 1) % 2 ^ 48)) ∧
      s.blk.changesOnly b [.regs, .td]) ∧
  (∀ (s : State) (src : BitVec 11) (e : BitVec 3) (next : BitVec 16),
    ∃ b, Machine.exec (.sync none src e next) s = .next { s with blk := b } ∧
      (s.blk.fabLive = false ∨ s.blk.flag KCL.CTL KCL.CTL_ENABLE = false → b = s.blk) ∧
      (s.blk.fabLive = true → s.blk.flag KCL.CTL KCL.CTL_ENABLE = true → (s.blk.reseq (ctxOf src.toNat e.toNat)).held = [] →
        b.reseq (ctxOf src.toNat e.toNat) = { s.blk.reseq (ctxOf src.toNat e.toNat) with
          expect := next.toNat, synced := true, held := [], skipping := false, asked := none }) ∧
      s.blk.changesOnly b [.regs, .td]) ∧
  (∀ (s : State) (src : BitVec 11) (e : BitVec 3),
    ∃ b, Machine.exec (.syncReq none src e) s = .next { s with blk := b } ∧
      (s.blk.fabLive = false ∨ s.blk.flag KCL.CTL KCL.CTL_ENABLE = false → b = s.blk) ∧
      (s.blk.fabLive = true → s.blk.flag KCL.CTL KCL.CTL_ENABLE = true →
        ∃ next, NMap.get [] b.td.fab.control src.toNat = NMap.get [] s.blk.td.fab.control src.toNat ++
          [(3 * 2 ^ 124 + s.blk.devId * 2 ^ 113 + e.toNat * 2 ^ 110 + next * 2 ^ 94, s.blk.time.elapsed)]) ∧
      s.blk.changesOnly b [.td]) ∧
  (∀ (s : State) (i : BitVec 14), ∃ b, Machine.exec (.syncReqResend i) s = .next { s with blk := b } ∧
    (s.blk.fabLive = false ∨ (s.blk.reseq i.toNat).synced = true ∨
      (s.blk.reseq i.toNat).asked.any (fun t => decide (t + s.blk.resWait ≤ s.blk.time.elapsed)) = false → b = s.blk) ∧
    (∀ t, s.blk.fabLive = true → (s.blk.reseq i.toNat).synced = false → (s.blk.reseq i.toNat).asked = some t →
      t + s.blk.resWait ≤ s.blk.time.elapsed → (b.reseq i.toNat).asked = some s.blk.time.elapsed ∧
      NMap.get [] b.td.fab.control (i.toNat / 8) = NMap.get [] s.blk.td.fab.control (i.toNat / 8) ++
        [(4 * 2 ^ 124 + s.blk.devId * 2 ^ 113 + i.toNat % 8 * 2 ^ 110, s.blk.time.elapsed)]) ∧
    s.blk.changesOnly b [.td]) ∧
  (∀ (s : State) (i : BitVec 14), ∃ b, Machine.exec (.nosyncExpiry i) s = .next { s with blk := b } ∧
    (s.blk.fabLive = false ∨ (s.blk.reseq i.toNat).synced = true ∨
      s.blk.heldFor (s.blk.reseq i.toNat) (16 * s.blk.resWait) = false → b = s.blk) ∧
    (s.blk.fabLive = true → (s.blk.reseq i.toNat).synced = false →
      s.blk.heldFor (s.blk.reseq i.toNat) (16 * s.blk.resWait) = true → (b.reseq i.toNat).held = [] ∧
      b.cnt48 KCL.RESEQ_NOSYNC_LO = (s.blk.cnt48 KCL.RESEQ_NOSYNC_LO + (s.blk.reseq i.toNat).held.length) % 2 ^ 48) ∧
    s.blk.changesOnly b [.regs, .td]) ∧
  ∀ (s : State) (r : CellRx) (voq : BitVec 20) (units : BitVec 7),
    ∃ b, Machine.exec (.grant (some r) voq units) s = .next { s with blk := b } ∧
      (s.blk.fabLive = false ∨ s.blk.laneState r.norm.lane < 3 ∨ 5 < s.blk.laneState r.norm.lane ∨ (s.blk.lane r.norm.lane).rx = .skip →
        b = s.blk) ∧
      (s.blk.fabLive = true → s.blk.laneState r.norm.lane = 5 → (s.blk.lane r.norm.lane).rx ≠ .skip → r.crcOk = true →
        s.blk.flag KCL.CTL KCL.CTL_ENABLE = true →
        b.laneCredits r.norm.lane = min (s.blk.laneCredits r.norm.lane + r.norm.ret) 0xFFFF ∧
        (b.lane r.norm.lane).owed = (s.blk.lane r.norm.lane).owed + 1 ∧
        b.cnt48 KCL.CTRL_RECEIVED_LO = (s.blk.cnt48 KCL.CTRL_RECEIVED_LO + 1) % 2 ^ 48)

/-- MAC_CONTROL_FRAME does nothing with bytes that are no MAC control frame of the port. With the port up and RX_MODE 1 a pause frame is
counted and holds the port for its quanta, and with RX_MODE 2 a PFC frame is counted. PAUSE_EXPIRY with the line live
ends that pause once its quanta have run out, and no other. PFC_RESEND sends the frame again, with TX_QUANTA, while the class stands above XON
and half of TX_QUANTA has passed since the last, and else changes nothing. -/
def Obligations.PauseFrames : Prop :=
  (∀ (s : State) (k : Fin 128) (bytes : List Byte),
    ∃ b, Machine.exec (.macControlFrame k bytes) s = .next { s with blk := b } ∧
      (s.blk.isMacControl k.val bytes = false ∨ s.blk.lineLive = false ∨ s.blk.macEn k.val = false → b = s.blk) ∧
      (s.blk.isMacControl k.val bytes = true → s.blk.lineLive = true → s.blk.macEn k.val = true → s.blk.isUp (.mac k.val) = true →
        (s.blk.fld (macPause k.val) LIN.MAC_PAUSE_RX_MODE = 1 → beNat (bytesAt bytes 14 2) = 1 →
          NMap.get 0 b.td.sched.pauses (16 * k.val + 8) = (if beNat (bytesAt bytes 16 2) = 0 then 0
            else s.blk.time.elapsed + s.blk.quantaNs k.val (beNat (bytesAt bytes 16 2))) ∧
          b.cnt48 (LIN.RX_PAUSE_LO (k.val / 16) (k.val % 16)) =
            (s.blk.cnt48 (LIN.RX_PAUSE_LO (k.val / 16) (k.val % 16)) + 1) % 2 ^ 48) ∧
        (s.blk.fld (macPause k.val) LIN.MAC_PAUSE_RX_MODE = 2 → beNat (bytesAt bytes 14 2) = 0x0101 →
          b.cnt48 (LIN.RX_PFC_LO (k.val / 16) (k.val % 16)) =
            (s.blk.cnt48 (LIN.RX_PFC_LO (k.val / 16) (k.val % 16)) + 1) % 2 ^ 48)) ∧
      s.blk.changesOnly b [.regs, .rings, .host, .lost, .fd, .td, .line, .cnt, .out]) ∧
  (∀ (s : State) (k : Fin 128) (cls : Fin 9), ∃ b, Machine.exec (.pauseExpiry k cls) s = .next { s with blk := b } ∧
    (s.blk.lineLive = false ∨ s.blk.time.elapsed < NMap.get 0 s.blk.td.sched.pauses (16 * k.val + cls.val) → b = s.blk) ∧
    (s.blk.lineLive = true → NMap.get 0 s.blk.td.sched.pauses (16 * k.val + cls.val) ≤ s.blk.time.elapsed →
      NMap.get 0 b.td.sched.pauses (16 * k.val + cls.val) = 0 ∧
      ∀ j, j ≠ 16 * k.val + cls.val → NMap.get 0 b.td.sched.pauses j = NMap.get 0 s.blk.td.sched.pauses j) ∧
    s.blk.changesOnly b [.regs, .td]) ∧
  ∀ (s : State) (k : Fin 128) (cls : Fin 9), ∃ b, Machine.exec (.pfcResend k cls) s = .next { s with blk := b } ∧
    (s.blk.lineLive = false ∨ s.blk.macEn k.val = false ∨
      2 * s.blk.time.elapsed < 2 * NMap.get 0 s.blk.line.pausedAt (16 * k.val + cls.val) +
        s.blk.quantaNs k.val (s.blk.fld (macPause k.val) LIN.MAC_PAUSE_TX_QUANTA) ∨
      (s.blk.txClasses k.val).contains cls.val = false ∨
      s.blk.fld (macSts k.val) LIN.MAC_STS_XOFF &&& (if cls.val = 8 then 0xFF else 2 ^ cls.val) = 0 → b = s.blk) ∧
    (s.blk.lineLive = true → s.blk.macEn k.val = true → (s.blk.txClasses k.val).contains cls.val = true →
      s.blk.fld (macSts k.val) LIN.MAC_STS_XOFF &&& (if cls.val = 8 then 0xFF else 2 ^ cls.val) ≠ 0 →
      2 * NMap.get 0 s.blk.line.pausedAt (16 * k.val + cls.val) +
        s.blk.quantaNs k.val (s.blk.fld (macPause k.val) LIN.MAC_PAUSE_TX_QUANTA) ≤ 2 * s.blk.time.elapsed →
      b.out = s.blk.out ++ [.pause k.val (if cls.val = 8 then 0xFF else 2 ^ cls.val)
        (s.blk.fld (macPause k.val) LIN.MAC_PAUSE_TX_QUANTA)]) ∧
    s.blk.changesOnly b [.regs, .line, .out]

/-- Each row acts only with the cell link live, its lane in the row's state and its time come, and else changes nothing.
LANE_TRAINING_RESULT with codeword lock takes a training lane to HELLO; a failure at the lowest rate takes it to WAIT with credit 0, and at
another trains it again at the highest rate left. CODEWORD counts a lane's run of good or bad codewords; the fourth good one in a row gains
codeword lock, an uncorrectable one makes a locked receiver skip, and the eighth of these in a row takes an UP lane to WAIT. HELLO_SEND sends a
cell on the lane. HELLO_TIMEOUT takes a lane in HELLO or UP to WAIT. PROBATION_END takes a lane with an accepted partner UP after 1 ms, another
to WAIT after 10 ms. LANE_RETRY starts training again at the lowest rate with every rate untried. LANE_JOIN_SPRAY lets an UP lane join the
spraying at a tick boundary. DRAINED shows a drained macro whose lanes hold no cell. -/
def Obligations.FabricLaneStates : Prop :=
  (∀ (s : State) (l : Fin 96) (t : Trained), ∃ b, Machine.exec (.laneTrainingResult l t) s = .next { s with blk := b } ∧
    (s.blk.fabLive = false ∨ s.blk.laneState l.val ≠ 2 ∨ s.blk.groupState (8 + l.val / 8) ≠ 0 → b = s.blk) ∧
    (s.blk.fabLive = true → s.blk.laneState l.val = 2 → s.blk.groupState (8 + l.val / 8) = 0 →
      (t = .locked → b.laneState l.val = 3) ∧
      (t = .failed → s.blk.laneRate l.val = 0 → b.laneState l.val = 6 ∧ b.laneCredits l.val = 0 ∧
        b.fld (laneSts l.val) FAB.LANE_STS_CAUSE = 6) ∧
      (∀ r, t = .failed → s.blk.laneRate l.val ≠ 0 →
        topRate (bitOff (s.blk.lane l.val).mask (s.blk.laneRate l.val) &&&
          (2 ^ (s.blk.fld (laneCfg l.val) FAB.LANE_CFG_MAX_RATE + 1) - 1)) = some r →
        b.laneState l.val = 2 ∧ b.laneRate l.val = r)) ∧
    s.blk.changesOnly b [.regs, .rings, .host, .lost, .mode, .td, .pwr, .draws, .out]) ∧
  (∀ (s : State) (l : Fin 96) (c : Codeword), ∃ b, Machine.exec (.codeword l c) s = .next { s with blk := b } ∧
    (s.blk.fabLive = false ∨ s.blk.laneState l.val < 2 ∨ 5 < s.blk.laneState l.val → b = s.blk) ∧
    (s.blk.fabLive = true → 2 ≤ s.blk.laneState l.val → s.blk.laneState l.val ≤ 5 →
      (c.good = true → (s.blk.lane l.val).locked = false → (s.blk.lane l.val).goodRun < 3 → b.lane l.val = { s.blk.lane l.val with
        goodRun := (s.blk.lane l.val).goodRun + 1, badRun := 0, rxScram := c.message % 2 ^ 58 }) ∧
      (c.good = true → (s.blk.lane l.val).locked = false → 3 ≤ (s.blk.lane l.val).goodRun → (b.lane l.val).locked = true) ∧
      (c.good = false → s.blk.laneState l.val ≠ 4 →
        (s.blk.laneState l.val = 5 → (s.blk.lane l.val).locked = true ∧ (s.blk.lane l.val).badRun < 7) →
        b.lane l.val = { s.blk.lane l.val with
          goodRun := 0, badRun := (s.blk.lane l.val).badRun + 1, rxScram := c.message % 2 ^ 58
          locked := (s.blk.lane l.val).locked && decide ((s.blk.lane l.val).badRun < 7)
          rx := if (s.blk.lane l.val).locked then .skip else (s.blk.lane l.val).rx }) ∧
      (c.good = false → s.blk.laneState l.val = 5 → 7 ≤ (s.blk.lane l.val).badRun → b.laneState l.val = 6)) ∧
    s.blk.changesOnly b [.regs, .rings, .host, .lost, .mode, .td, .told, .pwr, .draws, .out]) ∧
  (∀ (s : State) (l : Fin 96), ∃ b, Machine.exec (.helloSend l) s = .next { s with blk := b } ∧
    (s.blk.fabLive = false ∨ s.blk.laneState l.val < 3 ∨ 5 < s.blk.laneState l.val ∨ s.blk.helloDue l.val = false → b = s.blk) ∧
    (s.blk.fabLive = true → 3 ≤ s.blk.laneState l.val → s.blk.laneState l.val ≤ 5 → s.blk.helloDue l.val = true →
      (∃ before c, b.out = s.blk.out ++ before ++ [.cell l.val c]) ∧
      (s.blk.laneState l.val ≠ 3 → (b.lane l.val).told = true ∧ (b.lane l.val).said = some (s.blk.time.elapsed, s.blk.ticks) ∧
        b.laneCredits l.val = s.blk.laneCredits l.val - 1)) ∧
    s.blk.changesOnly b [.regs, .td, .out]) ∧
  (∀ (s : State) (l : Fin 96), ∃ b, Machine.exec (.helloTimeout l) s = .next { s with blk := b } ∧
    (s.blk.fabLive = false ∨ s.blk.helloMissed l.val = false → b = s.blk) ∧
    (s.blk.fabLive = true →
      (s.blk.laneState l.val = 3 ∧ (s.blk.lane l.val).heard + 10000000 ≤ s.blk.time.elapsed) ∨
      (s.blk.laneState l.val = 5 ∧ (s.blk.lane l.val).heardTick + s.blk.fld KCL.HELLO_CFG KCL.HELLO_CFG_MISS *
        s.blk.fld KCL.HELLO_CFG KCL.HELLO_CFG_PERIOD ≤ s.blk.ticks) →
      b.laneState l.val = 6 ∧ b.laneCredits l.val = 0 ∧ b.fld (laneSts l.val) FAB.LANE_STS_CAUSE = 3 ∧ (b.lane l.val).tx = []) ∧
    s.blk.changesOnly b [.regs, .rings, .host, .lost, .mode, .td, .pwr]) ∧
  (∀ (s : State) (l : Fin 96), ∃ b, Machine.exec (.probationEnd l) s = .next { s with blk := b } ∧
    (s.blk.fabLive = false ∨ s.blk.laneState l.val ≠ 4 ∨ s.blk.time.elapsed < (s.blk.lane l.val).since + 1000000 → b = s.blk) ∧
    (s.blk.fabLive = true → s.blk.laneState l.val = 4 →
      ((s.blk.lane l.val).farOk = true → (s.blk.lane l.val).since + 1000000 ≤ s.blk.time.elapsed → b.laneState l.val = 5) ∧
      ((s.blk.lane l.val).farOk = false → s.blk.time.elapsed < (s.blk.lane l.val).since + 10000000 → b = s.blk) ∧
      ((s.blk.lane l.val).farOk = false → (s.blk.lane l.val).since + 10000000 ≤ s.blk.time.elapsed →
        b.laneState l.val = 6 ∧ b.fld (laneSts l.val) FAB.LANE_STS_CAUSE = 7)) ∧
    s.blk.changesOnly b [.regs, .rings, .host, .lost, .mode, .td, .pwr]) ∧
  (∀ (s : State) (l : Fin 96), ∃ b, Machine.exec (.laneRetry l) s = .next { s with blk := b } ∧
    (s.blk.fabLive = false ∨ s.blk.laneState l.val ≠ 6 ∨ s.blk.groupState (8 + l.val / 8) ≠ 0 ∨
      s.blk.time.elapsed < (s.blk.lane l.val).since + s.blk.fld KCL.HELLO_CFG KCL.HELLO_CFG_RETRY * 1000000 → b = s.blk) ∧
    (s.blk.fabLive = true → s.blk.laneState l.val = 6 → s.blk.groupState (8 + l.val / 8) = 0 →
      (s.blk.lane l.val).since + s.blk.fld KCL.HELLO_CFG KCL.HELLO_CFG_RETRY * 1000000 ≤ s.blk.time.elapsed →
      b.laneState l.val = 2 ∧ b.laneRate l.val = 0 ∧ (b.lane l.val).mask = 7) ∧
    s.blk.changesOnly b [.regs, .td]) ∧
  (∀ (s : State) (l : Fin 96), ∃ b, Machine.exec (.laneJoinSpray l) s = .next { s with blk := b } ∧
    (s.blk.fabLive = false ∨ s.blk.laneState l.val ≠ 5 ∨ (s.blk.lane l.val).spraying = true ∨
      s.blk.ticks ≤ (s.blk.lane l.val).sinceTick → b = s.blk) ∧
    (s.blk.fabLive = true → s.blk.laneState l.val = 5 → (s.blk.lane l.val).sinceTick < s.blk.ticks → (b.lane l.val).spraying = true) ∧
    (∀ k, k ≠ l.val → b.lane k = s.blk.lane k) ∧ s.blk.changesOnly b [.td]) ∧
  ∀ (s : State) (n : Fin 12), ∃ b, Machine.exec (.drained n) s = .next { s with blk := b } ∧
    (s.blk.fabLive = false ∨ s.blk.flag (FAB.CTL n.val) FAB.CTL_DRAIN = false ∨
      s.blk.flag (FAB.STS n.val) FAB.STS_DRAINED = true → b = s.blk) ∧
    ((∃ l, l < 8 ∧ (s.blk.lane (8 * n.val + l)).tx ≠ []) → b = s.blk) ∧
    (s.blk.fabLive = true → s.blk.flag (FAB.CTL n.val) FAB.CTL_DRAIN = true →
      s.blk.flag (FAB.STS n.val) FAB.STS_DRAINED = false → (∀ l, l < 8 → (s.blk.lane (8 * n.val + l)).tx = []) →
      b.flag (FAB.STS n.val) FAB.STS_DRAINED = true) ∧
    s.blk.changesOnly b [.regs, .rings, .host, .lost, .mode, .pwr]

/-- A cell that a lane can trust (the link live, the lane in HELLO, PROBATION or UP, not skipping, its CRC good) raises the lane's credits by
those it returns. HELLO of version 1 shows the partner and of another version counts BAD_TYPE; REACH replaces the lane's map; a
header cell of a reserved type counts BAD_TYPE; DATA_CELL for another device counts MISROUTED. On a lane that receives nothing none changes
anything. RESEQ_TIMEOUT counts a loss once a cell has been held for TIMEOUT. SPRAY assigns the cell that waits to be sprayed again to the best
lane; UNREACH_DROP discards and counts the packet at the head once no lane has reached its destination for 10 us; CONTROL_CELL_SEND takes at
most 16 messages of a destination and counts the cell, once 16 wait or the first has waited 64 ns. -/
def Obligations.FabricCells : Prop :=
  (∀ (s : State) (r : CellRx) (h : Hello) (map : BitVec 2048) (t : BitVec 4) (c : FCell),
    (∃ b, Machine.exec (.hello r h) s = .next { s with blk := b } ∧
      (s.blk.fabLive = false ∨ s.blk.laneState r.norm.lane < 3 ∨ 5 < s.blk.laneState r.norm.lane ∨ (s.blk.lane r.norm.lane).rx = .skip →
        b = s.blk) ∧
      (s.blk.fabLive = true → 3 ≤ s.blk.laneState r.norm.lane → s.blk.laneState r.norm.lane ≤ 5 → (s.blk.lane r.norm.lane).rx ≠ .skip →
        r.crcOk = true →
        (h.norm.version ≠ 1 → b.cnt48 KCL.BAD_TYPE_LO = (s.blk.cnt48 KCL.BAD_TYPE_LO + 1) % 2 ^ 48) ∧
        (h.norm.version = 1 → b.fld (FAB.LANE_PARTNER (r.norm.lane / 8) (r.norm.lane % 8)) FAB.LANE_PARTNER_ID = h.norm.id ∧
          b.fld (FAB.LANE_PARTNER (r.norm.lane / 8) (r.norm.lane % 8)) FAB.LANE_PARTNER_PORT = h.norm.port)) ∧
      s.blk.changesOnly b [.regs, .rings, .host, .lost, .mode, .td, .pwr, .draws]) ∧
    (∃ b, Machine.exec (.reach r map) s = .next { s with blk := b } ∧
      (s.blk.fabLive = false ∨ s.blk.laneState r.norm.lane < 3 ∨ 5 < s.blk.laneState r.norm.lane ∨ (s.blk.lane r.norm.lane).rx = .skip →
        b = s.blk) ∧
      (s.blk.fabLive = true → 3 ≤ s.blk.laneState r.norm.lane → s.blk.laneState r.norm.lane ≤ 5 → (s.blk.lane r.norm.lane).rx ≠ .skip →
        r.crcOk = true →
        b.lane r.norm.lane = { s.blk.lane r.norm.lane with owed := (s.blk.lane r.norm.lane).owed + 1, reach := map.toNat }) ∧
      s.blk.changesOnly b [.regs, .rings, .host, .lost, .mode, .td, .pwr, .draws]) ∧
    (∃ b, Machine.exec (.idle r t) s = .next { s with blk := b } ∧
      (s.blk.fabLive = false ∨ s.blk.laneState r.norm.lane < 3 ∨ 5 < s.blk.laneState r.norm.lane ∨ (s.blk.lane r.norm.lane).rx = .skip →
        b = s.blk) ∧
      (s.blk.fabLive = true → 3 ≤ s.blk.laneState r.norm.lane → s.blk.laneState r.norm.lane ≤ 5 → (s.blk.lane r.norm.lane).rx ≠ .skip →
        r.crcOk = true →
        b.laneCredits r.norm.lane = min (s.blk.laneCredits r.norm.lane + r.norm.ret) 0xFFFF ∧
        (t = 0#4 → b.td = s.blk.td) ∧
        (5 ≤ t.toNat → b.cnt48 KCL.BAD_TYPE_LO = (s.blk.cnt48 KCL.BAD_TYPE_LO + 1) % 2 ^ 48)) ∧
      s.blk.changesOnly b [.regs, .rings, .host, .lost, .mode, .td, .pwr, .draws]) ∧
    ∃ b, Machine.exec (.dataCell r c) s = .next { s with blk := b } ∧
      (s.blk.fabLive = false ∨ s.blk.laneState r.norm.lane < 3 ∨ 5 < s.blk.laneState r.norm.lane ∨ (s.blk.lane r.norm.lane).rx = .skip →
        b = s.blk) ∧
      (s.blk.fabLive = true → s.blk.laneState r.norm.lane = 5 → (s.blk.lane r.norm.lane).rx ≠ .skip → r.crcOk = true →
        s.blk.flag KCL.CTL KCL.CTL_ENABLE = true →
        b.laneCredits r.norm.lane = min (s.blk.laneCredits r.norm.lane + r.norm.ret) 0xFFFF ∧
        (c.norm.dest ≠ s.blk.devId → b.cnt48 KCL.MISROUTED_LO = (s.blk.cnt48 KCL.MISROUTED_LO + 1) % 2 ^ 48)) ∧
      s.blk.changesOnly b [.regs, .rings, .host, .lost, .mode, .td, .pwr, .draws]) ∧
  (∀ (s : State) (i : BitVec 14), ∃ b, Machine.exec (.reseqTimeout i) s = .next { s with blk := b } ∧
    (s.blk.fabLive = false ∨ (s.blk.reseq i.toNat).synced = false ∨ s.blk.heldFor (s.blk.reseq i.toNat) s.blk.resWait = false →
      b = s.blk) ∧
    (s.blk.fabLive = true → (s.blk.reseq i.toNat).synced = true → s.blk.heldFor (s.blk.reseq i.toNat) s.blk.resWait = true →
      b.cnt48 KCL.RESEQ_LOSS_LO = (s.blk.cnt48 KCL.RESEQ_LOSS_LO + 1) % 2 ^ 48) ∧
    s.blk.changesOnly b [.regs, .rings, .host, .lost, .td, .told]) ∧
  (∀ s : State, ∃ b, Machine.exec .spray s = .next { s with blk := b } ∧
    (s.blk.fabLive = false ∨ s.blk.fabricSends = false → b = s.blk) ∧
    (∀ c rest l, s.blk.fabLive = true → s.blk.fabricSends = true → s.blk.td.fab.again = c :: rest → s.blk.bestLane c.dest = some l →
      b.td.fab.again = rest ∧ (b.lane l).tx = (s.blk.lane l).tx ++ [c]) ∧
    s.blk.changesOnly b [.td]) ∧
  (∀ (s : State) (j : Fin 8), ∃ b, Machine.exec (.unreachDrop j) s = .next { s with blk := b } ∧
    (s.blk.fabLive = false ∨ s.blk.staging j.val = [] ∨ s.blk.strandedLong j.val = false → b = s.blk) ∧
    (∀ c rest, s.blk.fabLive = true → s.blk.staging j.val = c :: rest → s.blk.strandedLong j.val = true →
      (s.blk.reachable c.dest = true → b = s.blk) ∧
      (s.blk.reachable c.dest = false → b.staging j.val = afterPacket (c :: rest) ∧
        b.cnt48 KCL.UNREACH_DROP_LO = (s.blk.cnt48 KCL.UNREACH_DROP_LO + 1) % 2 ^ 48)) ∧
    s.blk.changesOnly b [.regs, .td]) ∧
  ∀ (s : State) (d : BitVec 11), ∃ b, Machine.exec (.controlCellSend d) s = .next { s with blk := b } ∧
    (s.blk.fabLive = false ∨ s.blk.fabricSends = false ∨ s.blk.controlDue d.toNat = false ∨
      s.blk.bestLane d.toNat = none → b = s.blk) ∧
    (∀ l, s.blk.fabLive = true → s.blk.fabricSends = true → s.blk.controlDue d.toNat = true →
      s.blk.bestLane d.toNat = some l →
      NMap.get [] b.td.fab.control d.toNat = (NMap.get [] s.blk.td.fab.control d.toNat).drop 16 ∧
      (b.lane l).tx = (s.blk.lane l).tx ++
        [.control d.toNat (((NMap.get [] s.blk.td.fab.control d.toNat).take 16).map (fun m => m.1))] ∧
      b.cnt48 KCL.CTRL_SENT_LO = (s.blk.cnt48 KCL.CTRL_SENT_LO + 1) % 2 ^ 48) ∧
    s.blk.changesOnly b [.regs, .td]

/-- With the line side not running, with their object disabled or out of the row's state, and before their time has come, these rows change
nothing. CDR_LOCK takes a lane in ACQUIRE to LOCKED with LOS and LOL clear; LOCK_LOSS_RETRAIN takes a locked lane that has been without lock
with signal for more than 20 ms to RETRAIN; RETRAIN_ATTEMPT_END locks it, marks its signal lost, or counts the attempt, the third of which fails
the lane. DEFECT_CHANGE sets or clears the named bit. PORT_UP makes an object up that has been clear for 10 ms, and none down. LINE_EVENT ends
the tick's list of changed objects. FLEXE_OVERHEAD sends the group's overhead; SKEW_RECOVERY clears the skew defect after 10 ms within bounds;
CALENDAR_SWITCH exchanges the calendars and ends the request, and CAL_TIMEOUT ends it after 10 ms with CAL_TIMEOUT set. OTN_FRAME advances the
stream's alignment; OTN_LOF makes LOF or LOM follow what has held for 3 ms; GFP_FRAME advances the delineation; CAGE_POLL, 10 ms after the last,
shows an absent module as 0 and a present one as PRESENT; in HANDOVER and SPORE a cage's RESULT reads 5. -/
def Obligations.LineSideWorks : Prop :=
  (∀ (s : State) (n l : Fin 8), ∃ b, Machine.exec (.cdrLock n l) s = .next { s with blk := b } ∧
    (s.blk.lineLive = false ∨ s.blk.lstate n.val l.val ≠ 1 → b = s.blk) ∧
    (s.blk.lineLive = true → s.blk.lstate n.val l.val = 1 → b.lstate n.val l.val = 2 ∧
      b.flag (LIN.LANE_STS n.val l.val) LIN.LANE_STS_LOS = false ∧ b.flag (LIN.LANE_STS n.val l.val) LIN.LANE_STS_LOL = false) ∧
    s.blk.changesOnly b [.regs, .rings, .host, .lost, .mode, .fd, .line, .pwr, .out]) ∧
  (∀ (s : State) (n l : Fin 8), ∃ b, Machine.exec (.lockLossRetrain n l) s = .next { s with blk := b } ∧
    (s.blk.lineLive = false ∨ s.blk.lstate n.val l.val ≠ 2 ∨ 
      (s.blk.lineLane n.val l.val).lolAt.any (fun t => decide (t + 20000000 < s.blk.time.elapsed)) = false → b = s.blk) ∧
    (∀ t, s.blk.lineLive = true → s.blk.lstate n.val l.val = 2 → (s.blk.lineLane n.val l.val).lolAt = some t →
      t + 20000000 < s.blk.time.elapsed →
      b.lstate n.val l.val = 3 ∧ b.flag (LIN.LANE_STS n.val l.val) LIN.LANE_STS_LOL = true) ∧
    s.blk.changesOnly b [.regs, .rings, .host, .lost, .mode, .fd, .line, .pwr, .out]) ∧
  (∀ (s : State) (n l : Fin 8) (locked lost : Bool),
    ∃ b, Machine.exec (.retrainAttemptEnd n l locked lost) s = .next { s with blk := b } ∧
      (s.blk.lineLive = false ∨ s.blk.lstate n.val l.val ≠ 3 → b = s.blk) ∧
      (s.blk.lineLive = true → s.blk.lstate n.val l.val = 3 →
        (lost = true ∨ s.blk.flag (LIN.LANE_STS n.val l.val) LIN.LANE_STS_LOS = true → b.lstate n.val l.val = 3 ∧ b.flag (LIN.LANE_STS n.val l.val) LIN.LANE_STS_LOS = true) ∧
        (lost = false → s.blk.flag (LIN.LANE_STS n.val l.val) LIN.LANE_STS_LOS = false → locked = true → b.lstate n.val l.val = 2) ∧
        (lost = false → s.blk.flag (LIN.LANE_STS n.val l.val) LIN.LANE_STS_LOS = false → locked = false → (s.blk.lineLane n.val l.val).attempts < 2 →
          (b.lineLane n.val l.val).attempts = (s.blk.lineLane n.val l.val).attempts + 1 ∧ b.regs = s.blk.regs) ∧
        (lost = false → s.blk.flag (LIN.LANE_STS n.val l.val) LIN.LANE_STS_LOS = false → locked = false → 2 ≤ (s.blk.lineLane n.val l.val).attempts → b.lstate n.val l.val = 4)) ∧
      s.blk.changesOnly b [.regs, .rings, .host, .lost, .mode, .fd, .line, .pwr, .out]) ∧
  (∀ (s : State) (o : LineObj) (k : Fin 16) (on : Bool),
    ∃ b, Machine.exec (.defectChange o k on) s = .next { s with blk := b } ∧
      (s.blk.lineLive = false → b = s.blk) ∧ ((∀ n l, o.norm ≠ .lane n l) → s.blk.objEn o.norm = false → b = s.blk) ∧
      ((∀ n l, o.norm ≠ .lane n l) → s.blk.lineLive = true → s.blk.objEn o.norm = true → bitAt (b.raw o.norm) k.val = on) ∧
      (∀ n l, o.norm = .lane n l → s.blk.lineLive = true → s.blk.lstate n l ≠ 0 →
        b.flag (LIN.LANE_STS n l) (if k.val = 0 then LIN.LANE_STS_LOS else LIN.LANE_STS_LOL) = on) ∧
      s.blk.changesOnly b [.regs, .rings, .host, .lost, .mode, .fd, .line, .pwr, .out]) ∧
  (∀ (s : State) (o : LineObj), ∃ b, Machine.exec (.portUp o) s = .next { s with blk := b } ∧
    (s.blk.lineLive = false ∨ s.blk.clearLong o.norm = false → b = s.blk) ∧
    (s.blk.lineLive = true → s.blk.clearLong o.norm = true → b.isUp o.norm = true) ∧
    (∀ x, s.blk.isUp x = true → b.isUp x = true) ∧
    s.blk.changesOnly b [.regs, .fd, .line, .out]) ∧
  (∀ s : State, ∃ b, Machine.exec .lineEvent s = .next { s with blk := b } ∧
    (s.blk.lineLive = false ∨ s.blk.ticks ≤ s.blk.line.changedTick → b = s.blk) ∧
    (s.blk.lineLive = true → s.blk.line.changedTick < s.blk.ticks → b.line.changed = []) ∧
    s.blk.changesOnly b [.regs, .rings, .host, .lost, .line]) ∧
  (∀ (s : State) (g i : Fin 8) (o : FlexeOh), ∃ b, Machine.exec (.flexeOverhead g i o) s = .next { s with blk := b } ∧
    (s.blk.lineLive = false ∨ s.blk.objEn (.phy g.val i.val) = false ∨ s.blk.objEn (.group g.val) = false → b = s.blk) ∧
    (s.blk.lineLive = true → s.blk.objEn (.phy g.val i.val) = true → s.blk.objEn (.group g.val) = true →
      ∃ pre a c d, b.out = s.blk.out ++ pre ++ [.flexe g.val i.val a c d]) ∧
    s.blk.changesOnly b [.regs, .fd, .line, .out]) ∧
  (∀ (s : State) (g : Fin 8), ∃ b, Machine.exec (.skewRecovery g) s = .next { s with blk := b } ∧
    (s.blk.lineLive = false ∨
      (NMap.find? s.blk.line.skewOk g.val).any (fun t => decide (t + 10000000 ≤ s.blk.time.elapsed)) = false → b = s.blk) ∧
    (∀ t, s.blk.lineLive = true → NMap.find? s.blk.line.skewOk g.val = some t → t + 10000000 ≤ s.blk.time.elapsed →
      bitAt (b.raw (.group g.val)) 0 = false) ∧
    s.blk.changesOnly b [.regs, .fd, .line, .out]) ∧
  (∀ (s : State) (g : Fin 8), ∃ b, Machine.exec (.calendarSwitch g) s = .next { s with blk := b } ∧
    (s.blk.lineLive = false ∨ s.blk.flag (FLX.GRP_CTL g.val) FLX.GRP_CTL_CAL_REQ = false → b = s.blk) ∧
    (s.blk.lineLive = true → s.blk.flag (FLX.GRP_CTL g.val) FLX.GRP_CTL_CAL_REQ = true →
      b.flag (FLX.GRP_CTL g.val) FLX.GRP_CTL_CAL_REQ = false ∧
      b.fld (FLX.GRP_CTL g.val) FLX.GRP_CTL_ACTIVE_CAL = 1 - s.blk.fld (FLX.GRP_CTL g.val) FLX.GRP_CTL_ACTIVE_CAL) ∧
    s.blk.changesOnly b [.regs, .rings, .host, .lost, .fd, .out]) ∧
  (∀ (s : State) (g : Fin 8), ∃ b, Machine.exec (.calTimeout g) s = .next { s with blk := b } ∧
    (s.blk.lineLive = false ∨ s.blk.time.elapsed < NMap.get 0 s.blk.line.calReqAt g.val + 10000000 ∨
      s.blk.flag (FLX.GRP_CTL g.val) FLX.GRP_CTL_CAL_REQ = false → b = s.blk) ∧
    (s.blk.lineLive = true → NMap.get 0 s.blk.line.calReqAt g.val + 10000000 ≤ s.blk.time.elapsed →
      s.blk.flag (FLX.GRP_CTL g.val) FLX.GRP_CTL_CAL_REQ = true →
      b.flag (FLX.GRP_CTL g.val) FLX.GRP_CTL_CAL_REQ = false ∧ b.flag (FLX.GRP_CTL g.val) FLX.GRP_CTL_CAL_TIMEOUT = true) ∧
    s.blk.changesOnly b [.regs, .rings, .host, .lost]) ∧
  (∀ (s : State) (c : Fin 64) (f : OtnFrame), ∃ b, Machine.exec (.otnFrame c f) s = .next { s with blk := b } ∧
    (s.blk.lineLive = false ∨ s.blk.objEn (.otn (s.blk.otnBase c.val)) = false → b = s.blk) ∧
    (s.blk.lineLive = true → s.blk.objEn (.otn (s.blk.otnBase c.val)) = true →
      NMap.get {} (b.otnCtx c.val).streams f.norm.stream =
        { ((NMap.get {} (s.blk.otnCtx c.val).streams f.norm.stream).align f.norm.hits).multi f.norm.mfas with
          marker := f.norm.marker, delay := f.norm.delay }) ∧
    s.blk.changesOnly b [.regs, .fd, .line, .out]) ∧
  (∀ (s : State) (c : Fin 64) (mf : Bool), ∃ b, Machine.exec (.otnLof c mf) s = .next { s with blk := b } ∧
    (s.blk.lineLive = false ∨ s.blk.objEn (.otn (s.blk.otnBase c.val)) = false ∨
      s.blk.time.elapsed < (if mf then (s.blk.otnCtx c.val).multiAt else (s.blk.otnCtx c.val).framedAt) + 3000000 → b = s.blk) ∧
    (s.blk.lineLive = true → s.blk.objEn (.otn (s.blk.otnBase c.val)) = true →
      (if mf then (s.blk.otnCtx c.val).multiAt else (s.blk.otnCtx c.val).framedAt) + 3000000 ≤ s.blk.time.elapsed →
      bitAt (b.raw (.otn c.val)) (if mf then 5 else 4) =
        !(if mf then (s.blk.otnCtx c.val).multi else (s.blk.otnCtx c.val).framed)) ∧
    s.blk.changesOnly b [.regs, .fd, .line, .out]) ∧
  (∀ (s : State) (c : Fin 64) (hec : Fin 3) (f : GfpFrame), ∃ b, Machine.exec (.gfpFrame c hec f) s = .next { s with blk := b } ∧
    (s.blk.lineLive = false ∨ s.blk.objEn (.otn c.val) = false → b = s.blk) ∧
    (s.blk.lineLive = true → s.blk.objEn (.otn c.val) = true →
      ((s.blk.otnCtx c.val).gfp = 0 → (b.otnCtx c.val).gfp = if hec = 0 then 1 else 0) ∧
      ((s.blk.otnCtx c.val).gfp = 1 → (b.otnCtx c.val).gfp = if hec = 0 then 2 else 0) ∧
      ((s.blk.otnCtx c.val).gfp = 2 → (b.otnCtx c.val).gfp = if hec = 2 then 0 else 2)) ∧
    s.blk.changesOnly b [.regs, .rings, .host, .lost, .fd, .td, .line, .cnt, .out]) ∧
  ∀ (s : State) (n c : Fin 8) (q : CagePoll), ∃ b, Machine.exec (.cagePoll n c q) s = .next { s with blk := b } ∧
    (s.blk.flag (LIN.CAGE_CFG n.val c.val) LIN.CAGE_CFG_ENABLE = false ∨ s.blk.mode.mode = .handover ∨ s.blk.lineLive = false ∨
      s.blk.pollDue n.val c.val = false → b = s.blk) ∧
    (s.blk.flag (LIN.CAGE_CFG n.val c.val) LIN.CAGE_CFG_ENABLE = true → s.blk.mode.mode ≠ .handover → s.blk.lineLive = true →
      s.blk.pollDue n.val c.val = true →
      (q.present = false → b.reg (LIN.CAGE_STS n.val c.val) = 0#32) ∧
      (q.present = true → b.flag (LIN.CAGE_STS n.val c.val) LIN.CAGE_STS_PRESENT = true)) ∧
    (∀ src, s.blk.mode.mode = .handover ∨ s.blk.mode.mode = .spore →
      fldGet LIN.CAGE_STS_RESULT (s.blk.regNow src (LIN.CAGE_STS n.val c.val)) = 5) ∧
    s.blk.changesOnly b [.regs, .rings, .host, .lost, .line, .out]

/-- CHECK_RUN_END of a context that is running makes it DONE, with OUTCOME 0 outside COMPARE mode and 3 in it when the expected value fails its
parity, and notes the tick; CHECK_PERIOD_RESTART starts a context that is DONE again PERIOD_TICKS after it ended, from the beginning, if
nothing refuses it; SCRUB_WRITEBACK ends the wait of the oldest corrected word. In FAULT-HOLD, and in another state, none changes
anything. -/
def Obligations.CheckRuns : Prop :=
  (∀ (s : State) (e : Fin 16) (found : List ScrubWord) (bad : Bool),
    ∃ b, Machine.exec (.checkRunEnd e found bad) s = .next { s with blk := b } ∧
      (s.blk.mode.mode = .faultHold ∨ s.blk.chkState e.val ≠ 1 → b = s.blk) ∧
      (s.blk.mode.mode ≠ .faultHold → s.blk.chkState e.val = 1 →
        b.chkState e.val = 3 ∧ NMap.get 0 b.chk.ended e.val = s.blk.time.fired ∧
        (s.blk.chkMode e.val ≠ 1 → b.fld (CHK.CTX_STS e.val) CHK.CTX_STS_OUTCOME = 0) ∧
        (s.blk.chkMode e.val = 1 → bad = true → b.fld (CHK.CTX_STS e.val) CHK.CTX_STS_OUTCOME = 3)) ∧
      s.blk.changesOnly b [.regs, .rings, .host, .lost, .d5, .cnt, .chk]) ∧
  (∀ (s : State) (e : Fin 16), ∃ b, Machine.exec (.checkPeriodRestart e) s = .next { s with blk := b } ∧
    (s.blk.mode.mode = .faultHold ∨ s.blk.chkState e.val ≠ 3 ∨ s.blk.fld (CHK.CTX_CTL e.val) CHK.CTX_CTL_PERIOD_TICKS = 0 ∨
      s.blk.time.fired < NMap.get 0 s.blk.chk.ended e.val + s.blk.fld (CHK.CTX_CTL e.val) CHK.CTX_CTL_PERIOD_TICKS → b = s.blk) ∧
    (s.blk.mode.mode ≠ .faultHold → s.blk.chkState e.val = 3 → s.blk.fld (CHK.CTX_CTL e.val) CHK.CTX_CTL_PERIOD_TICKS ≠ 0 →
      NMap.get 0 s.blk.chk.ended e.val + s.blk.fld (CHK.CTX_CTL e.val) CHK.CTX_CTL_PERIOD_TICKS ≤ s.blk.time.fired →
      (s.blk.chkRefuses e.val false = false → b.chkState e.val = 1 ∧ b.pair64 (CHK.DONE_LO e.val) = 0) ∧
      (s.blk.chkRefuses e.val false = true → b.chkState e.val = 5)) ∧
    s.blk.changesOnly b [.regs]) ∧
  ∀ s : State, ∃ b, Machine.exec .scrubWriteback s = .next { s with blk := b } ∧ (s.blk.mode.mode = .faultHold → b = s.blk) ∧
    (s.blk.mode.mode ≠ .faultHold → b.chk.wb = s.blk.chk.wb.drop 1) ∧ s.blk.changesOnly b [.chk]

/-- DDR5_READ of an address without a mapped member changes nothing, a read found in the write queue counts FORWARDED, a corrected
one ECC_CORR, and one that met a parity error on its way to the DRAM CA_PAR. DDR5_WRITE inside the table region stores its 64 bytes and no other, and in FAULT-HOLD or beyond the region nothing. REFRESH_SLOT
moves a channel to its next slot once that has come; OWED_REFRESH_ISSUE issues what is owed with the write queue low; MR4_READ, once in a tick,
shows the field. HOT_CROSSING and COOL_CROSSING take effect at an odd slot that has come. ZQ_CALIBRATION changes nothing and
PERIODIC_CALIBRATION in range only notes its tick; a drift out of range, and HOLD after too many link errors, put a live channel into HOLD and
count it. HOLD_END that passes returns it to the state before; REMIRROR_END once the copy is through makes it ACTIVE, and
CHANNEL_TRAINING_END that passes, its reset released, SPARE. EVAC_COPY_END marks the copy that has passed the capacity done, and EVAC_MAP_CHANGE
in a later tick gives the target the logical channel and ends the evacuation with RESULT 2. -/
def Obligations.Ddr5Works : Prop :=
  (∀ (s : State) (a : BitVec 40) (ps : List (Fin 17)) (f g : EccSeen), ∃ b, Machine.exec (.ddr5Read a ps f g) s = .next { s with blk := b } ∧
    (s.blk.tableSize ≤ a.toNat ∨ s.blk.d5Member a.toNat = none → b = s.blk) ∧
    (∀ l k, a.toNat < s.blk.tableSize → s.blk.d5Member a.toNat = some l → s.blk.d5Phys l = some k → k < 17 →
      (s.blk.d5Queued k (d5Local s.blk.d5TB a.toNat / 64) = true →
        b.cnt48 (D5C.FORWARDED_LO k) = (s.blk.cnt48 (D5C.FORWARDED_LO k) + 1) % 2 ^ 48) ∧
      (s.blk.d5Queued k (d5Local s.blk.d5TB a.toNat / 64) = false → f = .corrected →
        g = .corrected ∨ s.blk.d5Phys (if l % 2 = 0 then l + 1 else l - 1) ≠ some k →
        b.cnt48 (D5C.ECC_CORR_LO k) = (s.blk.cnt48 (D5C.ECC_CORR_LO k) + 1) % 2 ^ 48) ∧
      (∀ c, s.blk.d5Queued k (d5Local s.blk.d5TB a.toNat / 64) = false → ps = [c] →
        b.cnt48 (D5C.CA_PAR_LO c.val) = (s.blk.cnt48 (D5C.CA_PAR_LO c.val) + 1) % 2 ^ 48)) ∧
    s.blk.changesOnly b [.regs, .rings, .host, .lost, .td, .d5, .cnt]) ∧
  (∀ (s : State) (a : BitVec 40) (bytes : Vector Byte 64) (errs : List LinkErr),
    ∃ b, Machine.exec (.ddr5Write a bytes errs) s = .next { s with blk := b } ∧
      (s.blk.mode.mode = .faultHold ∨ s.blk.tableSize < a.toNat + 64 → b = s.blk) ∧
      (s.blk.mode.mode ≠ .faultHold → a.toNat + 64 ≤ s.blk.tableSize →
        (∀ i, (h : i < 64) → Memory.read b.d5.mem (a.toNat + i) = bytes[i]) ∧
        ∀ c, c < a.toNat ∨ a.toNat + 64 ≤ c → Memory.read b.d5.mem c = Memory.read s.blk.d5.mem c) ∧
      s.blk.changesOnly b [.regs, .rings, .host, .lost, .d5, .cnt]) ∧
  (∀ (s : State) (k : Fin 17), ∃ b, Machine.exec (.refreshSlot k) s = .next { s with blk := b } ∧
    (s.blk.slotDue k.val = false ∨ ((s.blk.d5Chan k.val).crossing.isSome = true ∧ (s.blk.d5Chan k.val).slot % 2 = 1) → b = s.blk) ∧
    (s.blk.slotDue k.val = true → (s.blk.d5Chan k.val).crossing = none ∨ (s.blk.d5Chan k.val).slot % 2 = 0 →
      (b.d5Chan k.val).slot = (s.blk.d5Chan k.val).slot + 1 ∧ (s.blk.d5Sleeps k.val = true → b.regs = s.blk.regs)) ∧
    s.blk.changesOnly b [.regs, .d5]) ∧
  (∀ (s : State) (k : Fin 17), ∃ b, Machine.exec (.owedRefreshIssue k) s = .next { s with blk := b } ∧
    (((s.blk.d5Chan k.val).suspended = true ∧ s.blk.hot k.val = false) ∨
      s.blk.fld (D5C.WQ_CFG k.val) D5C.WQ_CFG_WQ_HIGH < s.blk.wqLevel k.val → b = s.blk) ∧
    ((s.blk.d5Chan k.val).suspended = false ∨ s.blk.hot k.val = true →
      s.blk.wqLevel k.val ≤ s.blk.fld (D5C.WQ_CFG k.val) D5C.WQ_CFG_WQ_HIGH → b.owed k.val = 0) ∧
    s.blk.changesOnly b [.regs, .d5]) ∧
  (∀ (s : State) (k : Fin 17) (field : BitVec 3) (twice beyond : Bool),
    ∃ b, Machine.exec (.mr4Read k field twice beyond) s = .next { s with blk := b } ∧
      (s.blk.d5Sleeps k.val = true ∨ (s.blk.d5Chan k.val).mr4Tick = some s.blk.ticks → b = s.blk) ∧
      (s.blk.d5Sleeps k.val = false → (s.blk.d5Chan k.val).mr4Tick ≠ some s.blk.ticks →
        b.fld (D5C.TEMP k.val) D5C.TEMP_MR4 = field.toNat ∧
        (b.d5Chan k.val).crossing = if twice = s.blk.hot k.val then none else some twice) ∧
      s.blk.changesOnly b [.regs, .rings, .host, .lost, .d5, .told]) ∧
  (∀ (s : State) (k : Fin 17), ∃ b, Machine.exec (.hotCrossing k) s = .next { s with blk := b } ∧
    ((s.blk.d5Chan k.val).crossing ≠ some true ∨ (s.blk.d5Chan k.val).slot % 2 = 0 ∨ s.blk.slotDue k.val = false → b = s.blk) ∧
    ((s.blk.d5Chan k.val).crossing = some true → (s.blk.d5Chan k.val).slot % 2 = 1 → s.blk.slotDue k.val = true →
      b.hot k.val = true ∧ b.owed k.val = 0 ∧ (b.d5Chan k.val).crossing = none ∧
      b.cnt48 (D5C.HOT_CROSSINGS_LO k.val) = (s.blk.cnt48 (D5C.HOT_CROSSINGS_LO k.val) + 1) % 2 ^ 48) ∧
    s.blk.changesOnly b [.regs, .rings, .host, .lost, .nv, .d5]) ∧
  (∀ (s : State) (k : Fin 17), ∃ b, Machine.exec (.coolCrossing k) s = .next { s with blk := b } ∧
    ((s.blk.d5Chan k.val).crossing ≠ some false ∨ (s.blk.d5Chan k.val).slot % 2 = 0 ∨ s.blk.slotDue k.val = false → b = s.blk) ∧
    ((s.blk.d5Chan k.val).crossing = some false → (s.blk.d5Chan k.val).slot % 2 = 1 → s.blk.slotDue k.val = true →
      b.hot k.val = false ∧ b.owed k.val = s.blk.owed k.val - 1 ∧ (b.d5Chan k.val).crossing = none) ∧
    s.blk.changesOnly b [.regs, .rings, .host, .lost, .d5]) ∧
  (∀ (s : State) (k : Fin 17) (ok : Bool), ∃ b, Machine.exec (.periodicCalibration k ok) s = .next { s with blk := b } ∧
    ((s.blk.d5Chan k.val).calTick = some s.blk.ticks → b = s.blk) ∧
    ((s.blk.d5Chan k.val).calTick ≠ some s.blk.ticks →
      (ok = true ∨ s.blk.d5State k.val ∉ [d5Active, d5Source, d5Target, d5Remirror] →
        b = s.blk.setD5Chan k.val { s.blk.d5Chan k.val with calTick := some s.blk.ticks }) ∧
      (ok = false → s.blk.d5State k.val ∈ [d5Active, d5Source, d5Target, d5Remirror] →
        b.d5State k.val = d5Hold ∧ (b.d5Chan k.val).before = s.blk.d5State k.val ∧
        b.cnt48 (D5C.HOLDS_LO k.val) = (s.blk.cnt48 (D5C.HOLDS_LO k.val) + 1) % 2 ^ 48)) ∧
    s.blk.changesOnly b [.regs, .rings, .host, .lost, .td, .d5, .pwr, .draws]) ∧
  (∀ (s : State) (k : Fin 17), Machine.exec (.zqCalibration k) s = .next s) ∧
  (∀ (s : State) (k : Fin 17), ∃ b, Machine.exec (.hold k) s = .next { s with blk := b } ∧
    ((s.blk.d5Chan k.val).errTick ≤ s.blk.fld (D5C.WQ_CFG k.val) D5C.WQ_CFG_ERR_LIMIT → b = s.blk) ∧
    (s.blk.fld (D5C.WQ_CFG k.val) D5C.WQ_CFG_ERR_LIMIT < (s.blk.d5Chan k.val).errTick →
      s.blk.d5State k.val ∈ [d5Active, d5Source, d5Target, d5Remirror] →
      b.d5State k.val = d5Hold ∧ b.cnt48 (D5C.HOLDS_LO k.val) = (s.blk.cnt48 (D5C.HOLDS_LO k.val) + 1) % 2 ^ 48) ∧
    s.blk.changesOnly b [.regs, .rings, .host, .lost, .td, .d5, .pwr, .draws]) ∧
  (∀ (s : State) (k : Fin 17) (pass : Bool), ∃ b, Machine.exec (.holdEnd k pass) s = .next { s with blk := b } ∧
    (s.blk.d5State k.val ≠ d5Hold ∨ (s.blk.mode.mode = .faultHold ∧ (s.blk.d5Chan k.val).marked ≠ []) → b = s.blk) ∧
    (pass = true → s.blk.d5State k.val = d5Hold → (s.blk.d5Chan k.val).before < 16 →
      s.blk.mode.mode ≠ .faultHold ∨ (s.blk.d5Chan k.val).marked = [] →
      b.d5State k.val = (s.blk.d5Chan k.val).before ∧ (b.d5Chan k.val).marked = []) ∧
    s.blk.changesOnly b [.regs, .rings, .host, .lost, .mode, .nv, .td, .d5, .cnt, .pwr, .told, .draws, .out]) ∧
  (∀ (s : State) (l : Fin 16), ∃ b, Machine.exec (.remirrorEnd l) s = .next { s with blk := b } ∧
    (s.blk.mode.mode = .faultHold ∨
      (∀ e ∈ s.blk.d5.remirror, e.1 = l.val → copyUnits e.2 < (s.blk.d5Cap - s.blk.d5TB) / 64) ∨ s.blk.d5Phys l.val = none →
      b = s.blk) ∧
    (∀ k e, s.blk.mode.mode ≠ .faultHold → e ∈ s.blk.d5.remirror → e.1 = l.val → (s.blk.d5Cap - s.blk.d5TB) / 64 ≤ copyUnits e.2 →
      s.blk.d5Phys l.val = some k → k < 17 →
      s.blk.d5State k = d5Remirror → b.d5State k = d5Active ∧ b.d5.remirror = s.blk.d5.remirror.filter (fun e => e.1 ≠ l.val)) ∧
    s.blk.changesOnly b [.regs, .rings, .host, .lost, .td, .d5, .pwr]) ∧
  (∀ (s : State) (k : Fin 17) (t : D5Train), ∃ b, Machine.exec (.channelTrainingEnd k t) s = .next { s with blk := b } ∧
    (s.blk.d5State k.val ≠ d5Training ∨ s.blk.flag (D5C.CTL k.val) D5C.CTL_RETRAIN = false ∨
      (s.blk.d5Chan k.val).resetHigh = false → b = s.blk) ∧
    (s.blk.d5State k.val = d5Training → s.blk.flag (D5C.CTL k.val) D5C.CTL_RETRAIN = true → (s.blk.d5Chan k.val).resetHigh = true →
      t.pass = true → b.d5State k.val = d5Spare ∧ b.flag (D5C.CTL k.val) D5C.CTL_RETRAIN = false) ∧
    s.blk.changesOnly b [.regs, .rings, .host, .lost, .mode, .nv, .td, .d5, .cnt, .pwr, .told, .out]) ∧
  (∀ s : State, ∃ b, Machine.exec .evacCopyEnd s = .next { s with blk := b } ∧
    (s.blk.d5.evac = none ∨ s.blk.mode.mode = .faultHold → b = s.blk) ∧
    (∀ e, s.blk.d5.evac = some e → s.blk.mode.mode ≠ .faultHold → s.blk.d5State e.source ≠ d5Hold →
      (e.copied ≠ none ∨ copyUnits e.age < s.blk.d5Cap / 64 → b = s.blk) ∧
      (e.copied = none → s.blk.d5Cap / 64 ≤ copyUnits e.age → b.d5.evac = some { e with copied := some s.blk.ticks })) ∧
    s.blk.changesOnly b [.d5]) ∧
  ∀ s : State, ∃ b, Machine.exec .evacMapChange s = .next { s with blk := b } ∧
    (s.blk.d5.evac = none ∨ s.blk.mode.mode = .faultHold → b = s.blk) ∧
    (∀ e, s.blk.d5.evac = some e → e.moves s.blk.ticks = false → b = s.blk) ∧
    (∀ e l, s.blk.d5.evac = some e → s.blk.mode.mode ≠ .faultHold → e.moves s.blk.ticks = true → s.blk.d5Logical e.source = some l →
      e.source < 17 → e.target < 17 → e.source ≠ e.target →
      b.d5.evac = none ∧ b.d5Phys l = some e.target ∧ b.d5State e.target = d5Active ∧
      b.fld D5M.EVAC_STS D5M.EVAC_STS_RESULT = 2) ∧
    s.blk.changesOnly b [.regs, .rings, .host, .lost, .mode, .nv, .td, .d5, .pwr, .out]

/-- PPS_EDGE with the core on captures network time; an edge less than 900 ms after the last accepted one is counted as rejected, and one while
a time of day is armed, outside FOLLOW and FOLLOW_HOLD, loads it. TOD_TIMEOUT with none armed, or before 2 s have passed since the arming, changes
nothing, and otherwise clears the arming and sets TOD_TIMEOUT. HOLDOVER_ENTRY, 2.5 s after the last accepted edge, takes a servo in ACQUIRE or
LOCKED to HOLDOVER and no other. SQUELCH_LIFT squelches its output while a cause stands and clears its bit 10 ms after the last one cleared.
SLEW_END with none in progress, or with a tick boundary before its end, changes nothing, and otherwise leaves nothing to slew. -/
def Obligations.TimeEvents : Prop :=
  (∀ s : State, ∃ b, Machine.exec .ppsEdge s = .next { s with blk := b } ∧
    (coreOn s.blk.mode.mode = false → b = s.blk) ∧
    (coreOn s.blk.mode.mode = true →
      b.reg TMB.PPS_CAP_NS = BitVec.ofNat 32 s.blk.nowNs &&& maskOf TMB.PPS_CAP_NS ∧
      b.reg TMB.PPS_CAP_SEC_LO = BitVec.ofNat 32 s.blk.nowSec &&& maskOf TMB.PPS_CAP_SEC_LO ∧
      (∀ n, s.blk.time.sinceEdge = some n → n < 900000000 → b.time = s.blk.time ∧
        b.cnt48 TMB.PPS_REJECTED_LO = (s.blk.cnt48 TMB.PPS_REJECTED_LO + 1) % 2 ^ 48) ∧
      ((∀ n, s.blk.time.sinceEdge = some n → 900000000 ≤ n) → s.blk.time.armedAt ≠ none → s.blk.servo ≠ stFollow →
        s.blk.servo ≠ stFollowHold →
        b.time.armedAt = none ∧ b.time.todLoaded = true ∧ b.flag TMB.STS TMB.STS_TIME_SET = true))) ∧
  (∀ s : State, ∃ b, Machine.exec .todTimeout s = .next { s with blk := b } ∧ (s.blk.time.armedAt = none → b = s.blk) ∧
    (∀ t, s.blk.time.armedAt = some t → s.blk.time.elapsed < t + 2000000000 → b = s.blk) ∧
    (∀ t, s.blk.time.armedAt = some t → t + 2000000000 ≤ s.blk.time.elapsed →
      b.time = { s.blk.time with armedAt := none } ∧ b.flag TMB.STS TMB.STS_TOD_TIMEOUT = true ∧
      b.flag TMB.CTL TMB.CTL_TOD_ARM = false) ∧ s.blk.changesOnly b [.regs, .time]) ∧
  (∀ s : State, ∃ b, Machine.exec .holdoverEntry s = .next { s with blk := b } ∧
    ((s.blk.servo ≠ stAcquire ∧ s.blk.servo ≠ stLocked) ∨ (∀ n, s.blk.time.sinceEdge = some n → n < 2500000000) → b = s.blk) ∧
    (∀ n, s.blk.servo = stAcquire ∨ s.blk.servo = stLocked → s.blk.time.sinceEdge = some n → 2500000000 ≤ n →
      b.servo = stHoldover ∧ b.time.t = s.blk.time.t) ∧
    s.blk.changesOnly b [.regs, .time]) ∧
  (∀ (s : State) (k : Fin 2), ∃ b, Machine.exec (.squelchLift k) s = .next { s with blk := b } ∧
    (s.blk.synceCause k.val = true → bitAt (b.reg TMB.SYNCE_STS).toNat k.val = true) ∧
    (∀ t, s.blk.synceCause k.val = false → NMap.find? s.blk.line.synceClear k.val = some t →
      bitAt (b.reg TMB.SYNCE_STS).toNat k.val =
        (bitAt (s.blk.reg TMB.SYNCE_STS).toNat k.val && decide (s.blk.time.elapsed < t + 10000000))) ∧
    bitAt (b.reg TMB.SYNCE_STS).toNat (1 - k.val) = bitAt (s.blk.reg TMB.SYNCE_STS).toNat (1 - k.val) ∧
    s.blk.regsKept b [TMB.SYNCE_STS] ∧ s.blk.changesOnly b [.regs, .line]) ∧
  ∀ s : State, ∃ b, Machine.exec .slewEnd s = .next { s with blk := b } ∧
    (s.blk.time.slewLeft = 0 ∨ s.blk.cyclesFor s.blk.toBoundary ≤ ceilDiv s.blk.time.slewLeft.natAbs (10 ^ 8) → b = s.blk) ∧
    (ceilDiv s.blk.time.slewLeft.natAbs (10 ^ 8) < s.blk.cyclesFor s.blk.toBoundary → s.blk.time.slewLeft ≠ 0 →
      b.time.slewLeft = 0 ∧ b.time.elapsed = s.blk.time.elapsed + ceilDiv s.blk.time.slewLeft.natAbs (10 ^ 8)) ∧
    s.blk.changesOnly b [.regs, .rings, .host, .lost, .time, .fd, .td, .d5, .cnt, .out]

/-- TD_ACCESS_TIMEOUT of a TD page holds the first access in PCI's capture with code 7, and gives a read all-ones; of another page it changes
nothing. WINDOW_READ answers with the window's
bytes with the core on and the page answering, and WINDOW_WRITE of bytes that are no whole words stores nothing. RING_COALESCE reports what was returned and not
reported, TIME us after the first of it. FUNCTION_LEVEL_RESET disables every ring, ends the host's unlocks and forgets what messages were sent; PCIE_PERST_N low does the same, and
high changes only the pin's level. -/
def Obligations.HostInterfaceEvents : Prop :=
  (∀ (s : State) (src : Source) (page : BitVec 10) (off : BitVec 16) (w : Bool),
    ∃ b, Machine.exec (.tdAccessTimeout src page off w) s = .next { s with blk := b } ∧
      (page.toNat < 0x80 → b = s.blk) ∧
      (0x80 ≤ page.toNat → b.out = (if w then s.blk.out else s.blk.out ++ [.data (List.replicate 4 0xFF#8) false]) ∧
      b.flag (HDR.ERR_INFO 1) HDR.ERR_INFO_VALID = true ∧
      (s.blk.flag (HDR.ERR_INFO 1) HDR.ERR_INFO_VALID = true → b.reg (HDR.ERR_ADDR 1) = s.blk.reg (HDR.ERR_ADDR 1)) ∧
      (s.blk.flag (HDR.ERR_INFO 1) HDR.ERR_INFO_VALID = false → b.fld (HDR.ERR_INFO 1) HDR.ERR_INFO_CODE = 7)) ∧
      s.blk.changesOnly b [.regs, .rings, .host, .lost, .out]) ∧
  (∀ (s : State) (a : BitVec 30) (n : Fin 4097) (unc : Bool), ∃ b, Machine.exec (.windowRead a n unc) s = .next { s with blk := b } ∧
    (s.blk.reach .host 2 0x100 = .silent → b = { s.blk with out := s.blk.out ++ [.noCompletion] }) ∧
    (s.blk.reach .host 2 0x100 = .answers → coreOn s.blk.mode.mode = true → s.blk.mode.mode ≠ .bringUp →
      b.out = s.blk.out ++ [.data ((upTo n.val).map (fun i => s.blk.windowByte (a.toNat + i)))
        (unc || (s.blk.windowSeen a.toNat n.val).2)] ∧
      (unc = true ∨ (s.blk.windowSeen a.toNat n.val).2 = true → b.flag WIN.STS WIN.STS_UNCORR = true) ∧
      (unc = false → (s.blk.windowSeen a.toNat n.val).2 = false → b.flag WIN.STS WIN.STS_UNCORR = s.blk.flag WIN.STS WIN.STS_UNCORR)) ∧
    s.blk.changesOnly b [.regs, .rings, .host, .lost, .d5, .cnt, .out]) ∧
  (∀ (s : State) (a : BitVec 30) (bytes : List (Option Byte)), ∃ b, Machine.exec (.windowWrite a bytes) s = .next { s with blk := b } ∧
    (s.blk.reach .host 2 0x100 ≠ .answers → b = s.blk) ∧
    (s.blk.windowAddr a.toNat % 32 ≠ 0 ∨ bytes.length % 32 ≠ 0 ∨ none ∈ bytes → b.tbl = s.blk.tbl) ∧
    s.blk.changesOnly b [.regs, .tbl]) ∧
  (∀ (s : State) (r : Fin 69), ∃ b, Machine.exec (.ringCoalesce r) s = .next { s with blk := b } ∧
    ((s.blk.ring r.val).unreported = 0 ∨
      s.blk.time.elapsed < (s.blk.ring r.val).firstAt + 1000 * s.blk.fld (PCI.RING_COAL r.val) PCI.RING_COAL_TIME → b = s.blk) ∧
    (0 < (s.blk.ring r.val).unreported →
      (s.blk.ring r.val).firstAt + 1000 * s.blk.fld (PCI.RING_COAL r.val) PCI.RING_COAL_TIME ≤ s.blk.time.elapsed →
      (b.ring r.val).unreported = 0 ∧
      (s.blk.flag (PCI.RING_CFG r.val) PCI.RING_CFG_INT_EN = true → (b.ring r.val).request = true)) ∧
    s.blk.changesOnly b [.rings]) ∧
  (∀ s : State, ∃ b, Machine.exec .functionLevelReset s = .next { s with blk := b } ∧
    (∀ r, r < 69 → b.flag (PCI.RING_CFG r) PCI.RING_CFG_ENABLE = false) ∧ (∀ p, b.isArmed p .host = false) ∧ b.sent = [] ∧
    b.reg WIN.APERTURE_BASE = resetOf WIN.APERTURE_BASE ∧ s.blk.changesOnly b [.regs, .armed, .rings, .host, .sent]) ∧
  ∀ (s : State) (level : Bool), ∃ b, Machine.exec (.pciePerstN level) s = .next { s with blk := b } ∧
    b.mode = { s.blk.mode with
      perstN := level, perstSince := if level && !s.blk.mode.perstN then s.blk.time.elapsed else s.blk.mode.perstSince } ∧
    (level = true → s.blk.changesOnly b [.mode]) ∧
    (level = false → (∀ r, r < 69 → b.flag (PCI.RING_CFG r) PCI.RING_CFG_ENABLE = false) ∧ (∀ p, b.isArmed p .host = false) ∧
      b.sent = []) ∧
    s.blk.changesOnly b [.regs, .armed, .rings, .host, .sent, .mode]

/-- None of these rows changes anything in FAULT-HOLD. COUNTER_SWEEP moves the sweeper on by the sets it walks, around the cache; COUNTER_WRITE_BACK
takes the oldest record of the queue and counts it, once the write-back budget has room for it; SNAPSHOT_BUILD_END of a snapshot being built shows it complete and goes to EXPORTING
or READY; COUNTER_EXPORT of one being exported, with a good descriptor of whole records, takes the descriptor and goes on by the records it holds. -/
def Obligations.CounterEngine : Prop :=
  (∀ (s : State) (n : BitVec 20), ∃ b, Machine.exec (.counterSweep n) s = .next { s with blk := b } ∧
    (s.blk.mode.mode = .faultHold ∨ s.blk.noCache = true → b = s.blk) ∧
    (s.blk.mode.mode ≠ .faultHold → s.blk.noCache = false →
      b.cnt.sweep = (s.blk.cnt.sweep + n.toNat) % (24576 * s.blk.cntBanks.length)) ∧
    s.blk.changesOnly b [.tbl, .cnt]) ∧
  (∀ s : State, ∃ b, Machine.exec .counterWriteBack s = .next { s with blk := b } ∧
    (s.blk.mode.mode = .faultHold ∨ s.blk.cnt.queue = [] ∨ s.blk.time.elapsed < s.blk.cnt.wbFrom → b = s.blk) ∧
    (∀ r rest, s.blk.mode.mode ≠ .faultHold → s.blk.cnt.wbFrom ≤ s.blk.time.elapsed → s.blk.cnt.queue = r :: rest → rest <+: b.cnt.queue ∧
      b.cnt48 CNT.C_WRITEBACKS_LO = (s.blk.cnt48 CNT.C_WRITEBACKS_LO + 1) % 2 ^ 48 ∧
      (s.blk.flag CNT.CTL CNT.CTL_ENABLE = true → b.cnt.queue = rest)) ∧
    s.blk.changesOnly b [.regs, .rings, .host, .lost, .tbl, .d5, .cnt, .draws]) ∧
  (∀ s : State, ∃ b, Machine.exec .snapshotBuildEnd s = .next { s with blk := b } ∧
    (s.blk.mode.mode = .faultHold ∨ s.blk.fld CNT.SNAP_STS CNT.SNAP_STS_STATE ≠ 1 → b = s.blk) ∧
    (s.blk.mode.mode ≠ .faultHold → s.blk.fld CNT.SNAP_STS CNT.SNAP_STS_STATE = 1 →
      b.fld CNT.SNAP_STS CNT.SNAP_STS_STATE = (if s.blk.flag CNT.SNAP_CTL CNT.SNAP_CTL_EXPORT then 2 else 3) ∧
      b.fld CNT.SNAP_STS CNT.SNAP_STS_PERCENT = 100) ∧
    s.blk.changesOnly b [.regs, .rings, .host, .lost, .d5, .cnt]) ∧
  ∀ s : State, ∃ b, Machine.exec .counterExport s = .next { s with blk := b } ∧
    (s.blk.mode.mode = .faultHold ∨ s.blk.fld CNT.SNAP_STS CNT.SNAP_STS_STATE ≠ 2 ∨ s.blk.ringRuns 66 = false ∨ s.blk.ringFree 66 = 0 ∨
      ringAlive s.blk.mode.mode 66 = false → b = s.blk) ∧
    (∀ d, s.blk.mode.mode ≠ .faultHold → s.blk.fld CNT.SNAP_STS CNT.SNAP_STS_STATE = 2 → s.blk.ringRuns 66 = true →
      0 < s.blk.ringFree 66 → ringAlive s.blk.mode.mode 66 = true → s.blk.ringSize 66 ≤ 2 ^ 16 → s.blk.fetchHead 66 = .ok d →
      leAt d 8 3 % 16 = 0 → s.blk.host.fails (leAt d 0 8) (16 * min (leAt d 8 3 / 16) (s.blk.cnt.snap.count - s.blk.cnt.snap.next)) = false →
      b.cnt.snap.next = s.blk.cnt.snap.next + min (leAt d 8 3 / 16) (s.blk.cnt.snap.count - s.blk.cnt.snap.next) ∧
      (b.ring 66).owned = (s.blk.ring 66).owned - 1 ∧
      b.fld (PCI.RING_HEAD 66) PCI.RING_HEAD_HEAD = (s.blk.fld (PCI.RING_HEAD 66) PCI.RING_HEAD_HEAD + 1) % s.blk.ringSize 66) ∧
    s.blk.changesOnly b [.regs, .rings, .host, .lost, .d5, .cnt, .draws]

/-- MASTER_ELECTION, 2 ms after the write that joined, makes a joined ELIGIBLE device with no master in sight and no lower ELIGIBLE one master, and
another joined one a member; before, or with no such write, it changes nothing, and without JOIN, with a master, or as master it only ends the wait.
MASTER_LOSS of a member forgets a master not heard for 1 ms, or paused for more than 10 s, and changes nothing else. CASCADE_HELLO_SEND, 10 µs or more after the last, and,
for the unacknowledged message that has waited longest, 4 µs or more, CASCADE_RESEND send on a link that runs. TIME_SYNC_SEND sends once in a tick, and by none
but a running master. COORD_DEADLINE at the master, 500 µs before the stamp, abandons a held entry that a needed position has not accepted, and
UNCONFIRMED at a member, 250 µs before it, drops a held entry; in FAULT-HOLD neither does. -/
def Obligations.CushionDuties : Prop :=
  (∀ s : State, ∃ b, Machine.exec .masterElection s = .next { s with blk := b } ∧
    (s.blk.csc.joinAt = none → b = s.blk) ∧
    (∀ t, s.blk.csc.joinAt = some t → s.blk.time.elapsed < t + 2000000 → b = s.blk) ∧
    (∀ t, s.blk.csc.joinAt = some t → t + 2000000 ≤ s.blk.time.elapsed → b.csc.joinAt = none ∧
      (s.blk.flag CSC.CTL CSC.CTL_JOIN = false ∨ s.blk.csc.masterPos.isSome = true ∨ s.blk.mode.role = roleMaster →
        b = { s.blk with csc := { s.blk.csc with joinAt := none } }) ∧
      (s.blk.flag CSC.CTL CSC.CTL_JOIN = true → s.blk.csc.masterPos = none → s.blk.mode.role ≠ roleMaster →
        (s.blk.flag CSC.CTL CSC.CTL_ELIGIBLE = true → s.blk.lowerEligible = false →
          b.mode.role = roleMaster ∧ b.flag CSC.STS CSC.STS_MASTER_VALID = true) ∧
        (s.blk.flag CSC.CTL CSC.CTL_ELIGIBLE = false ∨ s.blk.lowerEligible = true →
          b.mode.role = roleMember ∧ b.servo = stFollowHold))) ∧
    b.mode = { s.blk.mode with role := b.mode.role } ∧
    s.blk.changesOnly b [.regs, .rings, .host, .lost, .mode, .time, .csc]) ∧
  (∀ s : State, ∃ b, Machine.exec .masterLoss s = .next { s with blk := b } ∧
    (s.blk.csc.masterPos = none ∨ s.blk.mode.role ≠ roleMember → b = s.blk) ∧
    (∀ p, s.blk.csc.masterPos = some p → s.blk.time.elapsed < (s.blk.csc.link p).masterAt + 1000000 →
      (∀ t, (s.blk.csc.link p).pausedFrom = some t → s.blk.time.elapsed ≤ t + 10000000000) → b = s.blk) ∧
    (∀ p, s.blk.csc.masterPos = some p → s.blk.mode.role = roleMember →
      ((s.blk.csc.link p).masterAt + 1000000 ≤ s.blk.time.elapsed ∨
        ∃ t, (s.blk.csc.link p).pausedFrom = some t ∧ t + 10000000000 < s.blk.time.elapsed) →
      b.csc.masterPos = none ∧ (b.mode.role = roleMember ∨ b.mode.role = roleMaster)) ∧
    b.mode = { s.blk.mode with role := b.mode.role } ∧
    s.blk.changesOnly b [.regs, .rings, .host, .lost, .mode, .time, .csc]) ∧
  (∀ (s : State) (j : Fin 4), ∃ b, Machine.exec (.cascadeHelloSend j) s = .next { s with blk := b } ∧
    (s.blk.cascadeOn = false → b = s.blk) ∧
    (∀ t, (s.blk.csc.link j.val).helloAt = some t → s.blk.time.elapsed < t + 10000 → b = s.blk) ∧
    (s.blk.cascadeOn = true → (∀ t, (s.blk.csc.link j.val).helloAt = some t → t + 10000 ≤ s.blk.time.elapsed) →
      (b.csc.link j.val).helloAt = some s.blk.time.elapsed ∧
      (s.blk.fld (CSC.LINK_STS j.val) CSC.LINK_STS_LANES_UP = 0 → b.out = s.blk.out) ∧
      (s.blk.fld (CSC.LINK_STS j.val) CSC.LINK_STS_LANES_UP ≠ 0 →
        (∃ lane m, b.out = s.blk.out ++ [.cascade j.val lane m]) ∧
        (b.csc.link j.val).nextOut = ((s.blk.csc.link j.val).nextOut + 1) % 65536)) ∧
    s.blk.changesOnly b [.csc, .out]) ∧
  (∀ (s : State) (j : Fin 4), ∃ b, Machine.exec (.cascadeResend j) s = .next { s with blk := b } ∧
    (s.blk.cascadeOn = false ∨ s.blk.fld (CSC.LINK_STS j.val) CSC.LINK_STS_LANES_UP = 0 ∨
      (∀ m ∈ (s.blk.csc.link j.val).window, s.blk.time.elapsed < m.sentAt + 4000) → b = s.blk) ∧
    (s.blk.cascadeOn = true → s.blk.fld (CSC.LINK_STS j.val) CSC.LINK_STS_LANES_UP ≠ 0 →
      (∃ m ∈ (s.blk.csc.link j.val).window, m.sentAt + 4000 ≤ s.blk.time.elapsed) →
      (∃ lane m, b.out = s.blk.out ++ [.cascade j.val lane m]) ∧
      b.cnt48 CSC.RETRANSMIT_LO = (s.blk.cnt48 CSC.RETRANSMIT_LO + 1) % 2 ^ 48) ∧
    s.blk.changesOnly b [.regs, .rings, .host, .lost, .csc, .out]) ∧
  (∀ s : State, ∃ b, Machine.exec .timeSyncSend s = .next { s with blk := b } ∧
    (s.blk.masterRuns = false ∨ s.blk.csc.syncTick = some s.blk.ticks → b = s.blk) ∧
    (s.blk.masterRuns = true → s.blk.csc.syncTick ≠ some s.blk.ticks → b.csc.syncTick = some s.blk.ticks ∧
      ∀ j, j < 4 → bitAt s.blk.seen j = true → j ≠ s.blk.myPos → s.blk.fld (CSC.LINK_STS j) CSC.LINK_STS_LANES_UP ≠ 0 →
        (b.csc.link j).nextOut = ((s.blk.csc.link j).nextOut + 1) % 65536) ∧
    s.blk.changesOnly b [.csc, .out]) ∧
  (∀ (s : State) (tag : BitVec 16), ∃ b, Machine.exec (.coordDeadline tag) s = .next { s with blk := b } ∧
    (s.blk.ancFind tag.toNat = none ∨ s.blk.mode.role ≠ roleMaster ∨ s.blk.mode.mode = .faultHold → b = s.blk) ∧
    (∀ e, s.blk.ancFind tag.toNat = some e → s.blk.nowTotal + 500000 < e.stamp → b = s.blk) ∧
    (∀ e j, s.blk.ancFind tag.toNat = some e → s.blk.mode.role = roleMaster → s.blk.mode.mode ≠ .faultHold →
      e.stamp ≤ s.blk.nowTotal + 500000 → e.state = .held → j < 4 → bitAt e.needed j = true →
      bitAt e.accepted j = false → b.ancFind tag.toNat = none ∧
      b.cnt48 ANC.ABANDONED_LO = (s.blk.cnt48 ANC.ABANDONED_LO + 1) % 2 ^ 48) ∧
    s.blk.changesOnly b [.regs, .rings, .host, .lost, .anchors, .csc, .out]) ∧
  ∀ (s : State) (tag : BitVec 16), ∃ b, Machine.exec (.unconfirmed tag) s = .next { s with blk := b } ∧
    (s.blk.ancFind tag.toNat = none ∨ s.blk.mode.role = roleMaster ∨ s.blk.mode.mode = .faultHold → b = s.blk) ∧
    (∀ e, s.blk.ancFind tag.toNat = some e → s.blk.nowTotal + 250000 < e.stamp → b = s.blk) ∧
    (∀ e, s.blk.ancFind tag.toNat = some e → s.blk.mode.role ≠ roleMaster → s.blk.mode.mode ≠ .faultHold →
      e.stamp ≤ s.blk.nowTotal + 250000 → e.state = .held → b.ancFind tag.toNat = none) ∧
    s.blk.changesOnly b [.regs, .rings, .host, .lost, .anchors]

/-- A message on a link without a lane up, or with the macro not running, changes nothing; one already received changes the link's own state alone; and the next in order, with none held
ahead of its turn, moves the link to the next LSEQ and acts: HELLO shows what the far end said (a reserved type counts BAD_MSG), TIME_SYNC from
the master is timed, DELAY_REQ is answered by a running master, DELAY_RESP gives OFFSET, PREPARE is checked and held or refused, ACCEPT marks
the position, REFUSE abandons the held entry, CONFIRM makes it pending, ABANDON drops it, and LEARN from the master takes its number. The
operating mode stays. -/
def Obligations.CascadeMessages : Prop :=
  ∀ (s : State) (j : Fin 4) (h : CHdr) (hm : HelloMsg) (t : Stamp) (lseq tag : BitVec 16) (ty : BitVec 4) (op : Word)
    (res : BitVec 8) (seq : Word) (key : BitVec 64) (value : BitVec 20) (n : BitVec 3) (age : Bool),
    (∀ c ∈ [Instr.cascadeHello j h hm, .timeSync j h t, .delayReq j h t, .delayResp j h t lseq, .prepare j h t ty op tag, .accept j h tag,
        .refuse j h tag res, .confirm j h tag, .abandon j h tag, .learn j h seq key value n age],
      ∃ b, Machine.exec c s = .next { s with blk := b } ∧
        (s.blk.cascadeOn = false ∨ s.blk.fld (CSC.LINK_STS j.val) CSC.LINK_STS_LANES_UP = 0 → b = s.blk) ∧
        (s.blk.flag (CSC.LINK_STS j.val) CSC.LINK_STS_UP = true →
          32768 ≤ (h.lseq.toNat + 65536 - (s.blk.csc.link j.val).nextIn) % 65536 → s.blk.changesOnly b [.csc]) ∧
        (s.blk.inTurn j.val h → (b.csc.link j.val).nextIn = ((s.blk.csc.link j.val).nextIn + 1) % 65536) ∧
        b.mode.mode = s.blk.mode.mode ∧ s.blk.changesOnly b cushionParts) ∧
    (s.blk.inTurn j.val h →
      (∃ b, Machine.exec (.cascadeHello j h hm) s = .next { s with blk := b } ∧
        (∀ e m p v, hm = .hello e m p v → b.flag (CSC.LINK_STS j.val) CSC.LINK_STS_HELLO_SEEN = true ∧
          (b.csc.link j.val).farMaster = m ∧ (b.csc.link j.val).farEligible = e) ∧
        (∀ k, hm = .reserved k → b.cnt48 CSC.BAD_MSG_LO = (s.blk.cnt48 CSC.BAD_MSG_LO + 1) % 2 ^ 48)) ∧
      (s.blk.mode.role = roleMember → s.blk.csc.masterPos = some j.val →
        (∃ b, Machine.exec (.timeSync j h t) s = .next { s with blk := b } ∧ b.csc.t1 = t.total ∧ b.csc.t2 = s.blk.nowTotal) ∧
        (lseq.toNat = s.blk.csc.reqSeq → ∃ b, Machine.exec (.delayResp j h t lseq) s = .next { s with blk := b } ∧
          b.reg CSC.OFFSET = BitVec.ofNat 32 (ofSigned 32 ((((s.blk.csc.t2 : Int) - s.blk.csc.t1) - ((t.total : Int) - s.blk.csc.t3)
            - toSigned 32 (s.blk.reg (CSC.ASYM j.val)).toNat) / 2)) &&& maskOf CSC.OFFSET) ∧
        ∃ b, Machine.exec (.learn j h seq key value n age) s = .next { s with blk := b } ∧ b.reg CSC.SYNC_SEQ = seq &&& maskOf CSC.SYNC_SEQ) ∧
      (s.blk.masterRuns = true → (∃ b, Machine.exec (.delayReq j h t) s = .next { s with blk := b } ∧
          ∃ lane m, b.out = s.blk.out ++ [.cascade j.val lane m]) ∧
        (∀ e, s.blk.ancFind tag.toNat = some e →
          (∃ b e', Machine.exec (.accept j h tag) s = .next { s with blk := b } ∧ b.ancFind tag.toNat = some e' ∧
            e'.accepted = bitOn e.accepted j.val) ∧
          (e.state = .held → ∃ b, Machine.exec (.refuse j h tag res) s = .next { s with blk := b } ∧ b.ancFind tag.toNat = none ∧
            b.cnt48 ANC.ABANDONED_LO = (s.blk.cnt48 ANC.ABANDONED_LO + 1) % 2 ^ 48))) ∧
      (s.blk.mode.role = roleMember →
        (∃ b, Machine.exec (.prepare j h t ty op tag) s = .next { s with blk := b } ∧
          ∀ e : Anchor, e = ⟨t.ns.toNat, t.sec.toNat, ty.toNat, true, op.toNat, tag.toNat, .held, 0, 0, false⟩ →
            b.anchors = if s.blk.ancCheck e false true = ancPosted then s.blk.anchors ++ [e] else s.blk.anchors) ∧
        ∀ e, s.blk.ancFind tag.toNat = some e →
          ∃ b, Machine.exec (.confirm j h tag) s = .next { s with blk := b } ∧ b.ancFind tag.toNat = some { e with state := .pending }) ∧
      ∀ e, s.blk.ancFind tag.toNat = some e → e.state = .held →
        ∃ b, Machine.exec (.abandon j h tag) s = .next { s with blk := b } ∧ b.ancFind tag.toNat = none)

/-- A Trasum request on a port that does not work changes nothing, and one that breaks the frame rules only counts RX_DISCARDED and sets its
cause. A good one repeating the SEQ and OP of the last one executed is answered with the kept response and counts DUPLICATES. Another is
executed and its response is kept and leaves last: DISCOVER and a reserved OP, READ, LOG_READ, FW_START, FW_BLOCK, FW_FINISH and FW_ABORT
with the status and ARG0 that the rule gives them. While a MAILBOX request waits, eight more wait behind it in order, and one beyond them is
answered BUSY. -/
def Obligations.TrasumRequests : Prop :=
  ∀ (s : State) (t : Trasum),
    (∀ p ∈ [(Instr.discover t none, opDiscover), (.trasumRead t, opRead), (.trasumWrite t, opWrite), (.fwStart t, opFwStart),
        (.fwBlock t, opFwBlock), (.fwFinish t, opFwFinish), (.fwAbort t, opFwAbort), (.logRead t, opLogRead), (.mailbox t, opMailbox)],
      ∃ b, Machine.exec p.1 s = .next { s with blk := b } ∧ (s.blk.svcRuns = false → b = s.blk) ∧
        (s.blk.svcRuns = true → s.blk.trasumBad p.2 t = true →
          b.reg SVC.RX_DISCARDED = BitVec.ofNat 32 (min ((s.blk.reg SVC.RX_DISCARDED).toNat + 1) 0xFFFFFFFF) ∧
          b.reg (HDR.INT_RAW 0x61) = (s.blk.reg (HDR.INT_RAW 0x61) ||| 2#32) &&& maskOf (HDR.INT_RAW 0x61) ∧ s.blk.changesOnly b [.regs]) ∧
        (s.blk.svcRuns = true → s.blk.trasumBad p.2 t = false →
          (∀ w, s.blk.fw.mbTrasum = some w →
            (s.blk.svc.queue.length < 8 → b.svc = { s.blk.svc with queue := s.blk.svc.queue ++ [(p.2, t)] } ∧ b.out = s.blk.out) ∧
            (8 ≤ s.blk.svc.queue.length → b.svc = s.blk.svc ∧
              b.out = s.blk.out ++ [.trasum (s.blk.trasumFrame p.2 t { status := 4 })]) ∧ s.blk.changesOnly b [.regs, .svc, .out]) ∧
          (s.blk.fw.mbTrasum = none →
            (∀ f, s.blk.svc.kept = some (t.seq.toNat, p.2, f) → b.out = s.blk.out ++ [.trasum f] ∧
              b.reg SVC.DUPLICATES = BitVec.ofNat 32 (min ((s.blk.reg SVC.DUPLICATES).toNat + 1) 0xFFFFFFFF) ∧
              s.blk.changesOnly b [.regs, .out]) ∧
            ((∀ k, s.blk.svc.kept = some k → k.1 ≠ t.seq.toNat ∨ k.2.1 ≠ p.2) → p.2 ≠ opMailbox →
              b.flag SVC.STS SVC.STS_PEER_SEEN = true ∧
              ∃ f, b.svc.kept = some (t.seq.toNat, p.2, f) ∧ b.out.getLast? = some (.trasum f)) ∧
            (p.2 ≠ opWrite → p.2 ≠ opMailbox →
              s.blk.changesOnly b [.regs, .latches, .rings, .host, .lost, .mode, .nv, .fw, .svc, .out])))) ∧
    (s.blk.svcRuns = true → s.blk.fw.mbTrasum = none → s.blk.svc.kept = none →
      (s.blk.trasumBad opDiscover t = false → ∃ b, Machine.exec (.discover t none) s = .next { s with blk := b } ∧
        b.out = s.blk.out ++ [.trasum (s.blk.trasumFrame opDiscover t s.blk.trasumDiscover)]) ∧
      (∀ o, badOpWf (some o) = true → s.blk.trasumBad o.toNat t = false →
        ∃ b, Machine.exec (.discover t (some o)) s = .next { s with blk := b } ∧
        b.out = s.blk.out ++ [.trasum (s.blk.trasumFrame o.toNat t { status := 1 })] ∧ s.blk.changesOnly b [.regs, .svc, .out]) ∧
      (s.blk.trasumBad opRead t = false → trasumCountBad t = true ∨ trasumRangeBad t = true →
        ∃ b, Machine.exec (.trasumRead t) s = .next { s with blk := b } ∧
        b.out = s.blk.out ++ [.trasum (s.blk.trasumFrame opRead t { status := if trasumCountBad t then 3 else 2 })] ∧
        s.blk.changesOnly b [.regs, .svc, .out]) ∧
      (s.blk.trasumBad opWrite t = false → trasumCountBad t = true ∨ t.len.toNat ≠ 4 * t.arg1.toNat ∨ trasumRangeBad t = true →
        ∃ b, Machine.exec (.trasumWrite t) s = .next { s with blk := b } ∧ s.blk.changesOnly b [.regs, .svc, .out] ∧
        b.out = s.blk.out ++ [.trasum (s.blk.trasumFrame opWrite t
          { status := if trasumCountBad t || t.len.toNat ≠ 4 * t.arg1.toNat then 3 else 2 })]) ∧
      (s.blk.trasumBad opFwStart t = false → ∃ b, Machine.exec (.fwStart t) s = .next { s with blk := b } ∧
        (s.blk.startRefusal t.arg0.toNat t.arg1.toNat = 0 → b.receiving = true ∧ b.fw.dlLen = t.arg0.toNat ∧
          b.fw.dlTarget = t.arg1.toNat ∧ b.fw.received = 0 ∧ b.out = s.blk.out ++ [.trasum (s.blk.trasumFrame opFwStart t {})]) ∧
        (s.blk.startRefusal t.arg0.toNat t.arg1.toNat ≠ 0 → b.nv = s.blk.nv ∧ b.fw = s.blk.fw ∧
          b.out = s.blk.out ++ [.trasum (s.blk.trasumFrame opFwStart t
            { status := 5, arg0 := s.blk.startRefusal t.arg0.toNat t.arg1.toNat })])) ∧
      (s.blk.trasumBad opFwBlock t = false → ∃ b, Machine.exec (.fwBlock t) s = .next { s with blk := b } ∧
        (t.len = 1024#16 → s.blk.receiving = true → s.blk.blockBad t.arg0.toNat 1024 = false →
          (∀ k, k < 1024 → Memory.read b.nv.mem (s.blk.fw.dlBase + t.arg0.toNat + k) = t.payload.getD k 0#8) ∧
          bitAt b.fw.received (t.arg0.toNat / 1024) = true ∧ b.out = s.blk.out ++ [.trasum (s.blk.trasumFrame opFwBlock t {})]) ∧
        (t.len ≠ 1024#16 ∨ s.blk.receiving = false ∨ s.blk.blockBad t.arg0.toNat 1024 = true → b.nv = s.blk.nv ∧ b.fw = s.blk.fw ∧
          b.out = s.blk.out ++ [.trasum (s.blk.trasumFrame opFwBlock t
            { status := if t.len ≠ 1024#16 then 3 else if s.blk.receiving then 2 else 5 })])) ∧
      (s.blk.trasumBad opFwAbort t = false → ∃ b, Machine.exec (.fwAbort t) s = .next { s with blk := b } ∧ b.receiving = false ∧
        b.nv = s.blk.nv ∧ b.out = s.blk.out ++ [.trasum (s.blk.trasumFrame opFwAbort t {})]) ∧
      (s.blk.trasumBad opFwFinish t = false → s.blk.receiving = false → ∃ b, Machine.exec (.fwFinish t) s = .next { s with blk := b } ∧
        b.out = s.blk.out ++ [.trasum (s.blk.trasumFrame opFwFinish t { status := 5, arg0 := 4 })] ∧ b.nv = s.blk.nv) ∧
      (s.blk.trasumBad opLogRead t = false → ∃ b, Machine.exec (.logRead t) s = .next { s with blk := b } ∧
        b.out = s.blk.out ++ [.trasum (s.blk.trasumFrame opLogRead t (s.blk.trasumLog t).2)] ∧ s.blk.changesOnly b [.regs, .svc, .out]) ∧
      (s.blk.trasumBad opMailbox t = false → s.blk.mode.mode = .spore ∨ s.blk.mbBusy = true ∨ t.len.toNat < 8 ∨ 136 < t.len.toNat →
        ∃ b, Machine.exec (.mailbox t) s = .next { s with blk := b } ∧ s.blk.changesOnly b [.regs, .svc, .out] ∧
        b.out = s.blk.out ++ [.trasum (s.blk.trasumFrame opMailbox t
          { status := if s.blk.mode.mode = .spore then 5 else if s.blk.mbBusy then 4 else 3 })]))

/-- I2C_READ, I2C_WRITE, MDIO_READ and MDIO_WRITE end the mailbox command that runs when it is theirs, and change nothing when it is not and no
MAILBOX request waits; boundary scan holds them. A length of 0 or over 128 ends an I2C command with BAD_ARG, a module that is absent or does not answer with its code,
all three as failed and without a transfer; else the command is done, a read has its bytes in MB_DATA, and a write has sent them. MAILBOX_TIMEOUT
ends a command that has run for 50 ms as failed with TIMEOUT. A MAILBOX request that waits for the command is then answered. -/
def Obligations.MailboxTransfers : Prop :=
  ∀ (s : State) (ans : BusAnswer),
    (∀ p ∈ [(Instr.i2cRead ans, 1), (.i2cWrite ans, 2), (.mdioRead ans, 3), (.mdioWrite ans, 4)],
      ∃ b, Machine.exec p.1 s = .next { s with blk := b } ∧
        (s.blk.fw.mbTrasum = none → s.blk.changesOnly b [.regs, .out] ∧
          (s.blk.mbBusy = false ∨ s.blk.fld FWM.MB_CMD FWM.MB_CMD_CMD ≠ p.2 ∨ s.blk.mode.scan = true → b = s.blk)) ∧
        (s.blk.fw.mbTrasum = none → s.blk.mode.scan = false → s.blk.mbBusy = true → s.blk.fld FWM.MB_CMD FWM.MB_CMD_CMD = p.2 →
          ∀ len : Nat, len = (if p.2 ≤ 2 then (s.blk.reg FWM.MB_ARG1).toNat / 256 % 256 else 2) →
          b.mbBusy = false ∧ bitAt (b.reg (HDR.INT_RAW 0x62)).toNat 2 = true ∧
          (len = 0 ∨ 128 < len → b.fld FWM.MB_STS FWM.MB_STS_STATE = 3 ∧ b.fld FWM.MB_STS FWM.MB_STS_CODE = 5 ∧ b.out = s.blk.out) ∧
          (len ≠ 0 → len ≤ 128 →
            (ans = .noModule → b.fld FWM.MB_STS FWM.MB_STS_STATE = 3 ∧ b.fld FWM.MB_STS FWM.MB_STS_CODE = 2 ∧ b.out = s.blk.out) ∧
            (ans = .nak → b.fld FWM.MB_STS FWM.MB_STS_STATE = 3 ∧ b.fld FWM.MB_STS FWM.MB_STS_CODE = 3 ∧ b.out = s.blk.out) ∧
            (∀ data, ans = .ok data → b.fld FWM.MB_STS FWM.MB_STS_STATE = 2 ∧ b.fld FWM.MB_STS FWM.MB_STS_CODE = 0 ∧
              b.mbData len = (if p.2 % 2 = 1 then bytesAt data 0 len else s.blk.mbData len) ∧
              ∃ unit addr, b.out = s.blk.out ++ [.bus unit addr (if p.2 % 2 = 1 then [] else s.blk.mbData len)]))) ∧
        (∀ t, s.blk.fw.mbTrasum = some t → s.blk.svcRuns = true → s.blk.svc.queue = [] → s.blk.mode.scan = false → s.blk.mbBusy = true →
          s.blk.fld FWM.MB_CMD FWM.MB_CMD_CMD = p.2 → b.fw.mbTrasum = none ∧
          ∃ f, b.svc.kept = some (t.seq.toNat, opMailbox, f) ∧ b.out.getLast? = some (.trasum f))) ∧
    ∃ b, Machine.exec .mailboxTimeout s = .next { s with blk := b } ∧
      (s.blk.fw.mbTrasum = none → s.blk.changesOnly b [.regs]) ∧
      (s.blk.fw.mbTrasum = none → s.blk.mbBusy = false ∨ s.blk.time.elapsed < s.blk.fw.mbAt + 50000000 → b = s.blk) ∧
      (s.blk.fw.mbTrasum = none → s.blk.mbBusy = true → s.blk.fw.mbAt + 50000000 ≤ s.blk.time.elapsed →
        b.fld FWM.MB_STS FWM.MB_STS_STATE = 3 ∧ b.fld FWM.MB_STS FWM.MB_STS_CODE = 4 ∧ b.mbBusy = false)

/-- POWER_STATE_ENTRY takes an unmoving group whose state its kind does not fix into the deepest state that it may enter, or, for want of retention
cells, sets RET_REFUSED; DEMAND starts the exit of a group below P0; WAKE_COMPLETE brings a moving group to P0 and counts a wake-up. SLICE_DRAIN_EXPIRY
of a slice that has drained for 10 ms empties its queues of every packet that is not on its way out and sets DRAINED; SLICE_RELEASE_APPLY, at a tick after the write, clears both bits of each slice whose
drain bit is 0. Where their conditions fail they change nothing. -/
def Obligations.PowerGroupsAndSlices : Prop :=
  (∀ (s : State) (g : Fin 46) (ready : Fin 5), ∃ b, Machine.exec (.powerStateEntry g ready) s = .next { s with blk := b } ∧
    (s.blk.railsOff = true ∨ s.blk.mode.mode = .faultHold ∨ s.blk.mode.mode = .bringUp ∨ (s.blk.groupFixed g.val).isSome = true ∨
      s.blk.flag (PWR.GSTS g.val) PWR.GSTS_MOVING = true → b = s.blk) ∧
    (s.blk.railsOff = false → s.blk.mode.mode ≠ .faultHold → s.blk.mode.mode ≠ .bringUp → s.blk.groupFixed g.val = none →
      s.blk.flag (PWR.GSTS g.val) PWR.GSTS_MOVING = false →
      ((∀ st, st ∈ [4, 3, 2, 1] → s.blk.mayEnter g.val ready.val st = false) → b = s.blk) ∧
      (s.blk.mayEnter g.val ready.val 4 = false → ∀ st, st ∈ [3, 2, 1] → s.blk.mayEnter g.val ready.val st = true →
        (∀ u, u ∈ [3, 2, 1] → st < u → s.blk.mayEnter g.val ready.val u = false) → b.fld (PWR.GSTS g.val) PWR.GSTS_STATE = st) ∧
      (s.blk.mayEnter g.val ready.val 4 = true → 20 ≤ g.val →
        (retCells g.val ≤ s.blk.poolFree (s.blk.fld PWR.RET_CFG PWR.RET_CFG_RET_POOL) →
          b.fld (PWR.GSTS g.val) PWR.GSTS_STATE = 4 ∧ b.fld PWR.RET_USED PWR.RET_USED_CELLS =
            (s.blk.fld PWR.RET_USED PWR.RET_USED_CELLS + retCells g.val) % 2 ^ PWR.RET_USED_CELLS.width) ∧
        (s.blk.poolFree (s.blk.fld PWR.RET_CFG PWR.RET_CFG_RET_POOL) < retCells g.val →
          b.flag (PWR.GSTS g.val) PWR.GSTS_RET_REFUSED = true))) ∧
    s.blk.changesOnly b [.regs, .rings, .host, .lost, .mode, .td, .pwr, .told, .draws]) ∧
  (∀ (s : State) (g : Fin 46), ∃ b, Machine.exec (.demand g) s = .next { s with blk := b } ∧
    (s.blk.mode.mode = .faultHold ∨ s.blk.railsOff = true ∨ (s.blk.groupFixed g.val).isSome = true ∨ s.blk.groupState g.val = 0 → b = s.blk) ∧
    (s.blk.mode.mode ≠ .faultHold → s.blk.railsOff = false → s.blk.groupFixed g.val = none → s.blk.groupState g.val ≠ 0 →
      b.flag (PWR.GSTS g.val) PWR.GSTS_MOVING = true ∧ b.flag (PWR.GSTS g.val) PWR.GSTS_RET_REFUSED = false ∧
      s.blk.regsKept b [PWR.GSTS g.val]) ∧ s.blk.changesOnly b [.regs]) ∧
  (∀ (s : State) (g : Fin 46), ∃ b, Machine.exec (.wakeComplete g) s = .next { s with blk := b } ∧
    (s.blk.railsOff = true ∨ s.blk.mode.mode = .faultHold ∨ s.blk.flag (PWR.GSTS g.val) PWR.GSTS_MOVING = false → b = s.blk) ∧
    (s.blk.railsOff = false → s.blk.mode.mode ≠ .faultHold → s.blk.flag (PWR.GSTS g.val) PWR.GSTS_MOVING = true →
      s.blk.mode.inProgress = none → b.fld (PWR.GSTS g.val) PWR.GSTS_STATE = 0 ∧ b.flag (PWR.GSTS g.val) PWR.GSTS_MOVING = false ∧
        (b.pwrGroup g.val).wakes = ((s.blk.pwrGroup g.val).wakes + 1) % 2 ^ 48 ∧
        b.fld PWR.RET_USED PWR.RET_USED_CELLS = (if s.blk.fld (PWR.GSTS g.val) PWR.GSTS_STATE = 4 then
          s.blk.fld PWR.RET_USED PWR.RET_USED_CELLS - retCells g.val else s.blk.fld PWR.RET_USED PWR.RET_USED_CELLS) ∧
        b.mode = s.blk.mode) ∧
    s.blk.changesOnly b [.regs, .rings, .host, .lost, .mode, .td, .pwr]) ∧
  (∀ (s : State) (k : Fin 8), ∃ b, Machine.exec (.sliceDrainExpiry k) s = .next { s with blk := b } ∧
    (s.blk.mode.mode = .faultHold ∨ bitAt (s.blk.reg PWR.SLICE_STS).toNat k.val = false ∨ bitAt (s.blk.reg PWR.SLICE_STS).toNat (8 + k.val) = true ∨
      bitAt (s.blk.reg PWR.SLICE_DRAIN).toNat k.val = false ∨
      s.blk.time.elapsed < NMap.get 0 s.blk.pwr.drainAt k.val + 10000000 → b = s.blk) ∧
    (s.blk.mode.mode ≠ .faultHold → bitAt (s.blk.reg PWR.SLICE_STS).toNat k.val = true → bitAt (s.blk.reg PWR.SLICE_STS).toNat (8 + k.val) = false →
      bitAt (s.blk.reg PWR.SLICE_DRAIN).toNat k.val = true → NMap.get 0 s.blk.pwr.drainAt k.val + 10000000 ≤ s.blk.time.elapsed →
      bitAt (b.fld PWR.SLICE_STS PWR.SLICE_STS_DRAINED) k.val = true ∧ ∀ q ∈ s.blk.sliceQueues k.val, b.queuePackets q = b2n (b.queue q).sending) ∧
    s.blk.changesOnly b [.regs, .rings, .host, .lost, .mode, .fd, .td, .pwr, .out]) ∧
  ∀ s : State, ∃ b, Machine.exec .sliceReleaseApply s = .next { s with blk := b } ∧
    (s.blk.mode.mode = .faultHold → b = s.blk) ∧
    (s.blk.mode.mode ≠ .faultHold → ∀ k, k < 8 → bitAt (s.blk.reg PWR.SLICE_DRAIN).toNat k = false →
      (NMap.get 0 s.blk.pwr.releaseAt k < s.blk.ticks →
        bitAt (b.fld PWR.SLICE_STS PWR.SLICE_STS_DRAINED) k = false ∧ bitAt (b.fld PWR.SLICE_STS PWR.SLICE_STS_DRAINING) k = false) ∧
      (s.blk.ticks ≤ NMap.get 0 s.blk.pwr.releaseAt k →
        bitAt (b.fld PWR.SLICE_STS PWR.SLICE_STS_DRAINED) k = bitAt (s.blk.fld PWR.SLICE_STS PWR.SLICE_STS_DRAINED) k ∧
        bitAt (b.fld PWR.SLICE_STS PWR.SLICE_STS_DRAINING) k = bitAt (s.blk.fld PWR.SLICE_STS PWR.SLICE_STS_DRAINING) k)) ∧
    s.blk.changesOnly b [.regs, .rings, .host, .lost, .mode, .pwr]

/-- Losing the FD or TD reference is a fatal error with the core on; losing the time reference alone changes nothing;
a bridge wire group's forwarded clock losing lock sets DRIFT. A cascade link shows UP and SEEN as its lanes and HELLO say, and one without HELLO
for 1 ms goes down. The service port's link shows in LINK_UP. A confirmed image's settings go to the inactive copy. A sensor sample, 125 µs or more after the last, stores the 25
temperatures and the gate of R4; without a sensor at the shutdown or hard-off limits the mode stays, two samples at 105 °C raise limit 1 and two
at 103 °C or less clear it; two at 115 °C bring FAULT-HOLD. -/
def Obligations.ClocksLinksAndTemperatures : Prop :=
  (∀ (s : State) (r : RefClk), ∃ b, Machine.exec (.refclkLoss r) s = .next { s with blk := b } ∧ (r = .time → b = s.blk) ∧
    (r = .fd ∨ r = .td → (s.blk.mode.mode = .faultHold ∨ coreOn s.blk.mode.mode = false → b = s.blk) ∧
      (s.blk.mode.mode ≠ .faultHold → coreOn s.blk.mode.mode = true →
        b.mode.mode = .faultHold ∧ b.mode.prev = s.blk.mode.mode ∧ b.mode.cause = 8 ∧ b.out = s.blk.out ++ [.aer])) ∧
    s.blk.changesOnly b [.regs, .rings, .host, .lost, .mode, .csc, .fd, .td, .line, .d5, .pwr, .draws, .out]) ∧
  (∀ (s : State) (g : Fin 32), ∃ b, Machine.exec (.forwardedClockLockLoss g) s = .next { s with blk := b } ∧
    (coreOn s.blk.mode.mode = false ∨ s.blk.mode.mode = .faultHold → b = s.blk) ∧
    (coreOn s.blk.mode.mode = true → s.blk.mode.mode ≠ .faultHold → b.flag BRG.STS BRG.STS_DRIFT = true ∧
      (s.blk.flag BRG.STS BRG.STS_DRIFT = false → b.fld BRG.STS BRG.STS_FIRST_GROUP = g.val ∧ b.fld BRG.STS BRG.STS_FIRST_CAUSE = 6) ∧
      (s.blk.flag BRG.STS BRG.STS_DRIFT = true → b.fld BRG.STS BRG.STS_FIRST_GROUP = s.blk.fld BRG.STS BRG.STS_FIRST_GROUP) ∧
      b.flag BRG.CTL BRG.CTL_WIDTH_REQ = false ∧ s.blk.regsKept b [BRG.STS, BRG.CTL]) ∧ s.blk.changesOnly b [.regs, .fd]) ∧
  (∀ (s : State) (j : Fin 4) (lanes : BitVec 2), ∃ b, Machine.exec (.cascadeLaneStateChange j lanes) s = .next { s with blk := b } ∧
    (s.blk.cascadeOn = false → b = s.blk) ∧
    (s.blk.cascadeOn = true → b.fld (CSC.LINK_STS j.val) CSC.LINK_STS_LANES_UP = lanes.toNat ∧
      (b.flag (CSC.LINK_STS j.val) CSC.LINK_STS_UP = true ↔
        lanes ≠ 0#2 ∧ s.blk.flag (CSC.LINK_STS j.val) CSC.LINK_STS_HELLO_SEEN = true)) ∧
    s.blk.changesOnly b [.regs, .rings, .host, .lost, .csc]) ∧
  (∀ (s : State) (j : Fin 4), ∃ b, Machine.exec (.cascadeLinkHelloLoss j) s = .next { s with blk := b } ∧
    (s.blk.cascadeOn = false ∨ s.blk.time.elapsed < (s.blk.csc.link j.val).heardAt + 1000000 → b = s.blk) ∧
    (s.blk.cascadeOn = true → (s.blk.csc.link j.val).heardAt + 1000000 ≤ s.blk.time.elapsed → b.flag (CSC.LINK_STS j.val) CSC.LINK_STS_UP = false ∧
      b.flag (CSC.LINK_STS j.val) CSC.LINK_STS_HELLO_SEEN = false ∧
      (s.blk.flag (CSC.LINK_STS j.val) CSC.LINK_STS_UP = true → bitAt b.seen j.val = false ∧ b.csc.link j.val = {} ∧
        bitAt (b.reg (HDR.INT_RAW 6)).toNat 1 = true)) ∧
    s.blk.changesOnly b [.regs, .rings, .host, .lost, .csc]) ∧
  (∀ (s : State) (up : Bool), ∃ b, Machine.exec (.servicePortLinkChange up) s = .next { s with blk := b } ∧
    (s.blk.mode.mode = .unpowered ∨ s.blk.flag SVC.STS SVC.STS_LINK_UP = up → b = s.blk) ∧
    (s.blk.mode.mode ≠ .unpowered → b.flag SVC.STS SVC.STS_LINK_UP = up) ∧
    (s.blk.mode.mode ≠ .unpowered → s.blk.flag SVC.STS SVC.STS_LINK_UP ≠ up → bitAt (b.reg (HDR.INT_RAW 0x61)).toNat 0 = true) ∧
    s.blk.regsKept b [SVC.STS, HDR.INT_RAW 0x61] ∧ s.blk.changesOnly b [.regs]) ∧
  (∀ (s : State) (recs : List Byte), ∃ b, Machine.exec (.settingsSave recs) s = .next { s with blk := b } ∧
    (s.blk.flag FWM.FW_STS FWM.FW_STS_TRIAL = true ∨ s.blk.flag FWM.FW_STS FWM.FW_STS_QUARANTINE = true ∨ s.blk.fwRuns = false → b = s.blk) ∧
    (s.blk.flag FWM.FW_STS FWM.FW_STS_TRIAL = false → s.blk.flag FWM.FW_STS FWM.FW_STS_QUARANTINE = false → s.blk.fwRuns = true →
      b.fw.settings = recs ∧ b.fw.format = s.blk.fw.settingsWrite ∧
      ∃ c, b.nv.settings (1 - s.blk.nv.boot.settingsActive) = some c ∧ c.records = recs ∧ c.format = s.blk.fw.settingsWrite) ∧
    s.blk.changesOnly b [.nv, .fw]) ∧
  ∀ (s : State) (v : Vector (BitVec 16) 25) (now : List Int), now = v.toList.map (fun x => x.toInt) →
    ∃ b, Machine.exec (.sensorSample v) s = .next { s with blk := b } ∧ (s.blk.mode.mode = .unpowered ∨ s.blk.sampleDue = false → b = s.blk) ∧
      (s.blk.mode.mode ≠ .unpowered → s.blk.sampleDue = true → b.pwr.sampleAt = some s.blk.time.elapsed ∧
        (hardOffSensor now = none → shutdownSensor s.blk.temps now = none → b.temps = now ∧
          b.mode = { s.blk.mode with inRange := gateOpen now, tooCold := gateCold now } ∧
          (firstPast (fun x => 105 * 8 ≤ x) s.blk.temps now ≠ none → b.thmNow 1 = true) ∧
          (allNear (fun x => x ≤ 103 * 8) s.blk.temps now = true → b.thmNow 1 = false) ∧
          s.blk.changesOnly b [.regs, .temps, .mode, .rings, .host, .lost, .pwr]) ∧
        (hardOffSensor now = none → shutdownSensor s.blk.temps now ≠ none → b.temps = now ∧
          b.flag THM.STS THM.STS_SHUTDOWN = true ∧ (coreOn s.blk.mode.mode = true → b.mode.mode = .faultHold)))

/-- TICK with the core on lets network time reach the next 125 µs boundary, counts one more tick, and raises the drift event for the wire group
that the drift test names; without the core it changes nothing. BRIDGE_SLOT sends one chunk against a credit, the skid buffer's oldest before
the oldest of those that wait, which a packet in departure refills where none waits and the skid buffer does not drain, numbered in turn; without a credit a waiting chunk goes to the skid buffer, the stall is counted and the
drift event fires; in FAULT-HOLD nothing changes. -/
def Obligations.TicksAndBridgeSlots : Prop :=
  (∀ (s : State) (drift : Option (BitVec 5)), ∃ b, Machine.exec (.tick drift) s = .next { s with blk := b } ∧
    (coreOn s.blk.mode.mode = false → b = s.blk) ∧
    (coreOn s.blk.mode.mode = true → b.ticks = s.blk.ticks + 1 ∧
      b.time.elapsed = s.blk.time.elapsed + s.blk.cyclesFor s.blk.toBoundary ∧ b.mode = s.blk.mode ∧
      ∀ g, drift = some g → b.flag BRG.STS BRG.STS_DRIFT = true) ∧
    s.blk.changesOnly b [.regs, .rings, .host, .lost, .time, .fw, .fd, .td, .tbl, .d5, .cnt, .told, .draws, .out]) ∧
  ∀ (s : State) (d : Fin 2) (g : Fin 32) (pick : Nat) (seen : Seen) (y : Block) (x : Group),
    y = (if 0 < (s.blk.group d.val g.val).credits ∧ (s.blk.group d.val g.val).skid ≠ [] then s.blk
      else s.blk.refill d.val g.val pick seen.norm) → x = y.group d.val g.val →
    ∃ b, Machine.exec (.bridgeSlot d g pick seen) s = .next { s with blk := b } ∧ (s.blk.mode.mode = .faultHold → b = s.blk) ∧
      (s.blk.mode.mode ≠ .faultHold →
        (∀ c r, x.skid = c :: r → 0 < x.credits → b.group d.val g.val = { x with
          skid := r, flight := x.flight ++ [{ c with seq := x.seq }], credits := x.credits - 1, seq := (x.seq + 1) % 2 ^ 16 }) ∧
        (∀ c r, x.skid = [] → x.waiting = c :: r → 0 < x.credits → b.group d.val g.val = { x with
          waiting := r, flight := x.flight ++ [{ c with seq := x.seq }], credits := x.credits - 1, seq := (x.seq + 1) % 2 ^ 16 }) ∧
        (∀ c r, x.waiting = c :: r → x.credits = 0 →
          b.group d.val g.val = (if x.skid.length < 16 then { x with waiting := r, skid := x.skid ++ [c] } else x) ∧
          b.fd.bridge.stallCnt = min (y.fd.bridge.stallCnt + 1) 0xFFFFFFFF ∧ b.flag BRG.STS BRG.STS_DRIFT = true) ∧
        (x.waiting = [] → x.credits = 0 → b = y)) ∧
      (d = 0 ∨ (s.blk.group d.val g.val).waiting ≠ [] ∨ (s.blk.group d.val g.val).departing = [] → y = s.blk) ∧
      (y = s.blk → ∀ d' g' : Nat, 32 * d' + g' ≠ 32 * d.val + g.val → b.group d' g' = s.blk.group d' g') ∧
      s.blk.changesOnly b [.regs, .rings, .host, .lost, .fd, .td, .cnt, .told]

/-- On an accepting page with no command under way, and with the register's other command bits written 0: PROF_READ and SCH_READ load the words
of the selected record into their registers, and PROF_WRITE of a storage profile, SCH_WRITE of a shadow shaper profile and PAT_WRITE store
theirs; a storage profile that breaks its rules is refused with its first bad word; CLEAR_WM re-arms a queue's watermark and CLEAR_WRAP clears
its wrap mark; SCH_COPY and COPY give the shadow set the active one's records; PAT_READ loads the shadow pattern; COUNTER_READ loads a pair's
value, and the counter commands report done. Each of QMG's and SCH's is under way for at most 1 µs and CNT's for at most 5 µs, and one written
while another is under way is discarded and captured as busy. -/
def Obligations.RecordCommands : Prop :=
  (∀ (s : State) (w : RegWrite) (kind i : Nat), s.blk.accepts w.src QMG.PROF_CMD →
    kind = s.blk.fld QMG.PROF_SEL QMG.PROF_SEL_KIND → i = s.blk.fld QMG.PROF_SEL QMG.PROF_SEL_INDEX → w.value &&& 0xF#32 = 0#32 →
    (s.blk.profBusy = true → ∀ c ∈ [Instr.profRead w, .profWrite w, .clearWm w, .clearWrap w],
      ∃ b, Machine.exec c s = .next { s with blk := b } ∧ b.flag (HDR.ERR_INFO 0x80) HDR.ERR_INFO_VALID = true ∧
        (s.blk.flag (HDR.ERR_INFO 0x80) HDR.ERR_INFO_VALID = false → b.fld (HDR.ERR_INFO 0x80) HDR.ERR_INFO_CODE = 3) ∧
        s.blk.changesOnly b [.regs, .armed, .latches, .rings, .host, .lost]) ∧
    (s.blk.profBusy = false →
    (∀ c ∈ [Instr.profRead w, .profWrite w, .clearWm w, .clearWrap w], ∃ b, Machine.exec c s = .next { s with blk := b } ∧
      s.blk.time.elapsed ≤ b.td.store.profUntil ∧ b.td.store.profUntil ≤ s.blk.time.elapsed + 1000) ∧
    (∃ b, Machine.exec (.profRead w) s = .next { s with blk := b } ∧
      (profIndexOk kind i = true → b.fld QMG.PROF_STS QMG.PROF_STS_STATE = 2 ∧
        ∀ k, k < 8 → b.reg (QMG.PROF_W k) = BitVec.ofNat 32 ((s.blk.profWords kind i).getD k 0)) ∧
      (profIndexOk kind i = false → b.fld QMG.PROF_STS QMG.PROF_STS_STATE = 3) ∧ s.blk.changesOnly b [.regs, .armed, .latches, .td, .draws]) ∧
    (∃ b, Machine.exec (.profWrite w) s = .next { s with blk := b } ∧
      (kind = 1 → i < 256 → ∀ ws : List Nat, ws = (upTo 8).map (fun k => profMask 1 k (s.blk.reg (QMG.PROF_W k)).toNat) →
        (storeProfBad ws = none → b.fld QMG.PROF_STS QMG.PROF_STS_STATE = 2 ∧
          NMap.get storeProfReset b.td.store.storeProf i = ws.take 5) ∧
        (∀ k, storeProfBad ws = some k → b.fld QMG.PROF_STS QMG.PROF_STS_STATE = 3 ∧
          b.fld QMG.PROF_STS QMG.PROF_STS_FAIL_WORD = k ∧ b.td = { s.blk.td with store := { s.blk.td.store with profUntil := b.td.store.profUntil } })) ∧
      (profIndexOk kind i = false → b.fld QMG.PROF_STS QMG.PROF_STS_STATE = 3 ∧ b.td = { s.blk.td with store := { s.blk.td.store with profUntil := b.td.store.profUntil } }) ∧
      s.blk.changesOnly b [.regs, .armed, .latches, .rings, .host, .lost, .td, .draws]) ∧
    (∃ b, Machine.exec (.clearWm w) s = .next { s with blk := b } ∧
      (kind = 3 → i < 1048576 → b.queue i = { s.blk.queue i with crossed := false, fellTold := false }) ∧
      (kind ≠ 3 → b.td = { s.blk.td with store := { s.blk.td.store with profUntil := b.td.store.profUntil } } ∧ b.fld QMG.PROF_STS QMG.PROF_STS_STATE = 3) ∧ s.blk.changesOnly b [.regs, .armed, .latches, .td, .draws]) ∧
    ∃ b, Machine.exec (.clearWrap w) s = .next { s with blk := b } ∧
      (kind = 3 → i < 1048576 → b.queue i = { s.blk.queue i with dropWrap := false }) ∧
      (kind ≠ 3 → b.td = { s.blk.td with store := { s.blk.td.store with profUntil := b.td.store.profUntil } } ∧ b.fld QMG.PROF_STS QMG.PROF_STS_STATE = 3) ∧ s.blk.changesOnly b [.regs, .armed, .latches, .td, .draws])) ∧
  (∀ (s : State) (w : RegWrite) (k i : Nat), s.blk.accepts w.src SCH.CMD →
    k = s.blk.schKind → i = s.blk.schIndex → fldGet SCH.CMD_READ w.value = 0 → fldGet SCH.CMD_WRITE w.value = 0 →
    fldGet SCH.CMD_COPY w.value = 0 →
    (s.blk.schBusy = true → ∀ c ∈ [Instr.schRead w, .schWrite w, .schCopy w],
      ∃ b, Machine.exec c s = .next { s with blk := b } ∧ b.flag (HDR.ERR_INFO 0x82) HDR.ERR_INFO_VALID = true ∧
        (s.blk.flag (HDR.ERR_INFO 0x82) HDR.ERR_INFO_VALID = false → b.fld (HDR.ERR_INFO 0x82) HDR.ERR_INFO_CODE = 3) ∧
        s.blk.changesOnly b [.regs, .armed, .latches, .rings, .host, .lost]) ∧
    (s.blk.schBusy = false →
    (∀ c ∈ [Instr.schRead w, .schWrite w, .schCopy w], ∃ b, Machine.exec c s = .next { s with blk := b } ∧
      s.blk.time.elapsed ≤ b.td.sched.cmdUntil ∧ b.td.sched.cmdUntil ≤ s.blk.time.elapsed + 1000) ∧
    (∃ b, Machine.exec (.schRead w) s = .next { s with blk := b } ∧
      (s.blk.schIndexOk k i = true → k < 9 → b.fld SCH.STS SCH.STS_STATE = 2 ∧
        ∀ j, j < 4 → b.reg (SCH.W j) = BitVec.ofNat 32 ((s.blk.schWords k i).getD j 0)) ∧
      (s.blk.schIndexOk k i = false → b.fld SCH.STS SCH.STS_STATE = 3) ∧
      s.blk.changesOnly b [.regs, .armed, .latches, .td, .draws]) ∧
    (∃ b, Machine.exec (.schWrite w) s = .next { s with blk := b } ∧
      (k = 5 → s.blk.schIndexOk 5 i = true → s.blk.shadowHeld = false → b.fld SCH.STS SCH.STS_STATE = 2 ∧
        NMap.get [0, 0] b.td.sched.profiles ((1 - s.blk.profSet) * 2 ^ 14 + i) =
          [(s.blk.reg (SCH.W 0)).toNat, (s.blk.reg (SCH.W 1)).toNat]) ∧
      (s.blk.schIndexOk k i = false → b.td = { s.blk.td with sched := { s.blk.td.sched with cmdUntil := b.td.sched.cmdUntil } })) ∧
    ∃ b, Machine.exec (.schCopy w) s = .next { s with blk := b } ∧
      (s.blk.shadowHeld = false → b.fld SCH.STS SCH.STS_STATE = 2 ∧ ∀ p, p < 2 ^ 14 →
        NMap.get [0, 0] b.td.sched.profiles ((1 - s.blk.profSet) * 2 ^ 14 + p) =
          NMap.get [0, 0] s.blk.td.sched.profiles (s.blk.profSet * 2 ^ 14 + p)) ∧
      (s.blk.shadowHeld = true → b.td = { s.blk.td with sched := { s.blk.td.sched with cmdUntil := b.td.sched.cmdUntil } }))) ∧
  (∀ (s : State) (w : RegWrite) (i : Nat), s.blk.accepts w.src PAY.PAT_CMD → s.blk.flag PAY.CTL PAY.CTL_COMMIT = false →
    i = s.blk.payShadow * 8192 + s.blk.fld PAY.PAT_INDEX PAY.PAT_INDEX_INDEX → w.value &&& 7#32 = 0#32 →
    (∃ b, Machine.exec (.patWrite w) s = .next { s with blk := b } ∧
      NMap.get noPattern b.fd.patterns i = (upTo 9).map (fun k => s.blk.reg (PAY.PAT_W0 + 4 * k)) ∧
      (∀ j, j ≠ i → NMap.get noPattern b.fd.patterns j = NMap.get noPattern s.blk.fd.patterns j) ∧
      s.blk.regsKept b [PAY.PAT_CMD] ∧ s.blk.changesOnly b [.regs, .armed, .latches, .fd]) ∧
    (∃ b, Machine.exec (.patRead w) s = .next { s with blk := b } ∧
      (∀ k, k < 9 → b.reg (PAY.PAT_W0 + 4 * k) =
        (NMap.get noPattern s.blk.fd.patterns i).getD k 0 &&& maskOf (PAY.PAT_W0 + 4 * k)) ∧
      s.blk.changesOnly b [.regs, .armed, .latches]) ∧
    ∃ b, Machine.exec (.copy w) s = .next { s with blk := b } ∧
      (∀ p, p < 8192 → NMap.get noPattern b.fd.patterns (s.blk.payShadow * 8192 + p) =
        NMap.get noPattern s.blk.fd.patterns ((1 - s.blk.payShadow) * 8192 + p)) ∧
      s.blk.regsKept b [PAY.PAT_CMD] ∧ s.blk.changesOnly b [.regs, .armed, .latches, .fd]) ∧
  ∀ (s : State) (w : RegWrite) (n : Nat), s.blk.accepts w.src CNT.OP_CMD →
    n = s.blk.fld CNT.OP_INDEX CNT.OP_INDEX_INDEX → w.value &&& 7#32 = 0#32 →
    (s.blk.cntBusy = true → ∀ c ∈ [Instr.counterRead w, .counterClear w, .counterClearWrap w],
      ∃ b, Machine.exec c s = .next { s with blk := b } ∧ b.flag (HDR.ERR_INFO 0x85) HDR.ERR_INFO_VALID = true ∧
        (s.blk.flag (HDR.ERR_INFO 0x85) HDR.ERR_INFO_VALID = false → b.fld (HDR.ERR_INFO 0x85) HDR.ERR_INFO_CODE = 3) ∧
        s.blk.changesOnly b [.regs, .armed, .latches, .rings, .host, .lost]) ∧
    (s.blk.cntBusy = false →
    (∀ c ∈ [Instr.counterRead w, .counterClear w, .counterClearWrap w], ∃ b, Machine.exec c s = .next { s with blk := b } ∧
      s.blk.time.elapsed ≤ b.cnt.opUntil ∧ b.cnt.opUntil ≤ s.blk.time.elapsed + 5000) ∧
    (∃ b, Machine.exec (.counterRead w) s = .next { s with blk := b } ∧ b.fld CNT.OP_STS CNT.OP_STS_STATE = 2 ∧
      (n < s.blk.fld CNT.COUNT CNT.COUNT_COUNT →
        b.reg CNT.RD_BYTES_LO = BitVec.ofNat 32 (s.blk.pairNow n (s.blk.d5Take (s.blk.pairAddr n) 16).2).1 ∧
        b.reg CNT.RD_BYTES_HI = BitVec.ofNat 32 ((s.blk.pairNow n (s.blk.d5Take (s.blk.pairAddr n) 16).2).1 / 2 ^ 32) ∧
        b.reg CNT.RD_PKTS_LO = BitVec.ofNat 32 (s.blk.pairNow n (s.blk.d5Take (s.blk.pairAddr n) 16).2).2.1) ∧
      s.blk.changesOnly b [.regs, .armed, .latches, .rings, .host, .lost, .d5, .cnt, .draws]) ∧
    (∃ b, Machine.exec (.counterClear w) s = .next { s with blk := b } ∧ b.fld CNT.OP_STS CNT.OP_STS_STATE = 2 ∧
      (s.blk.fld CNT.COUNT CNT.COUNT_COUNT ≤ n ∨ s.blk.mode.mode = .faultHold → s.blk.changesOnly b [.regs, .armed, .latches, .cnt, .draws]) ∧
      (n < s.blk.fld CNT.COUNT CNT.COUNT_COUNT → s.blk.mode.mode ≠ .faultHold → s.blk.flag CNT.CTL CNT.CTL_ENABLE = true →
        ∀ r ∈ b.cnt.queue, r.pair ≠ n)) ∧
    ∃ b, Machine.exec (.counterClearWrap w) s = .next { s with blk := b } ∧ b.fld CNT.OP_STS CNT.OP_STS_STATE = 2 ∧ b.tbl = s.blk.tbl ∧
      b.cnt.queue = s.blk.cnt.queue ∧
      (s.blk.fld CNT.COUNT CNT.COUNT_COUNT ≤ n ∨ s.blk.mode.mode = .faultHold → s.blk.changesOnly b [.regs, .armed, .latches, .cnt, .draws]))

/-- With the frond die running, GO at 0 and no operation under way, each table operation started by LKP.OP_CTL completes with its RESULT: NOP
changes no table; a read returns the entry, route or word held; an update, deletion or insertion of a key that is absent or already present
says so and changes no table; DIRECT_WRITE stores its word; a route added is held afterwards and one deleted is not. Each TCAM operation
started by TCM.OP_CTL does likewise: INSERT puts its entry in the row placed for it, DELETE frees the entry's row, reads and statistics change
no row. START, NEXT and STOP begin, step and end a step-through: NEXT finds the next entry that matches, or whose
stored copy cannot be verified, and with none left says DONE. -/
def Obligations.TableAndTcamOperations : Prop :=
  (∀ (s : State) (w : RegWrite) (rs : List Region) (plen key data : Nat),
    s.blk.accepts w.src LKP.OP_CTL → s.blk.flag LKP.OP_CTL LKP.OP_CTL_GO = false → s.blk.fdLive = true → s.blk.tbl.moving = [] →
    s.blk.tbl.movingReg = false →
    rs = s.blk.opTable (decide (fldGet LKP.OP_CTL_IMAGE w.value ≠ 0)) (s.blk.fld LKP.OP_TABLE LKP.OP_TABLE_TABLE_ID) →
    plen = fldGet LKP.OP_CTL_PREFIX_LEN w.value → key = s.blk.regsBe (LKP.OP_KEY 0) 6 → data = s.blk.regsLe (LKP.OP_DATA 0) 8 →
    (∀ c ∈ [Instr.nop w, .emInsert w, .emUpdate w, .emDelete w, .emRead w, .routeAdd w, .routeDelete w, .routeRead w, .directWrite w,
        .directRead w, .tableClear w, .tableStats w], ∃ b, Machine.exec c s = .next { s with blk := b } ∧
      (b.tbl.moving = [] → b.fld LKP.OP_STS LKP.OP_STS_STATE = 2 ∧ b.flag LKP.OP_CTL LKP.OP_CTL_GO = false ∧
        bitAt (b.reg (HDR.INT_RAW 0x22)).toNat 0 = true) ∧
      s.blk.changesOnly b [.regs, .armed, .latches, .rings, .host, .lost, .tbl, .d5, .cnt, .draws]) ∧
    (∃ b, Machine.exec (.nop w) s = .next { s with blk := b } ∧ b.fld LKP.OP_STS LKP.OP_STS_RESULT = 0 ∧ b.tbl.sram = s.blk.tbl.sram ∧
      b.tbl.lpm = s.blk.tbl.lpm) ∧
    (∀ wide, emKind rs = some wide →
      (∃ b, Machine.exec (.emRead w) s = .next { s with blk := b } ∧ b.tbl.sram = s.blk.tbl.sram ∧
        (s.blk.emValue wide rs (emKeyOf wide key) = none → b.fld LKP.OP_STS LKP.OP_STS_RESULT = 2) ∧
        ∀ v, s.blk.emValue wide rs (emKeyOf wide key) = some v → b.fld LKP.OP_STS LKP.OP_STS_RESULT = 0 ∧
          ∀ i, i < 8 → b.reg (LKP.OP_DATA i) = BitVec.ofNat 32 (emData wide v >>> (32 * i))) ∧
      (∀ c ∈ [Instr.emUpdate w, .emDelete w], ∃ b, Machine.exec c s = .next { s with blk := b } ∧
        (s.blk.emValue wide rs (emKeyOf wide key) = none → b.fld LKP.OP_STS LKP.OP_STS_RESULT = 2 ∧ b.tbl.sram = s.blk.tbl.sram) ∧
        (s.blk.emValue wide rs (emKeyOf wide key) ≠ none → b.fld LKP.OP_STS LKP.OP_STS_RESULT = 0)) ∧
      (∃ b, Machine.exec (.emInsert w) s = .next { s with blk := b } ∧
        (s.blk.emValue wide rs (emKeyOf wide key) ≠ none → b.fld LKP.OP_STS LKP.OP_STS_RESULT = 1 ∧ b.tbl.sram = s.blk.tbl.sram) ∧
        (s.blk.emValue wide rs (emKeyOf wide key) = none → b.tbl.moving = [] → b.fld LKP.OP_STS LKP.OP_STS_RESULT = 0 ∨
          b.fld LKP.OP_STS LKP.OP_STS_RESULT = 3)) ∧
      ∀ c ∈ [Instr.tableClear w, .tableStats w], ∃ b, Machine.exec c s = .next { s with blk := b } ∧
        b.fld LKP.OP_STS LKP.OP_STS_RESULT = 0) ∧
    (isDirect rs = true → ∀ a, seqWord (copyOf rs ((copiesOf rs).headD 0)) (key % 2 ^ 32) = some a →
      (∃ b, Machine.exec (.directWrite w) s = .next { s with blk := b } ∧ b.fld LKP.OP_STS LKP.OP_STS_RESULT = 0 ∧
        b.sram a = BitVec.ofNat 256 data) ∧
      ∃ b, Machine.exec (.directRead w) s = .next { s with blk := b } ∧ b.fld LKP.OP_STS LKP.OP_STS_RESULT = 0 ∧
        b.tbl.sram = s.blk.tbl.sram ∧ ∀ i, i < 8 → b.reg (LKP.OP_DATA i) = BitVec.ofNat 32 ((s.blk.sram a).toNat >>> (32 * i))) ∧
    (∀ v6, lpmKind rs = some v6 →
      (∃ b, Machine.exec (.routeAdd w) s = .next { s with blk := b } ∧ (b.fld LKP.OP_STS LKP.OP_STS_RESULT = 0 →
        NMap.find? (b.lpm rs).routes (routeKey (routeOf v6 plen key)) = some (data % 2 ^ 64))) ∧
      (∃ b, Machine.exec (.routeDelete w) s = .next { s with blk := b } ∧ (b.fld LKP.OP_STS LKP.OP_STS_RESULT = 0 →
        NMap.find? (b.lpm rs).routes (routeKey (routeOf v6 plen key)) = none)) ∧
      ∃ b, Machine.exec (.routeRead w) s = .next { s with blk := b } ∧ b.tbl.lpm = s.blk.tbl.lpm ∧
        b.fld LKP.OP_STS LKP.OP_STS_RESULT = (s.blk.routeRead rs plen key).1)) ∧
  (∀ (s : State) (w : RegWrite) (t : TcTable) (h grp : Nat),
    s.blk.accepts w.src TCM.OP_CTL → s.blk.flag TCM.OP_CTL TCM.OP_CTL_GO = false → s.blk.fdLive = true →
    s.blk.tcTable (decide (fldGet TCM.OP_CTL_IMAGE w.value ≠ 0)) (s.blk.fld TCM.OP_TABLE TCM.OP_TABLE_TABLE_ID) = some t →
    h = s.blk.fld TCM.OP_HANDLE TCM.OP_HANDLE_HANDLE → grp = fldGet TCM.OP_CTL_GROUP w.value →
    (∀ c ∈ [Instr.tcamNop w, .insert w, .update w, .delete w, .read w, .tcamTableClear w, .tcamTableStats w, .groupAbandon w],
      ∃ b, Machine.exec c s = .next { s with blk := b } ∧ b.fld TCM.OP_STS TCM.OP_STS_STATE = 2 ∧
        b.flag TCM.OP_CTL TCM.OP_CTL_GO = false ∧ s.blk.changesOnly b [.regs, .armed, .latches, .tcam]) ∧
    (∀ c ∈ [Instr.tcamNop w, .read w, .tcamTableStats w], ∃ b, Machine.exec c s = .next { s with blk := b } ∧ b.tcam = s.blk.tcam) ∧
    (∃ b, Machine.exec (.insert w) s = .next { s with blk := b } ∧
      (s.blk.handleRows t h ≠ [] → b.fld TCM.OP_STS TCM.OP_STS_RESULT = 1 ∧ b.tcam = s.blk.tcam) ∧
      (s.blk.handleRows t h = [] → fldGet TCM.OP_CTL_DEFER w.value = 0 →
        (s.blk.place t (s.blk.fld TCM.OP_PRIO TCM.OP_PRIO_PRIORITY) = none →
          b.fld TCM.OP_STS TCM.OP_STS_RESULT = 3 ∧ b.tcam = s.blk.tcam) ∧
        ∀ p, s.blk.place t (s.blk.fld TCM.OP_PRIO TCM.OP_PRIO_PRIORITY) = some p →
          b.fld TCM.OP_STS TCM.OP_STS_RESULT = 0 ∧ (b.trow p.1 p.2.row).handle = h ∧ (b.trow p.1 p.2.row).state = 1 ∧
          (b.trow p.1 p.2.row).prio = s.blk.fld TCM.OP_PRIO TCM.OP_PRIO_PRIORITY)) ∧
    (∀ c ∈ [Instr.delete w, .update w], ∃ b, Machine.exec c s = .next { s with blk := b } ∧
      (s.blk.handleRows t h = [] → b.fld TCM.OP_STS TCM.OP_STS_RESULT = 2 ∧ b.tcam = s.blk.tcam)) ∧
    (∀ p, s.blk.handleRows t h = [p] → (s.blk.trow p.1 p.2).state = 1 → fldGet TCM.OP_CTL_DEFER w.value = 0 →
      ∃ b, Machine.exec (.delete w) s = .next { s with blk := b } ∧ b.fld TCM.OP_STS TCM.OP_STS_RESULT = 0 ∧ b.trow p.1 p.2 = {}) ∧
    ∃ b, Machine.exec (.groupAbandon w) s = .next { s with blk := b } ∧
      (bitAt s.blk.tcam.flags grp = true → b.fld TCM.OP_STS TCM.OP_STS_RESULT = 0x0B ∧ b.tcam = s.blk.tcam) ∧
      (bitAt s.blk.tcam.flags grp = false → b.fld TCM.OP_STS TCM.OP_STS_RESULT = 0)) ∧
  ∀ (s : State) (w : RegWrite) (seen : TcSeen), s.blk.accepts w.src TCM.STEP_CTL → s.blk.fdLive = true → w.value &&& 7#32 = 0#32 →
    (∃ b, Machine.exec (.start w) s = .next { s with blk := b } ∧ b.tcam.step.isSome = true ∧ b.flag TCM.STEP_STS TCM.STEP_STS_BUSY = true ∧
      s.blk.changesOnly b [.regs, .armed, .latches, .tcam]) ∧
    (∃ b, Machine.exec (.stop w) s = .next { s with blk := b } ∧ b.tcam.step = none ∧ b.flag TCM.STEP_STS TCM.STEP_STS_BUSY = false ∧
      s.blk.changesOnly b [.regs, .armed, .latches, .tcam]) ∧
    (∃ b, Machine.exec (.next w seen) s = .next { s with blk := b } ∧
      (s.blk.tcam.step = none → s.blk.changesOnly b [.regs, .armed, .latches]) ∧
      (∀ st, s.blk.tcam.step = some st →
        (s.blk.stepFind st seen.norm.flipped = none → b.tcam.step = none ∧ b.flag TCM.STEP_STS TCM.STEP_STS_BUSY = false ∧
          b.flag TCM.STEP_STS TCM.STEP_STS_DONE = true ∧ b.flag TCM.STEP_STS TCM.STEP_STS_FOUND = false) ∧
        (∀ e, s.blk.stepFind st seen.norm.flipped = some e →
          (s.blk.trow e.2.1 e.2.2).hits (st.key % 2 ^ tcBits st.width) = true ∨
            s.blk.badBank (groupBanks st.width) e.2.1 e.2.2 seen.norm.copyErr ≠ none →
          b.tcam.step = some { st with last := some e } ∧ b.flag TCM.STEP_STS TCM.STEP_STS_FOUND = true ∧
          b.reg TCM.STEP_HANDLE = BitVec.ofNat 32 (s.blk.trow e.2.1 e.2.2).handle &&& maskOf TCM.STEP_HANDLE ∧
          b.reg TCM.STEP_ACTION = BitVec.ofNat 32 (s.blk.trow e.2.1 e.2.2).action)) ∧
      b.tcam.rows = s.blk.tcam.rows ∧
      s.blk.changesOnly b [.regs, .armed, .latches, .rings, .host, .lost, .tcam])

/-- TOD_ARM arms the time of day now. SERVO_EN at 0 takes a servo that follows no master to HOST, and at 1 takes HOST to FREERUN. An absolute STEP
sets network time where the servo follows no master, and one with 10⁹ ns or more is refused. SLEW and FREQ_ADJ
take a value within range, FREQ_ADJ in HOST alone. POST with the page's unlock gives the result of the checks and, where they pass for an entry
that is not coordinated, adds it last; without the unlock it posts nothing. CANCEL drops a waiting entry by its tag. JOIN with the page's unlock in
QUIESCENT joins, and starts the wait for the election where no link shows a master; elsewhere it leaves the role. -/
def Obligations.TimeAndAnchorCommands : Prop :=
  (∀ (s : State) (w : RegWrite), s.blk.accepts w.src TMB.CTL → fldGet TMB.CTL_STEP w.value = 0 →
    (∃ b, Machine.exec (.todArm w) s = .next { s with blk := b } ∧ b.time.armedAt = some s.blk.time.elapsed ∧ b.time.t = s.blk.time.t ∧
      s.blk.changesOnly b [.regs, .armed, .latches, .time]) ∧
    (fldGet TMB.CTL_TOD_ARM w.value = 0 → ∃ b, Machine.exec (.servoEnWrite w) s = .next { s with blk := b } ∧
      (s.blk.servo = stFollow ∨ s.blk.servo = stFollowHold → b.servo = s.blk.servo) ∧
      (s.blk.servo ≠ stFollow → s.blk.servo ≠ stFollowHold →
        (fldGet TMB.CTL_SERVO_EN w.value = 0 → b.servo = stHost) ∧
        (fldGet TMB.CTL_SERVO_EN w.value = 1 → b.servo = if s.blk.servo = stHost then stFreerun else s.blk.servo)) ∧
      b.time.t = s.blk.time.t ∧ s.blk.changesOnly b [.regs, .armed, .latches, .time])) ∧
  (∀ (s : State) (w : RegWrite) (ns sec : Nat), s.blk.accepts w.src TMB.CTL → s.blk.isArmed 4 w.src = true →
    fldGet TMB.CTL_TOD_ARM w.value = 0 → fldGet TMB.CTL_STEP_REL w.value = 0 → ns = s.blk.fld TMB.STEP_NS TMB.STEP_NS_NS →
    sec = (s.blk.reg TMB.STEP_SEC_LO).toNat + s.blk.fld TMB.STEP_SEC_HI TMB.STEP_SEC_HI_SEC * 2 ^ 32 →
    ∃ b, Machine.exec (.step w) s = .next { s with blk := b } ∧
      (s.blk.servo = stFollow ∨ s.blk.servo = stFollowHold ∨ 10 ^ 9 ≤ ns → b.time.t = s.blk.time.t ∧ b.time.fired = s.blk.time.fired) ∧
      (s.blk.servo ≠ stFollow → s.blk.servo ≠ stFollowHold → ns < 10 ^ 9 → b.time.t = (sec * 10 ^ 9 + ns) * 10 ^ 12 ∧
        b.flag TMB.STS TMB.STS_TIME_SET = true ∧
        b.time.fired = s.blk.time.fired + (if s.blk.time.t / tickUnits < b.time.t / tickUnits then 1 else 0)) ∧
      b.mode = s.blk.mode) ∧
  (∀ (s : State) (w : RegWrite), s.blk.accepts w.src TMB.SLEW_NS →
    ∃ b, Machine.exec (.slew w) s = .next { s with blk := b } ∧
      ((toSigned 32 w.value.toNat).natAbs ≤ 1000000 → b.time.slewLeft = toSigned 32 w.value.toNat * 10 ^ 12 ∧
        s.blk.changesOnly b [.regs, .armed, .latches, .time]) ∧
      (1000000 < (toSigned 32 w.value.toNat).natAbs → b.time = s.blk.time) ∧ b.time.t = s.blk.time.t) ∧
  (∀ (s : State) (w : RegWrite), s.blk.accepts w.src TMB.FREQ_ADJ →
    ∃ b, Machine.exec (.freqAdjWrite w) s = .next { s with blk := b } ∧
      (s.blk.servo = stHost → (toSigned 32 w.value.toNat).natAbs ≤ 1000000000 → b.freqAdj = toSigned 32 w.value.toNat ∧
        b.time = { s.blk.time with adjHist := (toSigned 32 w.value.toNat :: s.blk.time.adjHist).take 64 } ∧
        s.blk.changesOnly b [.regs, .armed, .latches, .time]) ∧
      (s.blk.servo ≠ stHost ∨ 1000000000 < (toSigned 32 w.value.toNat).natAbs → b.freqAdj = s.blk.freqAdj ∧ b.time = s.blk.time)) ∧
  (∀ (s : State) (w : RegWrite) (e : Anchor) (bad : Bool) (r : Nat), s.blk.accepts w.src ANC.CMD → fldGet ANC.CMD_CANCEL w.value = 0 →
    s.blk.postWords = (e, bad) → r = s.blk.ancCheck e bad false →
    ∃ b, Machine.exec (.post w) s = .next { s with blk := b } ∧
      (s.blk.isArmed 5 w.src = false → b.anchors = s.blk.anchors) ∧
      (s.blk.isArmed 5 w.src = true → b.flag ANC.CMD ANC.CMD_POST = false ∧ b.fld ANC.STS ANC.STS_RESULT = r ∧
        (r ≠ ancPosted → b.anchors = s.blk.anchors) ∧
        (r = ancPosted → e.coord = false → b.anchors = s.blk.anchors ++ [e] ∧ b.csc = s.blk.csc ∧ b.out = s.blk.out)) ∧
      s.blk.changesOnly b [.regs, .armed, .latches, .rings, .host, .lost, .anchors, .csc, .out]) ∧
  (∀ (s : State) (w : RegWrite) (tag : Nat), s.blk.accepts w.src ANC.CMD → fldGet ANC.CMD_POST w.value = 0 →
    tag = (s.blk.reg (ANC.POST_W 4)).toNat % 2 ^ 16 →
    ∃ b, Machine.exec (.cancel w) s = .next { s with blk := b } ∧
      (s.blk.ancFind tag = none → b.fld ANC.STS ANC.STS_RESULT = ancNotFound ∧ b.anchors = s.blk.anchors) ∧
      (∀ e, s.blk.ancFind tag = some e → e.coord = false → b.ancFind tag = none ∧ b.fld ANC.STS ANC.STS_RESULT = ancCancelled ∧
        b.out = s.blk.out ∧ b.csc = s.blk.csc) ∧
      (∀ e, s.blk.ancFind tag = some e → e.coord = true → e.state ≠ .held ∨ s.blk.mode.role ≠ roleMaster →
        b.fld ANC.STS ANC.STS_RESULT = ancConfirmed ∧ b.anchors = s.blk.anchors) ∧
      s.blk.changesOnly b [.regs, .armed, .latches, .rings, .host, .lost, .anchors, .csc, .out]) ∧
  ∀ (s : State) (w : RegWrite), s.blk.accepts w.src CSC.CTL →
    ∃ b, Machine.exec (.join w) s = .next { s with blk := b } ∧
      (s.blk.mode.mode ≠ .quiescent ∨ s.blk.isArmed 6 w.src = false → b.mode = s.blk.mode ∧
        b.flag CSC.CTL CSC.CTL_JOIN = s.blk.flag CSC.CTL CSC.CTL_JOIN ∧ b.csc = s.blk.csc) ∧
      (s.blk.mode.mode = .quiescent → s.blk.isArmed 6 w.src = true → b.flag CSC.CTL CSC.CTL_JOIN = true ∧
        (s.blk.flag CSC.CTL CSC.CTL_JOIN = false →
          (∀ j, j < 4 → s.blk.flag (CSC.LINK_STS j) CSC.LINK_STS_UP = false ∨ (s.blk.csc.link j).farMaster = false) →
          b.csc.joinAt = some s.blk.time.elapsed)) ∧
      b.mode.mode = s.blk.mode.mode ∧ s.blk.changesOnly b [.regs, .armed, .latches, .rings, .host, .lost, .mode, .time, .csc]

/-- On accepting pages: CHANNEL_RETRAIN begins full training of a channel that is OUT, FAILED or UNTRAINED and leaves any other as it is; RETIRE and
RESTORE with the unlock move a channel between its resting states and RETIRED; EVAC_START begins an evacuation or gives the refusal, EVAC_ABORT
ends one with ABORTED. UPD_START, UPD_FINISH, UPD_ABORT, UPD_ACTIVATE and UPD_CONFIRM act or give their refusal. KICK restarts the watchdog
period, a tolerance below the exit latency of a group's state wakes it, SLICE_DRAIN and SLICE_RELEASE set and clear the drain bit but
from the service port, and PEAK_CLR returns the peaks to their reset value. -/
def Obligations.ChannelDownloadAndPowerCommands : Prop :=
  (∀ (s : State) (w : RegWrite) (k : Fin 17), s.blk.accepts w.src (D5C.CTL k.val) →
    ∃ b, Machine.exec (.channelRetrain w k) s = .next { s with blk := b } ∧
      (s.blk.d5State k.val ∈ [d5Out, d5Failed, d5Untrained] → b.d5State k.val = d5Training ∧
        b.flag (D5C.CTL k.val) D5C.CTL_RETRAIN = true ∧ (b.d5Chan k.val).before = s.blk.d5State k.val) ∧
      (s.blk.d5State k.val ∉ [d5Out, d5Failed, d5Untrained] → b.d5State k.val = s.blk.d5State k.val ∧ b.d5 = s.blk.d5) ∧
      s.blk.changesOnly b [.regs, .armed, .latches, .rings, .host, .lost, .td, .d5, .pwr, .out]) ∧
  (∀ (s : State) (w : RegWrite) (k : Nat), s.blk.accepts w.src D5M.RETIRE_CMD → s.blk.isArmed 0x84 w.src = true →
    fldGet D5M.RETIRE_CMD_RETIRE w.value = 0 → fldGet D5M.RETIRE_CMD_RESTORE w.value = 0 → k = fldGet D5M.RETIRE_CMD_CHANNEL w.value →
    k < 17 →
    (∃ b, Machine.exec (.retire w) s = .next { s with blk := b } ∧
      (s.blk.d5State k ∈ [d5Spare, d5Out, d5Failed] → b.d5State k = d5Retired ∧
        bitAt (b.fld D5M.RETIRED D5M.RETIRED_RETIRED) k = true) ∧
      (s.blk.d5State k ∉ [d5Spare, d5Out, d5Failed] → b.d5State k = s.blk.d5State k ∧ b.nv = s.blk.nv) ∧
      s.blk.changesOnly b [.regs, .armed, .latches, .rings, .host, .lost, .mode, .nv, .td, .d5, .pwr, .out]) ∧
    ∃ b, Machine.exec (.restore w) s = .next { s with blk := b } ∧
      (s.blk.d5State k = d5Retired → b.d5State k = d5Untrained ∧ bitAt (b.fld D5M.RETIRED D5M.RETIRED_RETIRED) k = false) ∧
      (s.blk.d5State k ≠ d5Retired → b.d5State k = s.blk.d5State k ∧ b.nv = s.blk.nv) ∧
      s.blk.changesOnly b [.regs, .armed, .latches, .rings, .host, .lost, .mode, .nv, .td, .d5, .pwr, .out]) ∧
  (∀ (s : State) (w : RegWrite) (source : Nat), s.blk.accepts w.src D5M.EVAC_CTL →
    fldGet D5M.EVAC_CTL_ABORT w.value = 0 → fldGet D5M.EVAC_CTL_START w.value = 0 → source = fldGet D5M.EVAC_CTL_SOURCE w.value →
    source ≤ 16 → fldGet D5M.EVAC_CTL_AFTER w.value ≤ 2 →
    (∃ b, Machine.exec (.evacStart w) s = .next { s with blk := b } ∧
      (s.blk.isArmed 0x84 w.src = false ∨ s.blk.d5.evac.isSome = true → b.d5 = s.blk.d5) ∧
      (s.blk.isArmed 0x84 w.src = true → s.blk.d5.evac = none →
        (s.blk.evacRefusal source ≠ 0 → b.fld D5M.EVAC_STS D5M.EVAC_STS_RESULT = s.blk.evacRefusal source ∧ b.d5 = s.blk.d5) ∧
        ∀ t, s.blk.evacRefusal source = 0 → s.blk.d5First d5Spare = some t → b.d5State source = d5Source ∧ b.d5State t = d5Target ∧
          b.d5.evac = some { source := source, target := t, after := fldGet D5M.EVAC_CTL_AFTER w.value, age := 0, copied := none }) ∧
      s.blk.changesOnly b [.regs, .armed, .latches, .rings, .host, .lost, .mode, .td, .d5, .pwr]) ∧
    ∃ b, Machine.exec (.evacAbort w) s = .next { s with blk := b } ∧ b.d5.evac = none ∧
      (s.blk.d5.evac = none → b.d5 = s.blk.d5) ∧
      (s.blk.d5.evac ≠ none → b.fld D5M.EVAC_STS D5M.EVAC_STS_RESULT = 6) ∧
      s.blk.changesOnly b [.regs, .armed, .latches, .rings, .host, .lost, .mode, .td, .d5, .pwr]) ∧
  (∀ (s : State) (w : RegWrite) (len target : Nat), s.blk.accepts w.src FWM.UPD_CTL → w.value &&& 0x1F#32 = 0#32 →
    target = fldGet FWM.UPD_CTL_TARGET w.value → target ≤ 2 → len = s.blk.fld FWM.UPD_LEN FWM.UPD_LEN_LEN →
    (∃ b, Machine.exec (.updStart w) s = .next { s with blk := b } ∧
      (s.blk.isArmed 0x62 w.src = false → b.nv = s.blk.nv ∧ b.fw = s.blk.fw) ∧
      (s.blk.isArmed 0x62 w.src = true →
        (s.blk.startRefusal len target ≠ 0 → b.fld FWM.UPD_STS FWM.UPD_STS_REFUSE = s.blk.startRefusal len target ∧
          b.nv = s.blk.nv ∧ b.fw = s.blk.fw) ∧
        (s.blk.startRefusal len target = 0 → b.receiving = true ∧ b.fw.dlLen = len ∧ b.fw.dlTarget = target ∧ b.fw.received = 0))) ∧
    (∃ b, Machine.exec (.updFinish w) s = .next { s with blk := b } ∧
      (s.blk.receiving = false → b.fld FWM.UPD_STS FWM.UPD_STS_REFUSE = 4 ∧ b.nv = s.blk.nv) ∧
      (s.blk.receiving = true → s.blk.fw.received % 2 ^ (s.blk.fw.dlLen / 1024) = 2 ^ (s.blk.fw.dlLen / 1024) - 1 →
        b.fld FWM.UPD_STS FWM.UPD_STS_STATE = 2 ∧ b.fld FWM.UPD_STS FWM.UPD_STS_REFUSE = 0)) ∧
    (∃ b, Machine.exec (.updAbort w) s = .next { s with blk := b } ∧ b.receiving = false ∧ b.nv = s.blk.nv ∧ b.fw = s.blk.fw) ∧
    (s.blk.isArmed 0x62 w.src = true →
      (∃ b, Machine.exec (.updActivate w) s = .next { s with blk := b } ∧
        (s.blk.nv.boot.trial = true → b.fld FWM.UPD_STS FWM.UPD_STS_REFUSE = 1 ∧ b.nv = s.blk.nv) ∧
        (s.blk.nv.boot.trial = false → (s.blk.nv.hdr (1 - s.blk.nv.boot.selected)).state = 2 →
          (s.blk.nv.hdr (1 - s.blk.nv.boot.selected)).span = false → s.blk.mode.mode ≠ .faultHold →
          b.fld FWM.UPD_STS FWM.UPD_STS_REFUSE = 0 ∧ ∃ r, (b.nv.boot0 = some r ∨ b.nv.boot1 = some r) ∧
            r.selected = 1 - s.blk.nv.boot.selected ∧ r.trial = true ∧ r.trialCount = 3 ∧ r.fallbackValid = true)) ∧
      ∃ b, Machine.exec (.updConfirm w) s = .next { s with blk := b } ∧
        (s.blk.flag FWM.FW_STS FWM.FW_STS_SETTINGS_INCOMPATIBLE = true → b.fld FWM.UPD_STS FWM.UPD_STS_REFUSE = 6 ∧ b.nv = s.blk.nv) ∧
        (s.blk.flag FWM.FW_STS FWM.FW_STS_SETTINGS_INCOMPATIBLE = false → s.blk.flag FWM.FW_STS FWM.FW_STS_TRIAL = true →
          s.blk.flag FWM.FW_STS FWM.FW_STS_READY = true → s.blk.mode.mode ≠ .faultHold →
          b.flag FWM.FW_STS FWM.FW_STS_TRIAL = false ∧ b.flag FWM.FW_STS FWM.FW_STS_QUARANTINE = false ∧
          b.fld FWM.UPD_STS FWM.UPD_STS_REFUSE = 0))) ∧
  (∀ (s : State) (w : RegWrite), s.blk.accepts w.src FWM.WDT → ∃ b, Machine.exec (.kick w) s = .next { s with blk := b } ∧
    b.fw = { s.blk.fw with kickedAt := s.blk.time.elapsed } ∧ b.flag FWM.WDT FWM.WDT_KICK = false ∧
    s.blk.changesOnly b [.regs, .armed, .latches, .rings, .host, .lost, .fw]) ∧
  (∀ (s : State) (w : RegWrite) (g : Fin 46), s.blk.accepts w.src (PWR.LTR g.val) →
    ∃ b, Machine.exec (.ltrWrite w g) s = .next { s with blk := b } ∧ b.reg (PWR.LTR g.val) = w.value ∧
      (w.value.toNat < exitLatency (s.blk.groupState g.val) → s.blk.mode.mode ≠ .faultHold → s.blk.railsOff = false →
        s.blk.groupFixed g.val = none → b.flag (PWR.GSTS g.val) PWR.GSTS_MOVING = true) ∧
      (exitLatency (s.blk.groupState g.val) ≤ w.value.toNat → s.blk.regsKept b [PWR.LTR g.val]) ∧
      s.blk.changesOnly b [.regs, .armed, .latches]) ∧
  (∀ (s : State) (w : RegWrite) (k : Fin 8), s.blk.accepts w.src PWR.SLICE_DRAIN →
    (∃ b, Machine.exec (.sliceDrain w k) s = .next { s with blk := b } ∧
      (w.src ≠ .service → bitAt (b.reg PWR.SLICE_DRAIN).toNat k.val = true ∧
        bitAt (b.fld PWR.SLICE_STS PWR.SLICE_STS_DRAINING) k.val = true ∧
        b.fld PWR.SLICE_STS PWR.SLICE_STS_DRAINED = s.blk.fld PWR.SLICE_STS PWR.SLICE_STS_DRAINED ∧
        (bitAt (s.blk.fld PWR.SLICE_STS PWR.SLICE_STS_DRAINING) k.val = false →
          NMap.get 0 b.pwr.drainAt k.val = s.blk.time.elapsed)) ∧
      (w.src = .service → b.fld PWR.SLICE_DRAIN ⟨0, 8⟩ = s.blk.fld PWR.SLICE_DRAIN ⟨0, 8⟩ ∧ b.reg PWR.SLICE_STS = s.blk.reg PWR.SLICE_STS ∧
        b.pwr = s.blk.pwr) ∧
      s.blk.changesOnly b [.regs, .armed, .latches, .rings, .host, .lost, .pwr]) ∧
    ∃ b, Machine.exec (.sliceRelease w k) s = .next { s with blk := b } ∧
      (w.src ≠ .service → bitAt (b.reg PWR.SLICE_DRAIN).toNat k.val = false ∧
        b.fld PWR.SLICE_STS PWR.SLICE_STS_DRAINED = s.blk.fld PWR.SLICE_STS PWR.SLICE_STS_DRAINED ∧
        (bitAt (s.blk.reg PWR.SLICE_DRAIN).toNat k.val = true → NMap.get 0 b.pwr.releaseAt k.val = s.blk.ticks)) ∧
      (w.src = .service → b.fld PWR.SLICE_DRAIN ⟨0, 8⟩ = s.blk.fld PWR.SLICE_DRAIN ⟨0, 8⟩ ∧ b.reg PWR.SLICE_STS = s.blk.reg PWR.SLICE_STS ∧
        b.pwr = s.blk.pwr) ∧
      s.blk.changesOnly b [.regs, .armed, .latches, .rings, .host, .lost, .pwr]) ∧
  ∀ (s : State) (w : RegWrite), s.blk.accepts w.src THM.STS → ∃ b, Machine.exec (.peakClr w) s = .next { s with blk := b } ∧
    b.reg THM.PEAK = resetOf THM.PEAK ∧ b.flag THM.STS THM.STS_PEAK_CLR = false ∧ s.blk.regsKept b [THM.PEAK, THM.STS] ∧
    s.blk.changesOnly b [.regs, .armed, .latches]

/-- On accepting pages: enabling a disabled line lane brings it to ACQUIRE and disabling one to DISABLED, RETRAIN brings a lane that runs to RETRAIN; a
port or owner refused leaves every lane's owner, and disabling one clears its ENABLE; a calendar request stands. A fabric lane enabled
from DISABLED trains and one disabled is DISABLED; PLANE_DRAIN stores its planes, and a macro's drain ended clears DRAINED. CHECK_START and
CHECK_RESUME run a check or refuse it, PAUSE and ABORT stop one that runs. Reprogramming a performance counter zeroes it; COUNTER_ENABLE
starts the engine and SNAPSHOT_NOW marks its request. -/
def Obligations.LaneCheckAndCounterCommands : Prop :=
  (∀ (s : State) (w : RegWrite) (n l : Fin 8), s.blk.accepts w.src (LIN.LANE_CFG n.val l.val) →
    fldGet LIN.LANE_CFG_RETRAIN w.value = 0 →
    (s.blk.flag (LIN.LANE_CFG n.val l.val) LIN.LANE_CFG_ENABLE = false → s.blk.lstate n.val l.val = 0 →
      ∃ b, Machine.exec (.laneEnable w n l) s = .next { s with blk := b } ∧ b.lstate n.val l.val = 1 ∧
        b.flag (LIN.LANE_CFG n.val l.val) LIN.LANE_CFG_ENABLE = true) ∧
    (s.blk.flag (LIN.LANE_CFG n.val l.val) LIN.LANE_CFG_ENABLE = true →
      (∃ b, Machine.exec (.laneDisable w n l) s = .next { s with blk := b } ∧ b.lstate n.val l.val = 0 ∧
        b.flag (LIN.LANE_CFG n.val l.val) LIN.LANE_CFG_ENABLE = false) ∧
      (fldGet LIN.LANE_CFG_ENABLE w.value = 1 → ∃ b, Machine.exec (.retrain w n l) s = .next { s with blk := b } ∧
        (s.blk.lstate n.val l.val = 0 ∨ s.blk.lstate n.val l.val = 3 → b.lstate n.val l.val = s.blk.lstate n.val l.val) ∧
        (s.blk.lstate n.val l.val ≠ 0 → b.lstate n.val l.val = 3)))) ∧
  (∀ (s : State) (w : RegWrite) (o : OwnerReg), s.blk.accepts w.src o.cfg →
    (s.blk.flag o.cfg ⟨31, 1⟩ = false → ∃ b, Machine.exec (.portEnable w o) s = .next { s with blk := b } ∧
      (b.flag o.cfg ⟨31, 1⟩ = false → ∀ n l, n < 8 → l < 8 →
        b.fld (LIN.LANE_STS n l) LIN.LANE_STS_OWNER = s.blk.fld (LIN.LANE_STS n l) LIN.LANE_STS_OWNER)) ∧
    ∃ b, Machine.exec (.portDisable w o) s = .next { s with blk := b } ∧ b.flag o.cfg ⟨31, 1⟩ = false) ∧
  (∀ (s : State) (w : RegWrite) (p : Fin 256), s.blk.accepts w.src (LIN.LPORT_MAP (p.val / 32) (p.val % 32)) →
    ∃ b, Machine.exec (.lportMapWrite w p) s = .next { s with blk := b } ∧
      (b.lportSource p.val = none ∨ b.lportSource p.val = s.blk.lportSource p.val ∨
        ∀ q, q < 256 → q ≠ p.val → b.lportSource q ≠ b.lportSource p.val)) ∧
  (∀ (s : State) (w : RegWrite) (g : Fin 8), s.blk.accepts w.src (FLX.GRP_CTL g.val) →
    ∃ b, Machine.exec (.calReq w g) s = .next { s with blk := b } ∧ b.flag (FLX.GRP_CTL g.val) FLX.GRP_CTL_CAL_REQ = true ∧
      (s.blk.flag (FLX.GRP_CTL g.val) FLX.GRP_CTL_CAL_REQ = false →
        b.line = { s.blk.line with calReqAt := NMap.put s.blk.line.calReqAt g.val s.blk.time.elapsed }) ∧
      (s.blk.flag (FLX.GRP_CTL g.val) FLX.GRP_CTL_CAL_REQ = true → b.line = s.blk.line) ∧
      s.blk.changesOnly b [.regs, .armed, .latches, .rings, .host, .lost, .line]) ∧
  (∀ (s : State) (w : RegWrite) (l : Fin 96), s.blk.accepts w.src (laneCfg l.val) →
    (s.blk.flag (laneCfg l.val) FAB.LANE_CFG_ENABLE = false → s.blk.laneState l.val = 0 →
      ∃ b, Machine.exec (.fabLaneEnable w l) s = .next { s with blk := b } ∧ b.laneState l.val = 2 ∧ b.mode = s.blk.mode) ∧
    (s.blk.flag (laneCfg l.val) FAB.LANE_CFG_ENABLE = true →
      ∃ b, Machine.exec (.fabLaneDisable w l) s = .next { s with blk := b } ∧ b.laneState l.val = 0 ∧
        (s.blk.laneState l.val ≠ 0 → b.laneCredits l.val = 0))) ∧
  (∀ (s : State) (w : RegWrite), s.blk.accepts w.src KCL.PLANE_DRAIN →
    ∃ b, Machine.exec (.planeDrain w) s = .next { s with blk := b } ∧ b.reg KCL.PLANE_DRAIN = w.value &&& maskOf KCL.PLANE_DRAIN ∧
      s.blk.regsKept b [KCL.PLANE_DRAIN] ∧ s.blk.onlyWrite b) ∧
  (∀ (s : State) (w : RegWrite) (n : Fin 12), s.blk.accepts w.src (FAB.CTL n.val) →
    ∃ b, Machine.exec (.drain w n) s = .next { s with blk := b } ∧ b.fld (FAB.CTL n.val) FAB.CTL_DRAIN = fldGet FAB.CTL_DRAIN w.value ∧
      (fldGet FAB.CTL_DRAIN w.value = 0 → b.flag (FAB.STS n.val) FAB.STS_DRAINED = false) ∧
      s.blk.changesOnly b [.regs, .armed, .latches, .rings, .host, .lost, .mode, .pwr]) ∧
  (∀ (s : State) (w : RegWrite) (e : Fin 16) (words : Nat) (found : List ScrubWord), s.blk.accepts w.src (CHK.CTX_CTL e.val) →
    w.value &&& 0xF#32 = 0#32 →
    (∃ b, Machine.exec (.checkStart w e words found) s = .next { s with blk := b } ∧
      (s.blk.chkState e.val = 1 → b.chkState e.val = 1 ∧ b.reg (CHK.DONE_LO e.val) = s.blk.reg (CHK.DONE_LO e.val)) ∧
      (s.blk.chkState e.val ≠ 1 → b.chkState e.val = 5 ∨
        (b.chkState e.val = 1 ∧ b.reg (CHK.DONE_LO e.val) = 0#32 ∧ b.reg (CHK.DONE_HI e.val) = 0#32))) ∧
    (∃ b, Machine.exec (.checkResume w e words found) s = .next { s with blk := b } ∧
      (b.chkState e.val = 1 ∨ (s.blk.chkState e.val ≠ 1 ∧ b.chkState e.val = 5)) ∧
      b.reg (CHK.DONE_LO e.val) = s.blk.reg (CHK.DONE_LO e.val)) ∧
    (∃ b, Machine.exec (.checkPause w e words found) s = .next { s with blk := b } ∧
      b.chkState e.val = if s.blk.chkState e.val = 1 then 2 else s.blk.chkState e.val) ∧
    ∃ b, Machine.exec (.checkAbort w e words found) s = .next { s with blk := b } ∧
      b.chkState e.val = if s.blk.chkState e.val = 1 ∨ s.blk.chkState e.val = 2 then 4 else s.blk.chkState e.val) ∧
  (∀ (s : State) (w : RegWrite) (n : Fin 64) (reg : PmcReg), s.blk.accepts w.src (reg.addr n.val) →
    ∃ b, Machine.exec (.pmcReprogram w n reg) s = .next { s with blk := b } ∧ b.reg (PMC.CNT_LO n.val) = 0#32 ∧
      b.fld (PMC.CNT_HI n.val) PMC.CNT_HI_CNT = 0 ∧ s.blk.changesOnly b [.regs, .armed, .latches, .rings, .host, .lost, .cnt]) ∧
  (∀ (s : State) (w : RegWrite), s.blk.accepts w.src PMC.CTL →
    ∃ b, Machine.exec (.pmcFreeze w) s = .next { s with blk := b } ∧ b.reg PMC.CTL = w.value &&& maskOf PMC.CTL ∧
      s.blk.regsKept b [PMC.CTL] ∧ s.blk.onlyWrite b) ∧
  (∀ (s : State) (w : RegWrite), s.blk.accepts w.src CNT.CTL →
    ∃ b, Machine.exec (.counterEnableWrite w) s = .next { s with blk := b } ∧ b.fld CNT.CTL CNT.CTL_ENABLE = fldGet CNT.CTL_ENABLE w.value ∧
      (fldGet CNT.CTL_ENABLE w.value = 1 → b.flag CNT.STS CNT.STS_RUNNING = true ∧ s.blk.changesOnly b [.regs, .armed, .latches]) ∧
      s.blk.changesOnly b [.regs, .armed, .latches, .tbl, .cnt]) ∧
  ∀ (s : State) (w : RegWrite), s.blk.accepts w.src CNT.SNAP_CTL →
    ∃ b, Machine.exec (.snapshotNow w) s = .next { s with blk := b } ∧ b.flag CNT.SNAP_CTL CNT.SNAP_CTL_NOW = true ∧
      b.fld CNT.SNAP_CTL CNT.SNAP_CTL_NOW_ID = fldGet CNT.SNAP_CTL_NOW_ID w.value ∧ s.blk.regsKept b [CNT.SNAP_CTL] ∧ s.blk.onlyWrite b

/-- On accepting pages: RING_POST within the credit hands descriptors over and beyond it raises the credit error, RING_ENABLE starts a ring anew and
RING_DISABLE leaves it idle, at once where it works on no descriptor; a post to a ring that delivers to the sorus has no effect. PART_COMMIT with the unlock is refused or begins; a learned table's limit or mode, a pool's limit, a port's
staging share, the queue split and the random seed take the value written or keep the old one as their rules say, so that the totals stay within
bounds. SHAPER_COMMIT waits unless one is posted; WIDTH_REQ stands at half width alone; DRIFT_CLEAR re-arms the first cause; REBASE leaves the
tables; MISMATCH_VALID clears; a page soft reset stands, but on GLB and AUX, which have none. -/
def Obligations.RingTableAndPoolCommands : Prop :=
  (∀ (s : State) (w : RegWrite) (r : Fin 69), s.blk.accepts w.src (PCI.RING_POST r.val) →
    ∃ b, Machine.exec (.ringPost w r) s = .next { s with blk := b } ∧
      (fldGet PCI.RING_POST_POST w.value ≤ s.blk.ringCredit r.val →
        (b.ring r.val).owned = (s.blk.ring r.val).owned + fldGet PCI.RING_POST_POST w.value ∧
        s.blk.changesOnly b [.regs, .armed, .latches, .rings]) ∧
      (s.blk.toSorus r.val = true → b.rings = s.blk.rings ∧ b.reg (PCI.RING_STS r.val) = s.blk.reg (PCI.RING_STS r.val)) ∧
      (s.blk.toSorus r.val = false → s.blk.ringCredit r.val < fldGet PCI.RING_POST_POST w.value → b.flag (PCI.RING_STS r.val) PCI.RING_STS_ERR = true ∧
        (r.val ≠ 65 → b.ring r.val = s.blk.ring r.val))) ∧
  (∀ (s : State) (w : RegWrite) (r : Fin 69), s.blk.accepts w.src (PCI.RING_CFG r.val) →
    (s.blk.flag (PCI.RING_CFG r.val) PCI.RING_CFG_ENABLE = false → ∃ b, Machine.exec (.ringEnable w r) s = .next { s with blk := b } ∧
      b.flag (PCI.RING_CFG r.val) PCI.RING_CFG_ENABLE = true ∧ (b.ring r.val).owned = 0 ∧ b.reg (PCI.RING_HEAD r.val) = 0#32 ∧
      b.reg (PCI.RING_STS r.val) = 0#32) ∧
    (s.blk.flag (PCI.RING_CFG r.val) PCI.RING_CFG_ENABLE = true → s.blk.flag (PCI.RING_STS r.val) PCI.RING_STS_STOPPED = false →
      r.val ≠ 65 → ∃ b, Machine.exec (.ringDisable w r) s = .next { s with blk := b } ∧
        b.flag (PCI.RING_CFG r.val) PCI.RING_CFG_ENABLE = false ∧
        ((s.blk.ring r.val).job = none → (b.ring r.val).owned = 0 ∧ b.flag (PCI.RING_STS r.val) PCI.RING_STS_IDLE = true) ∧
        ((s.blk.ring r.val).job.isSome = true → b.rings = s.blk.rings ∧ b.reg (PCI.RING_STS r.val) = s.blk.reg (PCI.RING_STS r.val)))) ∧
  (∀ (s : State) (w : RegWrite), s.blk.accepts w.src LKP.PART_CTL → s.blk.flag LKP.PART_CTL LKP.PART_CTL_COMMIT = false →
    ∃ b, Machine.exec (.partCommit w) s = .next { s with blk := b } ∧
      (s.blk.isArmed 0x22 w.src = false → b.tbl = s.blk.tbl ∧ b.flag LKP.PART_CTL LKP.PART_CTL_COMMIT = false) ∧
      (s.blk.isArmed 0x22 w.src = true →
        (s.blk.partRefused = true → b.tbl = s.blk.tbl ∧ b.flag LKP.PART_CTL LKP.PART_CTL_COMMIT = false ∧
          b.flag LKP.PART_CTL LKP.PART_CTL_COMMIT_FAIL = true) ∧
        (s.blk.partRefused = false → b.tbl.zeroed = some s.blk.partMap ∧ b.flag LKP.PART_CTL LKP.PART_CTL_COMMIT = true))) ∧
  (∀ (s : State) (w : RegWrite) (n : Fin 8), s.blk.accepts w.src (LRN.TBL_LIMIT n.val) → s.blk.hwLimits ≤ 2097152 →
    ∃ b, Machine.exec (.tblLimitWrite w n) s = .next { s with blk := b } ∧ b.hwLimits ≤ 2097152 ∧
      (b.fld (LRN.TBL_LIMIT n.val) LRN.TBL_LIMIT_LIMIT = fldGet LRN.TBL_LIMIT_LIMIT w.value ∨
        b.fld (LRN.TBL_LIMIT n.val) LRN.TBL_LIMIT_LIMIT = s.blk.fld (LRN.TBL_LIMIT n.val) LRN.TBL_LIMIT_LIMIT) ∧
      s.blk.changesOnly b [.regs, .armed, .latches, .rings, .host, .lost]) ∧
  (∀ (s : State) (w : RegWrite) (n : Fin 8), s.blk.accepts w.src (LRN.TBL_CFG n.val) → s.blk.hwLimits ≤ 2097152 →
    ∃ b, Machine.exec (.tblModeWrite w n) s = .next { s with blk := b } ∧ b.hwLimits ≤ 2097152 ∧
      (b.fld (LRN.TBL_CFG n.val) LRN.TBL_CFG_MODE = 2 ∨
        b.fld (LRN.TBL_CFG n.val) LRN.TBL_CFG_MODE = s.blk.fld (LRN.TBL_CFG n.val) LRN.TBL_CFG_MODE) ∧
      s.blk.changesOnly b [.regs, .armed, .latches, .rings, .host, .lost]) ∧
  (∀ (s : State) (w : RegWrite) (p : Fin 8) (v : Nat), s.blk.accepts w.src (poolLimitAddr p.val) → v = fldGet QMG.POOL_LIMIT_A_LIMIT w.value →
    ∃ b, Machine.exec (.poolLimitWrite w p) s = .next { s with blk := b } ∧
      (s.blk.poolLimitOk p.val v = true → b.poolLimit p.val = v) ∧
      (s.blk.poolLimitOk p.val v = false → b.poolLimit p.val = s.blk.poolLimit p.val)) ∧
  (∀ (s : State) (w : RegWrite) (p : Fin 256), s.blk.accepts w.src (PRS.STAGE p.val) → s.blk.shareSum (p.val / 32) ≤ 384 →
    ∃ b, Machine.exec (.stageWrite w p) s = .next { s with blk := b } ∧ b.shareSum (p.val / 32) ≤ 384 ∧
      (64 ≤ fldGet PRS.STAGE_MTU w.value → fldGet PRS.STAGE_MTU w.value ≤ 16384 →
        b.fld (PRS.STAGE p.val) PRS.STAGE_MTU = fldGet PRS.STAGE_MTU w.value) ∧
      s.blk.changesOnly b [.regs, .armed, .latches, .rings, .host, .lost]) ∧
  (∀ (s : State) (w : RegWrite), s.blk.accepts w.src QMG.QSPLIT → ∃ b, Machine.exec (.qsplitWrite w) s = .next { s with blk := b } ∧
    (s.blk.isArmed 0x80 w.src = true → s.blk.qsplitOk (fldGet QMG.QSPLIT_VOQ_COUNT w.value) = true →
      b.fld QMG.QSPLIT QMG.QSPLIT_VOQ_COUNT = fldGet QMG.QSPLIT_VOQ_COUNT w.value) ∧
    (s.blk.isArmed 0x80 w.src = false ∨ s.blk.qsplitOk (fldGet QMG.QSPLIT_VOQ_COUNT w.value) = false →
      b.fld QMG.QSPLIT QMG.QSPLIT_VOQ_COUNT = s.blk.fld QMG.QSPLIT QMG.QSPLIT_VOQ_COUNT) ∧
    s.blk.changesOnly b [.regs, .armed, .latches, .rings, .host, .lost]) ∧
  (∀ (s : State) (w : RegWrite), s.blk.accepts w.src QMG.RAND_SEED → ∃ b, Machine.exec (.randSeedWrite w) s = .next { s with blk := b } ∧
    (w.value ≠ 0#32 → b.td.store.lfsr = w.value.toNat ∧ s.blk.changesOnly b [.regs, .armed, .latches, .td]) ∧
    (w.value = 0#32 → b.td = s.blk.td)) ∧
  (∀ (s : State) (w : RegWrite), s.blk.accepts w.src SCH.SHP_CTL → s.blk.isArmed 0x82 w.src = true →
    s.blk.flag SCH.SHP_CTL SCH.SHP_CTL_COMMIT = false → ∃ b, Machine.exec (.shpCtlCommit w) s = .next { s with blk := b } ∧
      b.flag SCH.SHP_CTL SCH.SHP_CTL_COMMIT = !s.blk.shaperPosted ∧ b.td = s.blk.td) ∧
  (∀ (s : State) (w : RegWrite), s.blk.accepts w.src BRG.CTL → s.blk.flag BRG.CTL BRG.CTL_WIDTH_REQ = false →
    ∃ b, Machine.exec (.widthReq w) s = .next { s with blk := b } ∧
      b.flag BRG.CTL BRG.CTL_WIDTH_REQ = s.blk.flag BRG.STS BRG.STS_HALF ∧ b.reg BRG.STS = s.blk.reg BRG.STS ∧ b.fd = s.blk.fd) ∧
  (∀ (s : State) (w : RegWrite), s.blk.accepts w.src BRG.STS → ∃ b, Machine.exec (.driftClear w) s = .next { s with blk := b } ∧
    b.flag BRG.STS BRG.STS_DRIFT = false ∧ b.fld BRG.STS BRG.STS_FIRST_GROUP = 0 ∧ b.fld BRG.STS BRG.STS_FIRST_CAUSE = 0 ∧
    s.blk.regsKept b [BRG.STS] ∧ s.blk.onlyWrite b) ∧
  (∀ (s : State) (w : RegWrite), s.blk.accepts w.src SHD.REBASE_END → ∃ b, Machine.exec (.rebase w) s = .next { s with blk := b } ∧
    (s.blk.fdLive = false → b.d5 = s.blk.d5) ∧ s.blk.changesOnly b [.regs, .armed, .latches, .rings, .host, .lost, .d5, .cnt]) ∧
  (∀ (s : State) (w : RegWrite), s.blk.accepts w.src SHD.MISMATCH_VALID →
    ∃ b, Machine.exec (.mismatchValidClear w) s = .next { s with blk := b } ∧ b.flag SHD.MISMATCH_VALID SHD.MISMATCH_VALID_VALID = false ∧
      s.blk.regsKept b [SHD.MISMATCH_VALID] ∧ s.blk.onlyWrite b) ∧
  ∀ (s : State) (w : RegWrite) (p : BitVec 10), s.blk.accepts w.src (HDR.PAGE_CTL p.toNat) →
    ∃ b, Machine.exec (.pageSoftReset w p) s = .next { s with blk := b } ∧
      b.flag (HDR.PAGE_CTL p.toNat) HDR.PAGE_CTL_SOFT_RESET = decide (p ≠ 0#10 ∧ p ≠ 0x60#10)
end

