-- ==== Sys2Proof/Laws/State.lean ====
section
/-! SUPPORT. What each basic update leaves alone: one lemma per field and update. -/

namespace Sys2Proof.Machine

/-- A command that acts on the device answers the next state with the queue as it was. -/
@[simp] theorem State.act_eq (s : State) (f : Block → Block) : s.act f = .next { s with blk := f s.blk } := rfl

/-- Nothing but registers changes. -/
def Block.RegsOnly (b b' : Block) : Prop := ∃ r, b' = { b with regs := r }

theorem Block.RegsOnly.refl (b : Block) : b.RegsOnly b := ⟨b.regs, rfl⟩

theorem Block.RegsOnly.trans {b c d : Block} (h : b.RegsOnly c) (k : c.RegsOnly d) : b.RegsOnly d := by
  obtain ⟨_, rfl⟩ := h
  obtain ⟨r, rfl⟩ := k
  exact ⟨r, rfl⟩

theorem Block.setReg_regsOnly (b : Block) (a : Nat) (v : Word) : b.RegsOnly (b.setReg a v) := ⟨_, rfl⟩

theorem Block.setFld_regsOnly (b : Block) (a : Nat) (f : Fld) (v : Nat) : b.RegsOnly (b.setFld a f v) := b.setReg_regsOnly _ _

theorem Block.intRaw_regsOnly (b : Block) (page bit : Nat) : b.RegsOnly (b.intRaw page bit) := b.setReg_regsOnly _ _

theorem Block.intRawIf_regsOnly (b : Block) (c : Bool) (page bit : Nat) : b.RegsOnly (b.intRawIf c page bit) := by
  unfold Block.intRawIf
  split
  · exact b.intRaw_regsOnly page bit
  · exact .refl b

theorem Block.countN_regsOnly (b : Block) (lo bit n : Nat) : b.RegsOnly (b.countN lo bit n) := by
  unfold Block.countN
  exact .trans (.trans (b.setReg_regsOnly _ _) (Block.setReg_regsOnly _ _ _)) (Block.intRawIf_regsOnly _ _ _ _)

theorem Block.count_regsOnly (b : Block) (lo bit : Nat) : b.RegsOnly (b.count lo bit) := b.countN_regsOnly lo bit 1

theorem Block.satFld_regsOnly (b : Block) (a : Nat) (f : Fld) (n : Nat) : b.RegsOnly (b.satFld a f n) := b.setReg_regsOnly _ _

/-- What a descriptor's fetch or a ring's stop may change: registers, rings, host memory and the mark of a lost event. -/
def Block.HostSide (b b' : Block) : Prop :=
  ∃ r g h l, b' = { b with regs := r, rings := g, host := h, lost := l }

theorem Block.HostSide.refl (b : Block) : b.HostSide b := ⟨b.regs, b.rings, b.host, b.lost, rfl⟩

theorem Block.HostSide.trans {b c d : Block} (h : b.HostSide c) (k : c.HostSide d) : b.HostSide d := by
  obtain ⟨_, _, _, _, rfl⟩ := h
  obtain ⟨r, g, h, l, rfl⟩ := k
  exact ⟨r, g, h, l, rfl⟩

theorem Block.RegsOnly.hostSide {b c : Block} (h : b.RegsOnly c) : b.HostSide c := by
  obtain ⟨r, rfl⟩ := h
  exact ⟨r, b.rings, b.host, b.lost, rfl⟩

theorem Block.setRing_hostSide (b : Block) (r : Nat) (x : Ring) : b.HostSide (b.setRing r x) :=
  ⟨b.regs, _, b.host, b.lost, rfl⟩

theorem Block.dmaWrite_hostSide (b : Block) (a : Nat) (bs : List Byte) : b.HostSide (b.dmaWrite a bs) :=
  ⟨b.regs, b.rings, _, b.lost, rfl⟩

theorem Block.lost_hostSide (b : Block) (l : Bool) : b.HostSide { b with lost := l } := ⟨b.regs, b.rings, b.host, l, rfl⟩

theorem Block.dropEvent_hostSide (b : Block) : b.HostSide b.dropEvent := by
  unfold Block.dropEvent
  split
  · exact .trans (b.lost_hostSide true) (.trans (Block.satFld_regsOnly _ _ _ _).hostSide (Block.intRaw_regsOnly _ _ _).hostSide)
  · exact b.lost_hostSide true

theorem Block.flushDescs_hostSide (b : Block) (r i n : Nat) : b.HostSide (b.flushDescs r i n) := by
  induction n generalizing b i with
  | zero => exact .refl b
  | succ n ih =>
    unfold Block.flushDescs
    dsimp only
    split
    · exact .trans (b.dmaWrite_hostSide _ _) (ih _ _)
    · exact ih _ _

theorem Block.idleRing_hostSide (b : Block) (r : Nat) (quiet : Bool) : b.HostSide (b.idleRing r quiet) := by
  unfold Block.idleRing
  dsimp only
  have h : ∀ (c : Block) (x : Ring), c.HostSide ((c.setRing r x).setFld (PCI.RING_STS r) PCI.RING_STS_IDLE 1) :=
    fun c _ => .trans (c.setRing_hostSide _ _) (Block.setFld_regsOnly _ _ _ _).hostSide
  split
  · exact h _ _
  · exact .trans (b.flushDescs_hostSide _ _ _) (h _ _)

theorem Block.ringErrState_hostSide (b : Block) (r code : Nat) : b.HostSide (b.ringErrState r code) := by
  unfold Block.ringErrState
  dsimp only
  have h : ∀ c : Block, c.HostSide ((c.idleRing r (decide (code = 3))).setFld (PCI.RING_STS r) PCI.RING_STS_STOPPED 1) :=
    fun c => .trans (c.idleRing_hostSide _ _) (Block.setFld_regsOnly _ _ _ _).hostSide
  have k : b.HostSide ((if b.fld (PCI.RING_STS r) PCI.RING_STS_ERR = 0
      then b.setFld (PCI.RING_STS r) PCI.RING_STS_ERR code else b).intRaw 1 0) := by
    split
    · exact .trans (b.setFld_regsOnly _ _ _).hostSide (Block.intRaw_regsOnly _ _ _).hostSide
    · exact (b.intRaw_regsOnly _ _).hostSide
  split
  · exact k
  · exact .trans k (h _)

theorem Block.returned_hostSide (b : Block) (r : Nat) : b.HostSide (b.returned r) := b.setRing_hostSide _ _

theorem Block.takeHead_hostSide (b : Block) (r : Nat) : b.HostSide (b.takeHead r) :=
  .trans (b.setFld_regsOnly _ _ _).hostSide (Block.setRing_hostSide _ _ _)

theorem Block.bumpSeq_hostSide (b : Block) (page : Nat) : b.HostSide (b.bumpSeq page) := (b.setReg_regsOnly _ _).hostSide

theorem Block.placeEvent_hostSide (b : Block) (page cls sub : Nat) (data : List Byte) :
    b.HostSide (b.placeEvent page cls sub data) := by
  unfold Block.placeEvent
  split
  · split
    · exact .trans (b.ringErrState_hostSide _ _) (.trans (Block.dropEvent_hostSide _)
        (.trans (Block.bumpSeq_hostSide _ _) (Block.dropEvent_hostSide _)))
    · exact .trans (b.dmaWrite_hostSide _ _) (.trans (Block.takeHead_hostSide _ _)
        (.trans (Block.returned_hostSide _ _) (Block.lost_hostSide _ _)))
  · exact b.dropEvent_hostSide

/-- An event changes nothing but registers, rings, host memory and the mark of a lost event (R415). -/
theorem Block.event_hostSide (b : Block) (page cls sub : Nat) (data : List Byte) :
    b.HostSide (b.event page cls sub data) := by
  unfold Block.event
  dsimp only
  split
  · exact .trans (b.bumpSeq_hostSide _) (Block.placeEvent_hostSide _ _ _ _ _)
  · exact b.bumpSeq_hostSide _

@[simp] theorem Block.setReg_frozen (b : Block) (a : Nat) (v : Word) :
    (b.setReg a v).frozen = b.frozen := by obtain ⟨r, e⟩ := b.setReg_regsOnly a v; rw [e]
@[simp] theorem Block.setReg_latches (b : Block) (a : Nat) (v : Word) :
    (b.setReg a v).latches = b.latches := by obtain ⟨r, e⟩ := b.setReg_regsOnly a v; rw [e]
@[simp] theorem Block.setReg_armed (b : Block) (a : Nat) (v : Word) :
    (b.setReg a v).armed = b.armed := by obtain ⟨r, e⟩ := b.setReg_regsOnly a v; rw [e]
@[simp] theorem Block.setReg_rings (b : Block) (a : Nat) (v : Word) :
    (b.setReg a v).rings = b.rings := by obtain ⟨r, e⟩ := b.setReg_regsOnly a v; rw [e]
@[simp] theorem Block.setReg_host (b : Block) (a : Nat) (v : Word) :
    (b.setReg a v).host = b.host := by obtain ⟨r, e⟩ := b.setReg_regsOnly a v; rw [e]
@[simp] theorem Block.setReg_lost (b : Block) (a : Nat) (v : Word) :
    (b.setReg a v).lost = b.lost := by obtain ⟨r, e⟩ := b.setReg_regsOnly a v; rw [e]
@[simp] theorem Block.setReg_sent (b : Block) (a : Nat) (v : Word) :
    (b.setReg a v).sent = b.sent := by obtain ⟨r, e⟩ := b.setReg_regsOnly a v; rw [e]
@[simp] theorem Block.setReg_mode (b : Block) (a : Nat) (v : Word) :
    (b.setReg a v).mode = b.mode := by obtain ⟨r, e⟩ := b.setReg_regsOnly a v; rw [e]
@[simp] theorem Block.setReg_time (b : Block) (a : Nat) (v : Word) :
    (b.setReg a v).time = b.time := by obtain ⟨r, e⟩ := b.setReg_regsOnly a v; rw [e]
@[simp] theorem Block.setReg_nv (b : Block) (a : Nat) (v : Word) :
    (b.setReg a v).nv = b.nv := by obtain ⟨r, e⟩ := b.setReg_regsOnly a v; rw [e]
@[simp] theorem Block.setReg_temps (b : Block) (a : Nat) (v : Word) :
    (b.setReg a v).temps = b.temps := by obtain ⟨r, e⟩ := b.setReg_regsOnly a v; rw [e]
@[simp] theorem Block.setReg_fw (b : Block) (a : Nat) (v : Word) :
    (b.setReg a v).fw = b.fw := by obtain ⟨r, e⟩ := b.setReg_regsOnly a v; rw [e]
@[simp] theorem Block.setReg_svc (b : Block) (a : Nat) (v : Word) :
    (b.setReg a v).svc = b.svc := by obtain ⟨r, e⟩ := b.setReg_regsOnly a v; rw [e]
@[simp] theorem Block.setReg_anchors (b : Block) (a : Nat) (v : Word) :
    (b.setReg a v).anchors = b.anchors := by obtain ⟨r, e⟩ := b.setReg_regsOnly a v; rw [e]
@[simp] theorem Block.setReg_csc (b : Block) (a : Nat) (v : Word) :
    (b.setReg a v).csc = b.csc := by obtain ⟨r, e⟩ := b.setReg_regsOnly a v; rw [e]
@[simp] theorem Block.setReg_fd (b : Block) (a : Nat) (v : Word) :
    (b.setReg a v).fd = b.fd := by obtain ⟨r, e⟩ := b.setReg_regsOnly a v; rw [e]
@[simp] theorem Block.setReg_td (b : Block) (a : Nat) (v : Word) :
    (b.setReg a v).td = b.td := by obtain ⟨r, e⟩ := b.setReg_regsOnly a v; rw [e]
@[simp] theorem Block.setReg_line (b : Block) (a : Nat) (v : Word) :
    (b.setReg a v).line = b.line := by obtain ⟨r, e⟩ := b.setReg_regsOnly a v; rw [e]
@[simp] theorem Block.setReg_tbl (b : Block) (a : Nat) (v : Word) :
    (b.setReg a v).tbl = b.tbl := by obtain ⟨r, e⟩ := b.setReg_regsOnly a v; rw [e]
@[simp] theorem Block.setReg_tcam (b : Block) (a : Nat) (v : Word) :
    (b.setReg a v).tcam = b.tcam := by obtain ⟨r, e⟩ := b.setReg_regsOnly a v; rw [e]
@[simp] theorem Block.setReg_d5 (b : Block) (a : Nat) (v : Word) :
    (b.setReg a v).d5 = b.d5 := by obtain ⟨r, e⟩ := b.setReg_regsOnly a v; rw [e]
@[simp] theorem Block.setReg_cnt (b : Block) (a : Nat) (v : Word) :
    (b.setReg a v).cnt = b.cnt := by obtain ⟨r, e⟩ := b.setReg_regsOnly a v; rw [e]
@[simp] theorem Block.setReg_chk (b : Block) (a : Nat) (v : Word) :
    (b.setReg a v).chk = b.chk := by obtain ⟨r, e⟩ := b.setReg_regsOnly a v; rw [e]
@[simp] theorem Block.setReg_pwr (b : Block) (a : Nat) (v : Word) :
    (b.setReg a v).pwr = b.pwr := by obtain ⟨r, e⟩ := b.setReg_regsOnly a v; rw [e]
@[simp] theorem Block.setReg_told (b : Block) (a : Nat) (v : Word) :
    (b.setReg a v).told = b.told := by obtain ⟨r, e⟩ := b.setReg_regsOnly a v; rw [e]
@[simp] theorem Block.setReg_draws (b : Block) (a : Nat) (v : Word) :
    (b.setReg a v).draws = b.draws := by obtain ⟨r, e⟩ := b.setReg_regsOnly a v; rw [e]
@[simp] theorem Block.setReg_out (b : Block) (a : Nat) (v : Word) :
    (b.setReg a v).out = b.out := by obtain ⟨r, e⟩ := b.setReg_regsOnly a v; rw [e]

@[simp] theorem Block.setFld_frozen (b : Block) (a : Nat) (f : Fld) (v : Nat) :
    (b.setFld a f v).frozen = b.frozen := by obtain ⟨r, e⟩ := b.setFld_regsOnly a f v; rw [e]
@[simp] theorem Block.setFld_latches (b : Block) (a : Nat) (f : Fld) (v : Nat) :
    (b.setFld a f v).latches = b.latches := by obtain ⟨r, e⟩ := b.setFld_regsOnly a f v; rw [e]
@[simp] theorem Block.setFld_armed (b : Block) (a : Nat) (f : Fld) (v : Nat) :
    (b.setFld a f v).armed = b.armed := by obtain ⟨r, e⟩ := b.setFld_regsOnly a f v; rw [e]
@[simp] theorem Block.setFld_rings (b : Block) (a : Nat) (f : Fld) (v : Nat) :
    (b.setFld a f v).rings = b.rings := by obtain ⟨r, e⟩ := b.setFld_regsOnly a f v; rw [e]
@[simp] theorem Block.setFld_host (b : Block) (a : Nat) (f : Fld) (v : Nat) :
    (b.setFld a f v).host = b.host := by obtain ⟨r, e⟩ := b.setFld_regsOnly a f v; rw [e]
@[simp] theorem Block.setFld_lost (b : Block) (a : Nat) (f : Fld) (v : Nat) :
    (b.setFld a f v).lost = b.lost := by obtain ⟨r, e⟩ := b.setFld_regsOnly a f v; rw [e]
@[simp] theorem Block.setFld_sent (b : Block) (a : Nat) (f : Fld) (v : Nat) :
    (b.setFld a f v).sent = b.sent := by obtain ⟨r, e⟩ := b.setFld_regsOnly a f v; rw [e]
@[simp] theorem Block.setFld_mode (b : Block) (a : Nat) (f : Fld) (v : Nat) :
    (b.setFld a f v).mode = b.mode := by obtain ⟨r, e⟩ := b.setFld_regsOnly a f v; rw [e]
@[simp] theorem Block.setFld_time (b : Block) (a : Nat) (f : Fld) (v : Nat) :
    (b.setFld a f v).time = b.time := by obtain ⟨r, e⟩ := b.setFld_regsOnly a f v; rw [e]
@[simp] theorem Block.setFld_nv (b : Block) (a : Nat) (f : Fld) (v : Nat) :
    (b.setFld a f v).nv = b.nv := by obtain ⟨r, e⟩ := b.setFld_regsOnly a f v; rw [e]
@[simp] theorem Block.setFld_temps (b : Block) (a : Nat) (f : Fld) (v : Nat) :
    (b.setFld a f v).temps = b.temps := by obtain ⟨r, e⟩ := b.setFld_regsOnly a f v; rw [e]
@[simp] theorem Block.setFld_fw (b : Block) (a : Nat) (f : Fld) (v : Nat) :
    (b.setFld a f v).fw = b.fw := by obtain ⟨r, e⟩ := b.setFld_regsOnly a f v; rw [e]
@[simp] theorem Block.setFld_svc (b : Block) (a : Nat) (f : Fld) (v : Nat) :
    (b.setFld a f v).svc = b.svc := by obtain ⟨r, e⟩ := b.setFld_regsOnly a f v; rw [e]
@[simp] theorem Block.setFld_anchors (b : Block) (a : Nat) (f : Fld) (v : Nat) :
    (b.setFld a f v).anchors = b.anchors := by obtain ⟨r, e⟩ := b.setFld_regsOnly a f v; rw [e]
@[simp] theorem Block.setFld_csc (b : Block) (a : Nat) (f : Fld) (v : Nat) :
    (b.setFld a f v).csc = b.csc := by obtain ⟨r, e⟩ := b.setFld_regsOnly a f v; rw [e]
@[simp] theorem Block.setFld_fd (b : Block) (a : Nat) (f : Fld) (v : Nat) :
    (b.setFld a f v).fd = b.fd := by obtain ⟨r, e⟩ := b.setFld_regsOnly a f v; rw [e]
@[simp] theorem Block.setFld_td (b : Block) (a : Nat) (f : Fld) (v : Nat) :
    (b.setFld a f v).td = b.td := by obtain ⟨r, e⟩ := b.setFld_regsOnly a f v; rw [e]
@[simp] theorem Block.setFld_line (b : Block) (a : Nat) (f : Fld) (v : Nat) :
    (b.setFld a f v).line = b.line := by obtain ⟨r, e⟩ := b.setFld_regsOnly a f v; rw [e]
@[simp] theorem Block.setFld_tbl (b : Block) (a : Nat) (f : Fld) (v : Nat) :
    (b.setFld a f v).tbl = b.tbl := by obtain ⟨r, e⟩ := b.setFld_regsOnly a f v; rw [e]
@[simp] theorem Block.setFld_tcam (b : Block) (a : Nat) (f : Fld) (v : Nat) :
    (b.setFld a f v).tcam = b.tcam := by obtain ⟨r, e⟩ := b.setFld_regsOnly a f v; rw [e]
@[simp] theorem Block.setFld_d5 (b : Block) (a : Nat) (f : Fld) (v : Nat) :
    (b.setFld a f v).d5 = b.d5 := by obtain ⟨r, e⟩ := b.setFld_regsOnly a f v; rw [e]
@[simp] theorem Block.setFld_cnt (b : Block) (a : Nat) (f : Fld) (v : Nat) :
    (b.setFld a f v).cnt = b.cnt := by obtain ⟨r, e⟩ := b.setFld_regsOnly a f v; rw [e]
@[simp] theorem Block.setFld_chk (b : Block) (a : Nat) (f : Fld) (v : Nat) :
    (b.setFld a f v).chk = b.chk := by obtain ⟨r, e⟩ := b.setFld_regsOnly a f v; rw [e]
@[simp] theorem Block.setFld_pwr (b : Block) (a : Nat) (f : Fld) (v : Nat) :
    (b.setFld a f v).pwr = b.pwr := by obtain ⟨r, e⟩ := b.setFld_regsOnly a f v; rw [e]
@[simp] theorem Block.setFld_told (b : Block) (a : Nat) (f : Fld) (v : Nat) :
    (b.setFld a f v).told = b.told := by obtain ⟨r, e⟩ := b.setFld_regsOnly a f v; rw [e]
@[simp] theorem Block.setFld_draws (b : Block) (a : Nat) (f : Fld) (v : Nat) :
    (b.setFld a f v).draws = b.draws := by obtain ⟨r, e⟩ := b.setFld_regsOnly a f v; rw [e]
@[simp] theorem Block.setFld_out (b : Block) (a : Nat) (f : Fld) (v : Nat) :
    (b.setFld a f v).out = b.out := by obtain ⟨r, e⟩ := b.setFld_regsOnly a f v; rw [e]

@[simp] theorem Block.intRaw_frozen (b : Block) (page bit : Nat) :
    (b.intRaw page bit).frozen = b.frozen := by obtain ⟨r, e⟩ := b.intRaw_regsOnly page bit; rw [e]
@[simp] theorem Block.intRaw_latches (b : Block) (page bit : Nat) :
    (b.intRaw page bit).latches = b.latches := by obtain ⟨r, e⟩ := b.intRaw_regsOnly page bit; rw [e]
@[simp] theorem Block.intRaw_armed (b : Block) (page bit : Nat) :
    (b.intRaw page bit).armed = b.armed := by obtain ⟨r, e⟩ := b.intRaw_regsOnly page bit; rw [e]
@[simp] theorem Block.intRaw_rings (b : Block) (page bit : Nat) :
    (b.intRaw page bit).rings = b.rings := by obtain ⟨r, e⟩ := b.intRaw_regsOnly page bit; rw [e]
@[simp] theorem Block.intRaw_host (b : Block) (page bit : Nat) :
    (b.intRaw page bit).host = b.host := by obtain ⟨r, e⟩ := b.intRaw_regsOnly page bit; rw [e]
@[simp] theorem Block.intRaw_lost (b : Block) (page bit : Nat) :
    (b.intRaw page bit).lost = b.lost := by obtain ⟨r, e⟩ := b.intRaw_regsOnly page bit; rw [e]
@[simp] theorem Block.intRaw_sent (b : Block) (page bit : Nat) :
    (b.intRaw page bit).sent = b.sent := by obtain ⟨r, e⟩ := b.intRaw_regsOnly page bit; rw [e]
@[simp] theorem Block.intRaw_mode (b : Block) (page bit : Nat) :
    (b.intRaw page bit).mode = b.mode := by obtain ⟨r, e⟩ := b.intRaw_regsOnly page bit; rw [e]
@[simp] theorem Block.intRaw_time (b : Block) (page bit : Nat) :
    (b.intRaw page bit).time = b.time := by obtain ⟨r, e⟩ := b.intRaw_regsOnly page bit; rw [e]
@[simp] theorem Block.intRaw_nv (b : Block) (page bit : Nat) :
    (b.intRaw page bit).nv = b.nv := by obtain ⟨r, e⟩ := b.intRaw_regsOnly page bit; rw [e]
@[simp] theorem Block.intRaw_temps (b : Block) (page bit : Nat) :
    (b.intRaw page bit).temps = b.temps := by obtain ⟨r, e⟩ := b.intRaw_regsOnly page bit; rw [e]
@[simp] theorem Block.intRaw_fw (b : Block) (page bit : Nat) :
    (b.intRaw page bit).fw = b.fw := by obtain ⟨r, e⟩ := b.intRaw_regsOnly page bit; rw [e]
@[simp] theorem Block.intRaw_svc (b : Block) (page bit : Nat) :
    (b.intRaw page bit).svc = b.svc := by obtain ⟨r, e⟩ := b.intRaw_regsOnly page bit; rw [e]
@[simp] theorem Block.intRaw_anchors (b : Block) (page bit : Nat) :
    (b.intRaw page bit).anchors = b.anchors := by obtain ⟨r, e⟩ := b.intRaw_regsOnly page bit; rw [e]
@[simp] theorem Block.intRaw_csc (b : Block) (page bit : Nat) :
    (b.intRaw page bit).csc = b.csc := by obtain ⟨r, e⟩ := b.intRaw_regsOnly page bit; rw [e]
@[simp] theorem Block.intRaw_fd (b : Block) (page bit : Nat) :
    (b.intRaw page bit).fd = b.fd := by obtain ⟨r, e⟩ := b.intRaw_regsOnly page bit; rw [e]
@[simp] theorem Block.intRaw_td (b : Block) (page bit : Nat) :
    (b.intRaw page bit).td = b.td := by obtain ⟨r, e⟩ := b.intRaw_regsOnly page bit; rw [e]
@[simp] theorem Block.intRaw_line (b : Block) (page bit : Nat) :
    (b.intRaw page bit).line = b.line := by obtain ⟨r, e⟩ := b.intRaw_regsOnly page bit; rw [e]
@[simp] theorem Block.intRaw_tbl (b : Block) (page bit : Nat) :
    (b.intRaw page bit).tbl = b.tbl := by obtain ⟨r, e⟩ := b.intRaw_regsOnly page bit; rw [e]
@[simp] theorem Block.intRaw_tcam (b : Block) (page bit : Nat) :
    (b.intRaw page bit).tcam = b.tcam := by obtain ⟨r, e⟩ := b.intRaw_regsOnly page bit; rw [e]
@[simp] theorem Block.intRaw_d5 (b : Block) (page bit : Nat) :
    (b.intRaw page bit).d5 = b.d5 := by obtain ⟨r, e⟩ := b.intRaw_regsOnly page bit; rw [e]
@[simp] theorem Block.intRaw_cnt (b : Block) (page bit : Nat) :
    (b.intRaw page bit).cnt = b.cnt := by obtain ⟨r, e⟩ := b.intRaw_regsOnly page bit; rw [e]
@[simp] theorem Block.intRaw_chk (b : Block) (page bit : Nat) :
    (b.intRaw page bit).chk = b.chk := by obtain ⟨r, e⟩ := b.intRaw_regsOnly page bit; rw [e]
@[simp] theorem Block.intRaw_pwr (b : Block) (page bit : Nat) :
    (b.intRaw page bit).pwr = b.pwr := by obtain ⟨r, e⟩ := b.intRaw_regsOnly page bit; rw [e]
@[simp] theorem Block.intRaw_told (b : Block) (page bit : Nat) :
    (b.intRaw page bit).told = b.told := by obtain ⟨r, e⟩ := b.intRaw_regsOnly page bit; rw [e]
@[simp] theorem Block.intRaw_draws (b : Block) (page bit : Nat) :
    (b.intRaw page bit).draws = b.draws := by obtain ⟨r, e⟩ := b.intRaw_regsOnly page bit; rw [e]
@[simp] theorem Block.intRaw_out (b : Block) (page bit : Nat) :
    (b.intRaw page bit).out = b.out := by obtain ⟨r, e⟩ := b.intRaw_regsOnly page bit; rw [e]

@[simp] theorem Block.countN_frozen (b : Block) (lo bit n : Nat) :
    (b.countN lo bit n).frozen = b.frozen := by obtain ⟨r, e⟩ := b.countN_regsOnly lo bit n; rw [e]
@[simp] theorem Block.countN_latches (b : Block) (lo bit n : Nat) :
    (b.countN lo bit n).latches = b.latches := by obtain ⟨r, e⟩ := b.countN_regsOnly lo bit n; rw [e]
@[simp] theorem Block.countN_armed (b : Block) (lo bit n : Nat) :
    (b.countN lo bit n).armed = b.armed := by obtain ⟨r, e⟩ := b.countN_regsOnly lo bit n; rw [e]
@[simp] theorem Block.countN_rings (b : Block) (lo bit n : Nat) :
    (b.countN lo bit n).rings = b.rings := by obtain ⟨r, e⟩ := b.countN_regsOnly lo bit n; rw [e]
@[simp] theorem Block.countN_host (b : Block) (lo bit n : Nat) :
    (b.countN lo bit n).host = b.host := by obtain ⟨r, e⟩ := b.countN_regsOnly lo bit n; rw [e]
@[simp] theorem Block.countN_lost (b : Block) (lo bit n : Nat) :
    (b.countN lo bit n).lost = b.lost := by obtain ⟨r, e⟩ := b.countN_regsOnly lo bit n; rw [e]
@[simp] theorem Block.countN_sent (b : Block) (lo bit n : Nat) :
    (b.countN lo bit n).sent = b.sent := by obtain ⟨r, e⟩ := b.countN_regsOnly lo bit n; rw [e]
@[simp] theorem Block.countN_mode (b : Block) (lo bit n : Nat) :
    (b.countN lo bit n).mode = b.mode := by obtain ⟨r, e⟩ := b.countN_regsOnly lo bit n; rw [e]
@[simp] theorem Block.countN_time (b : Block) (lo bit n : Nat) :
    (b.countN lo bit n).time = b.time := by obtain ⟨r, e⟩ := b.countN_regsOnly lo bit n; rw [e]
@[simp] theorem Block.countN_nv (b : Block) (lo bit n : Nat) :
    (b.countN lo bit n).nv = b.nv := by obtain ⟨r, e⟩ := b.countN_regsOnly lo bit n; rw [e]
@[simp] theorem Block.countN_temps (b : Block) (lo bit n : Nat) :
    (b.countN lo bit n).temps = b.temps := by obtain ⟨r, e⟩ := b.countN_regsOnly lo bit n; rw [e]
@[simp] theorem Block.countN_fw (b : Block) (lo bit n : Nat) :
    (b.countN lo bit n).fw = b.fw := by obtain ⟨r, e⟩ := b.countN_regsOnly lo bit n; rw [e]
@[simp] theorem Block.countN_svc (b : Block) (lo bit n : Nat) :
    (b.countN lo bit n).svc = b.svc := by obtain ⟨r, e⟩ := b.countN_regsOnly lo bit n; rw [e]
@[simp] theorem Block.countN_anchors (b : Block) (lo bit n : Nat) :
    (b.countN lo bit n).anchors = b.anchors := by obtain ⟨r, e⟩ := b.countN_regsOnly lo bit n; rw [e]
@[simp] theorem Block.countN_csc (b : Block) (lo bit n : Nat) :
    (b.countN lo bit n).csc = b.csc := by obtain ⟨r, e⟩ := b.countN_regsOnly lo bit n; rw [e]
@[simp] theorem Block.countN_fd (b : Block) (lo bit n : Nat) :
    (b.countN lo bit n).fd = b.fd := by obtain ⟨r, e⟩ := b.countN_regsOnly lo bit n; rw [e]
@[simp] theorem Block.countN_td (b : Block) (lo bit n : Nat) :
    (b.countN lo bit n).td = b.td := by obtain ⟨r, e⟩ := b.countN_regsOnly lo bit n; rw [e]
@[simp] theorem Block.countN_line (b : Block) (lo bit n : Nat) :
    (b.countN lo bit n).line = b.line := by obtain ⟨r, e⟩ := b.countN_regsOnly lo bit n; rw [e]
@[simp] theorem Block.countN_tbl (b : Block) (lo bit n : Nat) :
    (b.countN lo bit n).tbl = b.tbl := by obtain ⟨r, e⟩ := b.countN_regsOnly lo bit n; rw [e]
@[simp] theorem Block.countN_tcam (b : Block) (lo bit n : Nat) :
    (b.countN lo bit n).tcam = b.tcam := by obtain ⟨r, e⟩ := b.countN_regsOnly lo bit n; rw [e]
@[simp] theorem Block.countN_d5 (b : Block) (lo bit n : Nat) :
    (b.countN lo bit n).d5 = b.d5 := by obtain ⟨r, e⟩ := b.countN_regsOnly lo bit n; rw [e]
@[simp] theorem Block.countN_cnt (b : Block) (lo bit n : Nat) :
    (b.countN lo bit n).cnt = b.cnt := by obtain ⟨r, e⟩ := b.countN_regsOnly lo bit n; rw [e]
@[simp] theorem Block.countN_chk (b : Block) (lo bit n : Nat) :
    (b.countN lo bit n).chk = b.chk := by obtain ⟨r, e⟩ := b.countN_regsOnly lo bit n; rw [e]
@[simp] theorem Block.countN_pwr (b : Block) (lo bit n : Nat) :
    (b.countN lo bit n).pwr = b.pwr := by obtain ⟨r, e⟩ := b.countN_regsOnly lo bit n; rw [e]
@[simp] theorem Block.countN_told (b : Block) (lo bit n : Nat) :
    (b.countN lo bit n).told = b.told := by obtain ⟨r, e⟩ := b.countN_regsOnly lo bit n; rw [e]
@[simp] theorem Block.countN_draws (b : Block) (lo bit n : Nat) :
    (b.countN lo bit n).draws = b.draws := by obtain ⟨r, e⟩ := b.countN_regsOnly lo bit n; rw [e]
@[simp] theorem Block.countN_out (b : Block) (lo bit n : Nat) :
    (b.countN lo bit n).out = b.out := by obtain ⟨r, e⟩ := b.countN_regsOnly lo bit n; rw [e]

@[simp] theorem Block.count_frozen (b : Block) (lo bit : Nat) :
    (b.count lo bit).frozen = b.frozen := by obtain ⟨r, e⟩ := b.count_regsOnly lo bit; rw [e]
@[simp] theorem Block.count_latches (b : Block) (lo bit : Nat) :
    (b.count lo bit).latches = b.latches := by obtain ⟨r, e⟩ := b.count_regsOnly lo bit; rw [e]
@[simp] theorem Block.count_armed (b : Block) (lo bit : Nat) :
    (b.count lo bit).armed = b.armed := by obtain ⟨r, e⟩ := b.count_regsOnly lo bit; rw [e]
@[simp] theorem Block.count_rings (b : Block) (lo bit : Nat) :
    (b.count lo bit).rings = b.rings := by obtain ⟨r, e⟩ := b.count_regsOnly lo bit; rw [e]
@[simp] theorem Block.count_host (b : Block) (lo bit : Nat) :
    (b.count lo bit).host = b.host := by obtain ⟨r, e⟩ := b.count_regsOnly lo bit; rw [e]
@[simp] theorem Block.count_lost (b : Block) (lo bit : Nat) :
    (b.count lo bit).lost = b.lost := by obtain ⟨r, e⟩ := b.count_regsOnly lo bit; rw [e]
@[simp] theorem Block.count_sent (b : Block) (lo bit : Nat) :
    (b.count lo bit).sent = b.sent := by obtain ⟨r, e⟩ := b.count_regsOnly lo bit; rw [e]
@[simp] theorem Block.count_mode (b : Block) (lo bit : Nat) :
    (b.count lo bit).mode = b.mode := by obtain ⟨r, e⟩ := b.count_regsOnly lo bit; rw [e]
@[simp] theorem Block.count_time (b : Block) (lo bit : Nat) :
    (b.count lo bit).time = b.time := by obtain ⟨r, e⟩ := b.count_regsOnly lo bit; rw [e]
@[simp] theorem Block.count_nv (b : Block) (lo bit : Nat) :
    (b.count lo bit).nv = b.nv := by obtain ⟨r, e⟩ := b.count_regsOnly lo bit; rw [e]
@[simp] theorem Block.count_temps (b : Block) (lo bit : Nat) :
    (b.count lo bit).temps = b.temps := by obtain ⟨r, e⟩ := b.count_regsOnly lo bit; rw [e]
@[simp] theorem Block.count_fw (b : Block) (lo bit : Nat) :
    (b.count lo bit).fw = b.fw := by obtain ⟨r, e⟩ := b.count_regsOnly lo bit; rw [e]
@[simp] theorem Block.count_svc (b : Block) (lo bit : Nat) :
    (b.count lo bit).svc = b.svc := by obtain ⟨r, e⟩ := b.count_regsOnly lo bit; rw [e]
@[simp] theorem Block.count_anchors (b : Block) (lo bit : Nat) :
    (b.count lo bit).anchors = b.anchors := by obtain ⟨r, e⟩ := b.count_regsOnly lo bit; rw [e]
@[simp] theorem Block.count_csc (b : Block) (lo bit : Nat) :
    (b.count lo bit).csc = b.csc := by obtain ⟨r, e⟩ := b.count_regsOnly lo bit; rw [e]
@[simp] theorem Block.count_fd (b : Block) (lo bit : Nat) :
    (b.count lo bit).fd = b.fd := by obtain ⟨r, e⟩ := b.count_regsOnly lo bit; rw [e]
@[simp] theorem Block.count_td (b : Block) (lo bit : Nat) :
    (b.count lo bit).td = b.td := by obtain ⟨r, e⟩ := b.count_regsOnly lo bit; rw [e]
@[simp] theorem Block.count_line (b : Block) (lo bit : Nat) :
    (b.count lo bit).line = b.line := by obtain ⟨r, e⟩ := b.count_regsOnly lo bit; rw [e]
@[simp] theorem Block.count_tbl (b : Block) (lo bit : Nat) :
    (b.count lo bit).tbl = b.tbl := by obtain ⟨r, e⟩ := b.count_regsOnly lo bit; rw [e]
@[simp] theorem Block.count_tcam (b : Block) (lo bit : Nat) :
    (b.count lo bit).tcam = b.tcam := by obtain ⟨r, e⟩ := b.count_regsOnly lo bit; rw [e]
@[simp] theorem Block.count_d5 (b : Block) (lo bit : Nat) :
    (b.count lo bit).d5 = b.d5 := by obtain ⟨r, e⟩ := b.count_regsOnly lo bit; rw [e]
@[simp] theorem Block.count_cnt (b : Block) (lo bit : Nat) :
    (b.count lo bit).cnt = b.cnt := by obtain ⟨r, e⟩ := b.count_regsOnly lo bit; rw [e]
@[simp] theorem Block.count_chk (b : Block) (lo bit : Nat) :
    (b.count lo bit).chk = b.chk := by obtain ⟨r, e⟩ := b.count_regsOnly lo bit; rw [e]
@[simp] theorem Block.count_pwr (b : Block) (lo bit : Nat) :
    (b.count lo bit).pwr = b.pwr := by obtain ⟨r, e⟩ := b.count_regsOnly lo bit; rw [e]
@[simp] theorem Block.count_told (b : Block) (lo bit : Nat) :
    (b.count lo bit).told = b.told := by obtain ⟨r, e⟩ := b.count_regsOnly lo bit; rw [e]
@[simp] theorem Block.count_draws (b : Block) (lo bit : Nat) :
    (b.count lo bit).draws = b.draws := by obtain ⟨r, e⟩ := b.count_regsOnly lo bit; rw [e]
@[simp] theorem Block.count_out (b : Block) (lo bit : Nat) :
    (b.count lo bit).out = b.out := by obtain ⟨r, e⟩ := b.count_regsOnly lo bit; rw [e]

@[simp] theorem Block.satFld_frozen (b : Block) (a : Nat) (f : Fld) (n : Nat) :
    (b.satFld a f n).frozen = b.frozen := by obtain ⟨r, e⟩ := b.satFld_regsOnly a f n; rw [e]
@[simp] theorem Block.satFld_latches (b : Block) (a : Nat) (f : Fld) (n : Nat) :
    (b.satFld a f n).latches = b.latches := by obtain ⟨r, e⟩ := b.satFld_regsOnly a f n; rw [e]
@[simp] theorem Block.satFld_armed (b : Block) (a : Nat) (f : Fld) (n : Nat) :
    (b.satFld a f n).armed = b.armed := by obtain ⟨r, e⟩ := b.satFld_regsOnly a f n; rw [e]
@[simp] theorem Block.satFld_rings (b : Block) (a : Nat) (f : Fld) (n : Nat) :
    (b.satFld a f n).rings = b.rings := by obtain ⟨r, e⟩ := b.satFld_regsOnly a f n; rw [e]
@[simp] theorem Block.satFld_host (b : Block) (a : Nat) (f : Fld) (n : Nat) :
    (b.satFld a f n).host = b.host := by obtain ⟨r, e⟩ := b.satFld_regsOnly a f n; rw [e]
@[simp] theorem Block.satFld_lost (b : Block) (a : Nat) (f : Fld) (n : Nat) :
    (b.satFld a f n).lost = b.lost := by obtain ⟨r, e⟩ := b.satFld_regsOnly a f n; rw [e]
@[simp] theorem Block.satFld_sent (b : Block) (a : Nat) (f : Fld) (n : Nat) :
    (b.satFld a f n).sent = b.sent := by obtain ⟨r, e⟩ := b.satFld_regsOnly a f n; rw [e]
@[simp] theorem Block.satFld_mode (b : Block) (a : Nat) (f : Fld) (n : Nat) :
    (b.satFld a f n).mode = b.mode := by obtain ⟨r, e⟩ := b.satFld_regsOnly a f n; rw [e]
@[simp] theorem Block.satFld_time (b : Block) (a : Nat) (f : Fld) (n : Nat) :
    (b.satFld a f n).time = b.time := by obtain ⟨r, e⟩ := b.satFld_regsOnly a f n; rw [e]
@[simp] theorem Block.satFld_nv (b : Block) (a : Nat) (f : Fld) (n : Nat) :
    (b.satFld a f n).nv = b.nv := by obtain ⟨r, e⟩ := b.satFld_regsOnly a f n; rw [e]
@[simp] theorem Block.satFld_temps (b : Block) (a : Nat) (f : Fld) (n : Nat) :
    (b.satFld a f n).temps = b.temps := by obtain ⟨r, e⟩ := b.satFld_regsOnly a f n; rw [e]
@[simp] theorem Block.satFld_fw (b : Block) (a : Nat) (f : Fld) (n : Nat) :
    (b.satFld a f n).fw = b.fw := by obtain ⟨r, e⟩ := b.satFld_regsOnly a f n; rw [e]
@[simp] theorem Block.satFld_svc (b : Block) (a : Nat) (f : Fld) (n : Nat) :
    (b.satFld a f n).svc = b.svc := by obtain ⟨r, e⟩ := b.satFld_regsOnly a f n; rw [e]
@[simp] theorem Block.satFld_anchors (b : Block) (a : Nat) (f : Fld) (n : Nat) :
    (b.satFld a f n).anchors = b.anchors := by obtain ⟨r, e⟩ := b.satFld_regsOnly a f n; rw [e]
@[simp] theorem Block.satFld_csc (b : Block) (a : Nat) (f : Fld) (n : Nat) :
    (b.satFld a f n).csc = b.csc := by obtain ⟨r, e⟩ := b.satFld_regsOnly a f n; rw [e]
@[simp] theorem Block.satFld_fd (b : Block) (a : Nat) (f : Fld) (n : Nat) :
    (b.satFld a f n).fd = b.fd := by obtain ⟨r, e⟩ := b.satFld_regsOnly a f n; rw [e]
@[simp] theorem Block.satFld_td (b : Block) (a : Nat) (f : Fld) (n : Nat) :
    (b.satFld a f n).td = b.td := by obtain ⟨r, e⟩ := b.satFld_regsOnly a f n; rw [e]
@[simp] theorem Block.satFld_line (b : Block) (a : Nat) (f : Fld) (n : Nat) :
    (b.satFld a f n).line = b.line := by obtain ⟨r, e⟩ := b.satFld_regsOnly a f n; rw [e]
@[simp] theorem Block.satFld_tbl (b : Block) (a : Nat) (f : Fld) (n : Nat) :
    (b.satFld a f n).tbl = b.tbl := by obtain ⟨r, e⟩ := b.satFld_regsOnly a f n; rw [e]
@[simp] theorem Block.satFld_tcam (b : Block) (a : Nat) (f : Fld) (n : Nat) :
    (b.satFld a f n).tcam = b.tcam := by obtain ⟨r, e⟩ := b.satFld_regsOnly a f n; rw [e]
@[simp] theorem Block.satFld_d5 (b : Block) (a : Nat) (f : Fld) (n : Nat) :
    (b.satFld a f n).d5 = b.d5 := by obtain ⟨r, e⟩ := b.satFld_regsOnly a f n; rw [e]
@[simp] theorem Block.satFld_cnt (b : Block) (a : Nat) (f : Fld) (n : Nat) :
    (b.satFld a f n).cnt = b.cnt := by obtain ⟨r, e⟩ := b.satFld_regsOnly a f n; rw [e]
@[simp] theorem Block.satFld_chk (b : Block) (a : Nat) (f : Fld) (n : Nat) :
    (b.satFld a f n).chk = b.chk := by obtain ⟨r, e⟩ := b.satFld_regsOnly a f n; rw [e]
@[simp] theorem Block.satFld_pwr (b : Block) (a : Nat) (f : Fld) (n : Nat) :
    (b.satFld a f n).pwr = b.pwr := by obtain ⟨r, e⟩ := b.satFld_regsOnly a f n; rw [e]
@[simp] theorem Block.satFld_told (b : Block) (a : Nat) (f : Fld) (n : Nat) :
    (b.satFld a f n).told = b.told := by obtain ⟨r, e⟩ := b.satFld_regsOnly a f n; rw [e]
@[simp] theorem Block.satFld_draws (b : Block) (a : Nat) (f : Fld) (n : Nat) :
    (b.satFld a f n).draws = b.draws := by obtain ⟨r, e⟩ := b.satFld_regsOnly a f n; rw [e]
@[simp] theorem Block.satFld_out (b : Block) (a : Nat) (f : Fld) (n : Nat) :
    (b.satFld a f n).out = b.out := by obtain ⟨r, e⟩ := b.satFld_regsOnly a f n; rw [e]

@[simp] theorem Block.emitOut_regs (b : Block) (o : Out) : (b.emitOut o).regs = b.regs := rfl
@[simp] theorem Block.emitOut_frozen (b : Block) (o : Out) : (b.emitOut o).frozen = b.frozen := rfl
@[simp] theorem Block.emitOut_latches (b : Block) (o : Out) : (b.emitOut o).latches = b.latches := rfl
@[simp] theorem Block.emitOut_armed (b : Block) (o : Out) : (b.emitOut o).armed = b.armed := rfl
@[simp] theorem Block.emitOut_rings (b : Block) (o : Out) : (b.emitOut o).rings = b.rings := rfl
@[simp] theorem Block.emitOut_host (b : Block) (o : Out) : (b.emitOut o).host = b.host := rfl
@[simp] theorem Block.emitOut_lost (b : Block) (o : Out) : (b.emitOut o).lost = b.lost := rfl
@[simp] theorem Block.emitOut_sent (b : Block) (o : Out) : (b.emitOut o).sent = b.sent := rfl
@[simp] theorem Block.emitOut_mode (b : Block) (o : Out) : (b.emitOut o).mode = b.mode := rfl
@[simp] theorem Block.emitOut_time (b : Block) (o : Out) : (b.emitOut o).time = b.time := rfl
@[simp] theorem Block.emitOut_nv (b : Block) (o : Out) : (b.emitOut o).nv = b.nv := rfl
@[simp] theorem Block.emitOut_temps (b : Block) (o : Out) : (b.emitOut o).temps = b.temps := rfl
@[simp] theorem Block.emitOut_fw (b : Block) (o : Out) : (b.emitOut o).fw = b.fw := rfl
@[simp] theorem Block.emitOut_svc (b : Block) (o : Out) : (b.emitOut o).svc = b.svc := rfl
@[simp] theorem Block.emitOut_anchors (b : Block) (o : Out) : (b.emitOut o).anchors = b.anchors := rfl
@[simp] theorem Block.emitOut_csc (b : Block) (o : Out) : (b.emitOut o).csc = b.csc := rfl
@[simp] theorem Block.emitOut_fd (b : Block) (o : Out) : (b.emitOut o).fd = b.fd := rfl
@[simp] theorem Block.emitOut_td (b : Block) (o : Out) : (b.emitOut o).td = b.td := rfl
@[simp] theorem Block.emitOut_line (b : Block) (o : Out) : (b.emitOut o).line = b.line := rfl
@[simp] theorem Block.emitOut_tbl (b : Block) (o : Out) : (b.emitOut o).tbl = b.tbl := rfl
@[simp] theorem Block.emitOut_tcam (b : Block) (o : Out) : (b.emitOut o).tcam = b.tcam := rfl
@[simp] theorem Block.emitOut_d5 (b : Block) (o : Out) : (b.emitOut o).d5 = b.d5 := rfl
@[simp] theorem Block.emitOut_cnt (b : Block) (o : Out) : (b.emitOut o).cnt = b.cnt := rfl
@[simp] theorem Block.emitOut_chk (b : Block) (o : Out) : (b.emitOut o).chk = b.chk := rfl
@[simp] theorem Block.emitOut_pwr (b : Block) (o : Out) : (b.emitOut o).pwr = b.pwr := rfl
@[simp] theorem Block.emitOut_told (b : Block) (o : Out) : (b.emitOut o).told = b.told := rfl
@[simp] theorem Block.emitOut_draws (b : Block) (o : Out) : (b.emitOut o).draws = b.draws := rfl

@[simp] theorem Block.setRing_regs (b : Block) (r : Nat) (x : Ring) : (b.setRing r x).regs = b.regs := rfl
@[simp] theorem Block.setRing_frozen (b : Block) (r : Nat) (x : Ring) : (b.setRing r x).frozen = b.frozen := rfl
@[simp] theorem Block.setRing_latches (b : Block) (r : Nat) (x : Ring) : (b.setRing r x).latches = b.latches := rfl
@[simp] theorem Block.setRing_armed (b : Block) (r : Nat) (x : Ring) : (b.setRing r x).armed = b.armed := rfl
@[simp] theorem Block.setRing_host (b : Block) (r : Nat) (x : Ring) : (b.setRing r x).host = b.host := rfl
@[simp] theorem Block.setRing_lost (b : Block) (r : Nat) (x : Ring) : (b.setRing r x).lost = b.lost := rfl
@[simp] theorem Block.setRing_sent (b : Block) (r : Nat) (x : Ring) : (b.setRing r x).sent = b.sent := rfl
@[simp] theorem Block.setRing_mode (b : Block) (r : Nat) (x : Ring) : (b.setRing r x).mode = b.mode := rfl
@[simp] theorem Block.setRing_time (b : Block) (r : Nat) (x : Ring) : (b.setRing r x).time = b.time := rfl
@[simp] theorem Block.setRing_nv (b : Block) (r : Nat) (x : Ring) : (b.setRing r x).nv = b.nv := rfl
@[simp] theorem Block.setRing_temps (b : Block) (r : Nat) (x : Ring) : (b.setRing r x).temps = b.temps := rfl
@[simp] theorem Block.setRing_fw (b : Block) (r : Nat) (x : Ring) : (b.setRing r x).fw = b.fw := rfl
@[simp] theorem Block.setRing_svc (b : Block) (r : Nat) (x : Ring) : (b.setRing r x).svc = b.svc := rfl
@[simp] theorem Block.setRing_anchors (b : Block) (r : Nat) (x : Ring) : (b.setRing r x).anchors = b.anchors := rfl
@[simp] theorem Block.setRing_csc (b : Block) (r : Nat) (x : Ring) : (b.setRing r x).csc = b.csc := rfl
@[simp] theorem Block.setRing_fd (b : Block) (r : Nat) (x : Ring) : (b.setRing r x).fd = b.fd := rfl
@[simp] theorem Block.setRing_td (b : Block) (r : Nat) (x : Ring) : (b.setRing r x).td = b.td := rfl
@[simp] theorem Block.setRing_line (b : Block) (r : Nat) (x : Ring) : (b.setRing r x).line = b.line := rfl
@[simp] theorem Block.setRing_tbl (b : Block) (r : Nat) (x : Ring) : (b.setRing r x).tbl = b.tbl := rfl
@[simp] theorem Block.setRing_tcam (b : Block) (r : Nat) (x : Ring) : (b.setRing r x).tcam = b.tcam := rfl
@[simp] theorem Block.setRing_d5 (b : Block) (r : Nat) (x : Ring) : (b.setRing r x).d5 = b.d5 := rfl
@[simp] theorem Block.setRing_cnt (b : Block) (r : Nat) (x : Ring) : (b.setRing r x).cnt = b.cnt := rfl
@[simp] theorem Block.setRing_chk (b : Block) (r : Nat) (x : Ring) : (b.setRing r x).chk = b.chk := rfl
@[simp] theorem Block.setRing_pwr (b : Block) (r : Nat) (x : Ring) : (b.setRing r x).pwr = b.pwr := rfl
@[simp] theorem Block.setRing_told (b : Block) (r : Nat) (x : Ring) : (b.setRing r x).told = b.told := rfl
@[simp] theorem Block.setRing_draws (b : Block) (r : Nat) (x : Ring) : (b.setRing r x).draws = b.draws := rfl
@[simp] theorem Block.setRing_out (b : Block) (r : Nat) (x : Ring) : (b.setRing r x).out = b.out := rfl

@[simp] theorem Block.dmaWrite_regs (b : Block) (a : Nat) (bs : List Byte) : (b.dmaWrite a bs).regs = b.regs := rfl
@[simp] theorem Block.dmaWrite_frozen (b : Block) (a : Nat) (bs : List Byte) : (b.dmaWrite a bs).frozen = b.frozen := rfl
@[simp] theorem Block.dmaWrite_latches (b : Block) (a : Nat) (bs : List Byte) : (b.dmaWrite a bs).latches = b.latches := rfl
@[simp] theorem Block.dmaWrite_armed (b : Block) (a : Nat) (bs : List Byte) : (b.dmaWrite a bs).armed = b.armed := rfl
@[simp] theorem Block.dmaWrite_rings (b : Block) (a : Nat) (bs : List Byte) : (b.dmaWrite a bs).rings = b.rings := rfl
@[simp] theorem Block.dmaWrite_lost (b : Block) (a : Nat) (bs : List Byte) : (b.dmaWrite a bs).lost = b.lost := rfl
@[simp] theorem Block.dmaWrite_sent (b : Block) (a : Nat) (bs : List Byte) : (b.dmaWrite a bs).sent = b.sent := rfl
@[simp] theorem Block.dmaWrite_mode (b : Block) (a : Nat) (bs : List Byte) : (b.dmaWrite a bs).mode = b.mode := rfl
@[simp] theorem Block.dmaWrite_time (b : Block) (a : Nat) (bs : List Byte) : (b.dmaWrite a bs).time = b.time := rfl
@[simp] theorem Block.dmaWrite_nv (b : Block) (a : Nat) (bs : List Byte) : (b.dmaWrite a bs).nv = b.nv := rfl
@[simp] theorem Block.dmaWrite_temps (b : Block) (a : Nat) (bs : List Byte) : (b.dmaWrite a bs).temps = b.temps := rfl
@[simp] theorem Block.dmaWrite_fw (b : Block) (a : Nat) (bs : List Byte) : (b.dmaWrite a bs).fw = b.fw := rfl
@[simp] theorem Block.dmaWrite_svc (b : Block) (a : Nat) (bs : List Byte) : (b.dmaWrite a bs).svc = b.svc := rfl
@[simp] theorem Block.dmaWrite_anchors (b : Block) (a : Nat) (bs : List Byte) : (b.dmaWrite a bs).anchors = b.anchors := rfl
@[simp] theorem Block.dmaWrite_csc (b : Block) (a : Nat) (bs : List Byte) : (b.dmaWrite a bs).csc = b.csc := rfl
@[simp] theorem Block.dmaWrite_fd (b : Block) (a : Nat) (bs : List Byte) : (b.dmaWrite a bs).fd = b.fd := rfl
@[simp] theorem Block.dmaWrite_td (b : Block) (a : Nat) (bs : List Byte) : (b.dmaWrite a bs).td = b.td := rfl
@[simp] theorem Block.dmaWrite_line (b : Block) (a : Nat) (bs : List Byte) : (b.dmaWrite a bs).line = b.line := rfl
@[simp] theorem Block.dmaWrite_tbl (b : Block) (a : Nat) (bs : List Byte) : (b.dmaWrite a bs).tbl = b.tbl := rfl
@[simp] theorem Block.dmaWrite_tcam (b : Block) (a : Nat) (bs : List Byte) : (b.dmaWrite a bs).tcam = b.tcam := rfl
@[simp] theorem Block.dmaWrite_d5 (b : Block) (a : Nat) (bs : List Byte) : (b.dmaWrite a bs).d5 = b.d5 := rfl
@[simp] theorem Block.dmaWrite_cnt (b : Block) (a : Nat) (bs : List Byte) : (b.dmaWrite a bs).cnt = b.cnt := rfl
@[simp] theorem Block.dmaWrite_chk (b : Block) (a : Nat) (bs : List Byte) : (b.dmaWrite a bs).chk = b.chk := rfl
@[simp] theorem Block.dmaWrite_pwr (b : Block) (a : Nat) (bs : List Byte) : (b.dmaWrite a bs).pwr = b.pwr := rfl
@[simp] theorem Block.dmaWrite_told (b : Block) (a : Nat) (bs : List Byte) : (b.dmaWrite a bs).told = b.told := rfl
@[simp] theorem Block.dmaWrite_draws (b : Block) (a : Nat) (bs : List Byte) : (b.dmaWrite a bs).draws = b.draws := rfl
@[simp] theorem Block.dmaWrite_out (b : Block) (a : Nat) (bs : List Byte) : (b.dmaWrite a bs).out = b.out := rfl

@[simp] theorem Block.event_frozen (b : Block) (page cls sub : Nat) (data : List Byte) :
    (b.event page cls sub data).frozen = b.frozen := by obtain ⟨r, g, h, l, e⟩ := b.event_hostSide page cls sub data; rw [e]
@[simp] theorem Block.event_latches (b : Block) (page cls sub : Nat) (data : List Byte) :
    (b.event page cls sub data).latches = b.latches := by obtain ⟨r, g, h, l, e⟩ := b.event_hostSide page cls sub data; rw [e]
@[simp] theorem Block.event_armed (b : Block) (page cls sub : Nat) (data : List Byte) :
    (b.event page cls sub data).armed = b.armed := by obtain ⟨r, g, h, l, e⟩ := b.event_hostSide page cls sub data; rw [e]
@[simp] theorem Block.event_sent (b : Block) (page cls sub : Nat) (data : List Byte) :
    (b.event page cls sub data).sent = b.sent := by obtain ⟨r, g, h, l, e⟩ := b.event_hostSide page cls sub data; rw [e]
@[simp] theorem Block.event_mode (b : Block) (page cls sub : Nat) (data : List Byte) :
    (b.event page cls sub data).mode = b.mode := by obtain ⟨r, g, h, l, e⟩ := b.event_hostSide page cls sub data; rw [e]
@[simp] theorem Block.event_time (b : Block) (page cls sub : Nat) (data : List Byte) :
    (b.event page cls sub data).time = b.time := by obtain ⟨r, g, h, l, e⟩ := b.event_hostSide page cls sub data; rw [e]
@[simp] theorem Block.event_nv (b : Block) (page cls sub : Nat) (data : List Byte) :
    (b.event page cls sub data).nv = b.nv := by obtain ⟨r, g, h, l, e⟩ := b.event_hostSide page cls sub data; rw [e]
@[simp] theorem Block.event_temps (b : Block) (page cls sub : Nat) (data : List Byte) :
    (b.event page cls sub data).temps = b.temps := by obtain ⟨r, g, h, l, e⟩ := b.event_hostSide page cls sub data; rw [e]
@[simp] theorem Block.event_fw (b : Block) (page cls sub : Nat) (data : List Byte) :
    (b.event page cls sub data).fw = b.fw := by obtain ⟨r, g, h, l, e⟩ := b.event_hostSide page cls sub data; rw [e]
@[simp] theorem Block.event_svc (b : Block) (page cls sub : Nat) (data : List Byte) :
    (b.event page cls sub data).svc = b.svc := by obtain ⟨r, g, h, l, e⟩ := b.event_hostSide page cls sub data; rw [e]
@[simp] theorem Block.event_anchors (b : Block) (page cls sub : Nat) (data : List Byte) :
    (b.event page cls sub data).anchors = b.anchors := by obtain ⟨r, g, h, l, e⟩ := b.event_hostSide page cls sub data; rw [e]
@[simp] theorem Block.event_csc (b : Block) (page cls sub : Nat) (data : List Byte) :
    (b.event page cls sub data).csc = b.csc := by obtain ⟨r, g, h, l, e⟩ := b.event_hostSide page cls sub data; rw [e]
@[simp] theorem Block.event_fd (b : Block) (page cls sub : Nat) (data : List Byte) :
    (b.event page cls sub data).fd = b.fd := by obtain ⟨r, g, h, l, e⟩ := b.event_hostSide page cls sub data; rw [e]
@[simp] theorem Block.event_td (b : Block) (page cls sub : Nat) (data : List Byte) :
    (b.event page cls sub data).td = b.td := by obtain ⟨r, g, h, l, e⟩ := b.event_hostSide page cls sub data; rw [e]
@[simp] theorem Block.event_line (b : Block) (page cls sub : Nat) (data : List Byte) :
    (b.event page cls sub data).line = b.line := by obtain ⟨r, g, h, l, e⟩ := b.event_hostSide page cls sub data; rw [e]
@[simp] theorem Block.event_tbl (b : Block) (page cls sub : Nat) (data : List Byte) :
    (b.event page cls sub data).tbl = b.tbl := by obtain ⟨r, g, h, l, e⟩ := b.event_hostSide page cls sub data; rw [e]
@[simp] theorem Block.event_tcam (b : Block) (page cls sub : Nat) (data : List Byte) :
    (b.event page cls sub data).tcam = b.tcam := by obtain ⟨r, g, h, l, e⟩ := b.event_hostSide page cls sub data; rw [e]
@[simp] theorem Block.event_d5 (b : Block) (page cls sub : Nat) (data : List Byte) :
    (b.event page cls sub data).d5 = b.d5 := by obtain ⟨r, g, h, l, e⟩ := b.event_hostSide page cls sub data; rw [e]
@[simp] theorem Block.event_cnt (b : Block) (page cls sub : Nat) (data : List Byte) :
    (b.event page cls sub data).cnt = b.cnt := by obtain ⟨r, g, h, l, e⟩ := b.event_hostSide page cls sub data; rw [e]
@[simp] theorem Block.event_chk (b : Block) (page cls sub : Nat) (data : List Byte) :
    (b.event page cls sub data).chk = b.chk := by obtain ⟨r, g, h, l, e⟩ := b.event_hostSide page cls sub data; rw [e]
@[simp] theorem Block.event_pwr (b : Block) (page cls sub : Nat) (data : List Byte) :
    (b.event page cls sub data).pwr = b.pwr := by obtain ⟨r, g, h, l, e⟩ := b.event_hostSide page cls sub data; rw [e]
@[simp] theorem Block.event_told (b : Block) (page cls sub : Nat) (data : List Byte) :
    (b.event page cls sub data).told = b.told := by obtain ⟨r, g, h, l, e⟩ := b.event_hostSide page cls sub data; rw [e]
@[simp] theorem Block.event_draws (b : Block) (page cls sub : Nat) (data : List Byte) :
    (b.event page cls sub data).draws = b.draws := by obtain ⟨r, g, h, l, e⟩ := b.event_hostSide page cls sub data; rw [e]
@[simp] theorem Block.event_out (b : Block) (page cls sub : Nat) (data : List Byte) :
    (b.event page cls sub data).out = b.out := by obtain ⟨r, g, h, l, e⟩ := b.event_hostSide page cls sub data; rw [e]

end Sys2Proof.Machine
end

