-- ==== Sys2Proof/Laws/Store.lean ====
section
/-! SUPPORT. Sparse maps and byte memories: a read after a write, what a write leaves alone, and that every operation keeps
the canonical form. -/

namespace Sys2Proof.Machine

variable {α : Type}

/-- Every key of a map lies above `k`. -/
def NMap.above (k : Nat) (m : NMap α) : Prop := ∀ e ∈ m, k < e.1

theorem NMap.rising_cons {j : Nat} {v : α} {r : NMap α} (h : NMap.rising ((j, v) :: r) = true) :
    NMap.above j r ∧ NMap.rising r = true := by
  induction r generalizing j v with
  | nil => exact ⟨fun _ he => absurd he List.not_mem_nil, rfl⟩
  | cons e r ih =>
    obtain ⟨k, w⟩ := e
    simp only [NMap.rising, Bool.and_eq_true, decide_eq_true_eq] at h
    have a := (ih h.2).1
    refine ⟨fun e he => ?_, h.2⟩
    rcases List.mem_cons.mp he with rfl | he
    · exact h.1
    · exact Nat.lt_trans h.1 (a e he)

theorem NMap.rising_of {j : Nat} {v : α} {r : NMap α} (a : NMap.above j r) (h : NMap.rising r = true) :
    NMap.rising ((j, v) :: r) = true := by
  cases r with
  | nil => rfl
  | cons e r =>
    obtain ⟨k, w⟩ := e
    simp only [NMap.rising, Bool.and_eq_true, decide_eq_true_eq]
    exact ⟨a (k, w) List.mem_cons_self, h⟩

theorem NMap.mem_put {m : NMap α} {k : Nat} {v : α} {e : Nat × α} (h : e ∈ NMap.put m k v) : e = (k, v) ∨ e ∈ m := by
  induction m with
  | nil => simpa [NMap.put] using h
  | cons f r ih =>
    obtain ⟨j, w⟩ := f
    unfold NMap.put at h
    split at h
    · rcases List.mem_cons.mp h with h | h
      · exact .inl h
      · exact .inr (List.mem_cons_of_mem _ h)
    · split at h
      · rcases List.mem_cons.mp h with h | h
        · exact .inl h
        · exact .inr h
      · rcases List.mem_cons.mp h with h | h
        · exact .inr (h ▸ List.mem_cons_self)
        · exact (ih h).imp id (List.mem_cons_of_mem _)

theorem NMap.put_rising {m : NMap α} (h : NMap.rising m = true) (k : Nat) (v : α) : NMap.rising (NMap.put m k v) = true := by
  induction m with
  | nil => rfl
  | cons f r ih =>
    obtain ⟨j, w⟩ := f
    obtain ⟨a, hr⟩ := NMap.rising_cons h
    unfold NMap.put
    split
    · next e => exact NMap.rising_of (e ▸ a) hr
    · split
      · next hk =>
        refine NMap.rising_of (fun e he => ?_) h
        rcases List.mem_cons.mp he with rfl | he
        · exact hk
        · exact Nat.lt_trans hk (a e he)
      · next h1 h2 =>
        refine NMap.rising_of (fun e he => ?_) (ih hr)
        rcases NMap.mem_put he with rfl | he
        · exact Nat.lt_of_le_of_ne (Nat.le_of_not_lt h2) h1
        · exact a e he

theorem NMap.filter_rising {m : NMap α} (h : NMap.rising m = true) (p : Nat × α → Bool) :
    NMap.rising (m.filter p) = true := by
  induction m with
  | nil => rfl
  | cons f r ih =>
    obtain ⟨j, w⟩ := f
    obtain ⟨a, hr⟩ := NMap.rising_cons h
    rw [List.filter_cons]
    split
    · exact NMap.rising_of (fun e he => a e (List.mem_filter.mp he).1) (ih hr)
    · exact ih hr

/-- A filter keeps the canonical form. -/
theorem NMap.filter_wf [DecidableEq α] {d : Nat → α} {m : NMap α} (h : NMap.wf d m = true) (p : Nat × α → Bool) :
    NMap.wf d (m.filter p) = true := by
  simp only [NMap.wf, Bool.and_eq_true, List.all_eq_true] at h ⊢
  exact ⟨NMap.filter_rising h.1 p, fun e he => h.2 e (List.mem_filter.mp he).1⟩

/-- A write keeps the canonical form. -/
theorem NMap.set_wf [DecidableEq α] {d : Nat → α} {m : NMap α} (h : NMap.wf d m = true) (k : Nat) (v : α) :
    NMap.wf d (NMap.set (d k) m k v) = true := by
  unfold NMap.set
  split
  · exact NMap.filter_wf h _
  · next hv =>
    simp only [NMap.wf, Bool.and_eq_true, List.all_eq_true] at h ⊢
    refine ⟨NMap.put_rising h.1 k v, fun e he => ?_⟩
    rcases NMap.mem_put he with rfl | he
    · exact decide_eq_true hv
    · exact h.2 e he

theorem NMap.find_put_same (m : NMap α) (k : Nat) (v : α) : NMap.find? (NMap.put m k v) k = some v := by
  induction m with
  | nil => simp [NMap.put, NMap.find?]
  | cons f r ih =>
    obtain ⟨j, w⟩ := f
    unfold NMap.put
    split
    · simp [NMap.find?]
    · split
      · simp [NMap.find?]
      · next h1 _ => simp [NMap.find?, h1, ih]

theorem NMap.find_put_ne (m : NMap α) {k j : Nat} (h : k ≠ j) (v : α) :
    NMap.find? (NMap.put m k v) j = NMap.find? m j := by
  induction m with
  | nil => simp [NMap.put, NMap.find?, h]
  | cons f r ih =>
    obtain ⟨i, w⟩ := f
    unfold NMap.put
    split
    · next e => subst e; simp [NMap.find?, h]
    · split
      · simp [NMap.find?, h]
      · simp only [NMap.find?, ih]

theorem NMap.find_del_same (m : NMap α) (k : Nat) : NMap.find? (NMap.del m k) k = none := by
  induction m with
  | nil => rfl
  | cons f r ih =>
    obtain ⟨j, w⟩ := f
    unfold NMap.del at ih ⊢
    rw [List.filter_cons]
    by_cases h : j = k
    · simpa [h] using ih
    · simpa [h, NMap.find?] using ih

theorem NMap.find_del_ne (m : NMap α) {k j : Nat} (h : k ≠ j) : NMap.find? (NMap.del m k) j = NMap.find? m j := by
  induction m with
  | nil => rfl
  | cons f r ih =>
    obtain ⟨i, w⟩ := f
    unfold NMap.del at ih ⊢
    rw [List.filter_cons]
    by_cases e : i = k
    · subst e
      simpa [NMap.find?, h] using ih
    · simp only [e, bne_iff_ne, ne_eq, not_false_eq_true, ↓reduceIte, NMap.find?, ih]

/-- A read after a write of the same key gives the value written. -/
@[simp] theorem NMap.get_set_same [DecidableEq α] (d : α) (m : NMap α) (k : Nat) (v : α) :
    NMap.get d (NMap.set d m k v) k = v := by
  unfold NMap.get NMap.set
  by_cases h : v = d
  · rw [if_pos h, NMap.find_del_same, h]
  · rw [if_neg h, NMap.find_put_same]

/-- A write leaves every other key alone. -/
theorem NMap.get_set_ne [DecidableEq α] (d : α) (m : NMap α) {k j : Nat} (h : k ≠ j) (v : α) :
    NMap.get d (NMap.set d m k v) j = NMap.get d m j := by
  unfold NMap.get NMap.set
  by_cases e : v = d
  · rw [if_pos e, NMap.find_del_ne m h]
  · rw [if_neg e, NMap.find_put_ne m h]

/-- A byte read where it was written. -/
@[simp] theorem Memory.read_write_same (m : Memory) (a : Nat) (b : Byte) : Memory.read (Memory.write m a b) a = b :=
  NMap.get_set_same 0#8 m a b

/-- A byte read elsewhere. -/
theorem Memory.read_write_ne (m : Memory) {a c : Nat} (h : a ≠ c) (b : Byte) :
    Memory.read (Memory.write m a b) c = Memory.read m c := NMap.get_set_ne 0#8 m h b

/-- Writing bytes leaves every address outside them alone. -/
theorem Memory.read_writeN_outside (m : Memory) (a : Nat) (bs : List Byte) (c : Nat) (h : c < a ∨ a + bs.length ≤ c) :
    Memory.read (Memory.writeN m a bs) c = Memory.read m c := by
  induction bs generalizing m a with
  | nil => rfl
  | cons b bs ih =>
    rw [Memory.writeN, ih _ _ (by simp only [List.length_cons] at h; omega), Memory.read_write_ne]
    simp only [List.length_cons] at h
    omega

/-- Byte `i` of what was written reads back. -/
theorem Memory.read_writeN_inside (m : Memory) (a : Nat) (bs : List Byte) (i : Nat) (h : i < bs.length) :
    Memory.read (Memory.writeN m a bs) (a + i) = bs[i] := by
  induction bs generalizing m a i with
  | nil => exact absurd h (Nat.not_lt_zero _)
  | cons b bs ih =>
    cases i with
    | zero =>
      rw [Memory.writeN, Memory.read_writeN_outside _ _ _ _ (Or.inl (by omega))]
      exact Memory.read_write_same _ _ _
    | succ i =>
      rw [Memory.writeN, show a + (i + 1) = a + 1 + i by omega, ih _ _ i (by simpa using h)]
      rfl

/-- A byte write keeps the canonical form. -/
theorem Memory.write_wf {m : Memory} (h : m.wf = true) (a : Nat) (b : Byte) : (Memory.write m a b).wf = true :=
  NMap.set_wf (d := fun _ => 0#8) h a b

/-- A write of bytes keeps the canonical form. -/
theorem Memory.writeN_wf {m : Memory} (h : m.wf = true) (a : Nat) (bs : List Byte) : (Memory.writeN m a bs).wf = true := by
  induction bs generalizing m a with
  | nil => exact h
  | cons b bs ih => exact ih (Memory.write_wf h a b) _

/-- Taking addresses off the list keeps the canonical form. -/
theorem Memory.filter_wf {m : Memory} (h : m.wf = true) (p : Nat × Byte → Bool) : Memory.wf (m.filter p) = true :=
  NMap.filter_wf (d := fun _ => 0#8) h p

/-- A transfer to host memory keeps its canonical form. -/
theorem Block.dmaWrite_wf {b : Block} (h : b.host.mem.wf = true) (a : Nat) (bs : List Byte) :
    (b.dmaWrite a bs).host.mem.wf = true := Memory.writeN_wf h a bs

/-- A block of a download keeps the canonical form of the NV die's bytes. -/
theorem Block.updBlock_wf {b : Block} (h : b.nv.mem.wf = true) (off : Nat) (bs : List Byte) :
    Memory.wf (Memory.writeN b.nv.mem (b.fw.dlBase + off) bs) = true := Memory.writeN_wf h _ _

/-- Writing DDR5 bytes keeps their canonical form, before the write queues take the units. -/
theorem Block.d5Store_wf {b : Block} (h : b.d5.mem.wf = true) (a : Nat) (bs : List Byte) :
    Memory.wf (Memory.writeN b.d5.mem a bs) = true := Memory.writeN_wf h a bs

/-- The memories after reset list nothing. -/
theorem State.reset_memories_wf :
    State.reset.blk.host.mem.wf = true ∧ State.reset.blk.nv.mem.wf = true ∧ State.reset.blk.d5.mem.wf = true :=
  ⟨rfl, rfl, rfl⟩

end Sys2Proof.Machine
end

