-- ==== Sys2Proof/Laws/Regs.lean ====
section
/-! SUPPORT. The register file: what a stored register reads, what a store leaves alone, and the fields of a word. -/

namespace Sys2Proof.Machine

/-- A stored register reads back within the bits that exist (R10). -/
theorem Block.reg_setReg_same (b : Block) (a : Nat) (v : Word) : (b.setReg a v).reg a = v &&& maskOf a := by
  unfold Block.reg Block.setReg
  by_cases h : v &&& maskOf a = resetOf a
  · dsimp only
    rw [if_pos h, NMap.find_del_same, h]
  · dsimp only
    rw [if_neg h, NMap.find_put_same]

/-- A store leaves every other register alone. -/
theorem Block.reg_setReg_ne (b : Block) {a c : Nat} (h : a ≠ c) (v : Word) : (b.setReg a v).reg c = b.reg c := by
  unfold Block.reg Block.setReg
  by_cases e : v &&& maskOf a = resetOf a
  · simp only [if_pos e, NMap.find_del_ne _ h]
  · simp only [if_neg e, NMap.find_put_ne _ h]

theorem Block.reg_setFld_ne (b : Block) {a c : Nat} (h : a ≠ c) (f : Fld) (v : Nat) : (b.setFld a f v).reg c = b.reg c :=
  b.reg_setReg_ne h _

theorem Block.reg_intRaw_ne (b : Block) {p c : Nat} (h : HDR.INT_RAW p ≠ c) (bit : Nat) :
    (b.intRaw p bit).reg c = b.reg c := b.reg_setReg_ne h _

theorem Block.reg_intRawIf_ne (b : Block) (k : Bool) {p c : Nat} (h : HDR.INT_RAW p ≠ c) (bit : Nat) :
    (b.intRawIf k p bit).reg c = b.reg c := by
  unfold Block.intRawIf
  split
  · exact b.reg_intRaw_ne h bit
  · rfl

/-- A count leaves every register alone but its own two and its page's `INT_RAW` (R443). -/
theorem Block.reg_countN_ne (b : Block) {lo c : Nat} (h1 : lo ≠ c) (h2 : lo + 4 ≠ c) (h3 : HDR.INT_RAW (lo / 0x10000) ≠ c)
    (bit n : Nat) : (b.countN lo bit n).reg c = b.reg c := by
  unfold Block.countN
  dsimp only
  rw [Block.reg_intRawIf_ne _ _ h3, Block.reg_setReg_ne _ h2, Block.reg_setReg_ne _ h1]

theorem Block.reg_count_ne (b : Block) {lo c : Nat} (h1 : lo ≠ c) (h2 : lo + 4 ≠ c) (h3 : HDR.INT_RAW (lo / 0x10000) ≠ c)
    (bit : Nat) : (b.count lo bit).reg c = b.reg c := b.reg_countN_ne h1 h2 h3 bit 1

/-- A field reads the number last put into it, cut to the field's width. -/
theorem fldGet_fldPut_same (f : Fld) (w : Word) (v : Nat) (h : f.lsb + f.width ≤ 32) :
    fldGet f (fldPut f w v) = v % 2 ^ f.width := by
  apply Nat.eq_of_testBit_eq
  intro i
  unfold fldGet fldPut fldMask
  rw [Nat.testBit_mod_two_pow, Nat.testBit_shiftRight, Nat.testBit_mod_two_pow, BitVec.testBit_toNat, BitVec.getLsbD_or,
    BitVec.getLsbD_and, BitVec.getLsbD_not, BitVec.getLsbD_ofNat, BitVec.getLsbD_ofNat, Nat.testBit_shiftLeft,
    Nat.testBit_shiftLeft, Nat.testBit_two_pow_sub_one, Nat.testBit_mod_two_pow]
  by_cases hi : i < f.width
  · have h32 : f.lsb + i < 32 := by omega
    simp [hi, h32]
  · simp [hi]

end Sys2Proof.Machine
end

