-- ==== Sys2Proof/Laws/Events.lean ====
section
/-! SUPPORT. The registers that an event, a capture and an access to an unassigned page may change. -/

namespace Sys2Proof.Machine

@[simp] theorem Block.reg_setRing (b : Block) (r : Nat) (x : Ring) (a : Nat) : (b.setRing r x).reg a = b.reg a := rfl

@[simp] theorem Block.reg_dmaWrite (b : Block) (k : Nat) (bs : List Byte) (a : Nat) : (b.dmaWrite k bs).reg a = b.reg a := rfl

@[simp] theorem Block.reg_returned (b : Block) (r a : Nat) : (b.returned r).reg a = b.reg a := rfl

@[simp] theorem Block.reg_lost (b : Block) (l : Bool) (a : Nat) : Block.reg { b with lost := l } a = b.reg a := rfl

theorem Block.reg_takeHead_ne (b : Block) (r : Nat) {a : Nat} (h : PCI.RING_HEAD r ≠ a) : (b.takeHead r).reg a = b.reg a := by
  unfold Block.takeHead
  dsimp only
  rw [Block.reg_setRing, Block.reg_setFld_ne _ h]

theorem Block.reg_flushDescs (b : Block) (r i n a : Nat) : (b.flushDescs r i n).reg a = b.reg a := by
  induction n generalizing b i with
  | zero => rfl
  | succ n ih =>
    unfold Block.flushDescs
    dsimp only
    rw [ih]
    split <;> rfl

theorem Block.reg_idleRing_ne (b : Block) (r : Nat) (quiet : Bool) {a : Nat} (h : PCI.RING_STS r ≠ a) :
    (b.idleRing r quiet).reg a = b.reg a := by
  unfold Block.idleRing
  dsimp only
  rw [Block.reg_setFld_ne _ h, Block.reg_setRing]
  split
  · rfl
  · exact b.reg_flushDescs _ _ _ a

theorem Block.reg_dropEvent_ne (b : Block) {a : Nat} (h1 : PCI.RING_STS 65 ≠ a) (h2 : HDR.INT_RAW 1 ≠ a) :
    b.dropEvent.reg a = b.reg a := by
  unfold Block.dropEvent
  split
  · rw [Block.reg_intRaw_ne _ h2]
    exact Block.reg_setFld_ne _ h1 _ _
  · rfl

theorem Block.reg_ringErrState_ne (b : Block) (r code : Nat) {a : Nat} (h1 : PCI.RING_STS r ≠ a) (h2 : HDR.INT_RAW 1 ≠ a) :
    (b.ringErrState r code).reg a = b.reg a := by
  unfold Block.ringErrState
  dsimp only
  have k : ((if b.fld (PCI.RING_STS r) PCI.RING_STS_ERR = 0 then b.setFld (PCI.RING_STS r) PCI.RING_STS_ERR code else b).intRaw
      1 0).reg a = b.reg a := by
    rw [Block.reg_intRaw_ne _ h2]
    split
    · exact b.reg_setFld_ne h1 _ _
    · rfl
  split
  · exact k
  · rw [Block.reg_setFld_ne _ h1, Block.reg_idleRing_ne _ _ _ h1, k]

theorem Block.reg_bumpSeq_ne (b : Block) {p a : Nat} (h : HDR.EVT_SEQ p ≠ a) : (b.bumpSeq p).reg a = b.reg a :=
  b.reg_setReg_ne h _

/-- An event changes no register but those named (R413, R415). -/
theorem Block.reg_event_ne (b : Block) (page cls sub : Nat) (data : List Byte) {a : Nat} (h : a ∉ eventRegs page) :
    (b.event page cls sub data).reg a = b.reg a := by
  simp only [eventRegs, List.mem_cons, List.not_mem_nil, or_false, not_or] at h
  obtain ⟨h1, h2, h3, h4, h5⟩ := h
  have h1 := Ne.symm h1; have h2 := Ne.symm h2; have h3 := Ne.symm h3; have h4 := Ne.symm h4; have h5 := Ne.symm h5
  unfold Block.event
  dsimp only
  split
  · rw [← b.reg_bumpSeq_ne h1]
    unfold Block.placeEvent
    split
    · split
      · rw [Block.reg_dropEvent_ne _ h5 h3, Block.reg_bumpSeq_ne _ h2, Block.reg_dropEvent_ne _ h5 h3,
          Block.reg_ringErrState_ne _ _ _ h5 h3]
      · rw [Block.reg_lost, Block.reg_returned, Block.reg_takeHead_ne _ _ h4, Block.reg_dmaWrite]
    · exact Block.reg_dropEvent_ne _ h5 h3
  · exact b.reg_bumpSeq_ne h1

/-- A capture changes no register but the page's `ERR_ADDR` and `ERR_INFO` and what its event may (R405). -/
theorem Block.reg_capture_ne (b : Block) (page off src : Nat) (write : Bool) (lsb code : Nat) {a : Nat}
    (h : a ∉ HDR.ERR_ADDR page :: HDR.ERR_INFO page :: eventRegs page) :
    (b.capture page off src write lsb code).reg a = b.reg a := by
  rw [List.mem_cons, List.mem_cons, not_or, not_or] at h
  obtain ⟨h1, h2, h3⟩ := h
  unfold Block.capture
  dsimp only
  split
  · rfl
  · rw [Block.reg_event_ne _ _ _ _ _ h3, Block.reg_setReg_ne _ (Ne.symm h2), Block.reg_setReg_ne _ (Ne.symm h1)]

theorem Block.capture_hostSide (b : Block) (page off src : Nat) (write : Bool) (lsb code : Nat) :
    b.HostSide (b.capture page off src write lsb code) := by
  unfold Block.capture
  dsimp only
  split
  · exact .refl b
  · exact .trans (b.setReg_regsOnly _ _).hostSide (.trans (Block.setReg_regsOnly _ _ _).hostSide (Block.event_hostSide _ _ _ _ _))

/-- What changes nothing but registers, rings, host memory and the mark of a lost event, as claims state it. -/
theorem Block.HostSide.onlyHost {b b' : Block} (h : b.HostSide b') : b.onlyHost b' := by
  obtain ⟨_, _, _, _, rfl⟩ := h
  rfl

theorem Block.RegsOnly.onlyRegs {b b' : Block} (h : b.RegsOnly b') : b.onlyRegs b' := by
  obtain ⟨_, rfl⟩ := h
  rfl

end Sys2Proof.Machine
end

