-- ==== Sys2Proof/Laws/Write.lean ====
section
/-! SUPPORT. What a write that its page accepts does: the fields taken, the register stored, the captures and the register's effect. -/

namespace Sys2Proof.Machine

@[simp] theorem Block.reg_disarm (b : Block) (p : Nat) (src : Source) (a : Nat) : (b.disarm p src).reg a = b.reg a := rfl

@[simp] theorem Block.reg_unlatch (b : Block) (src : Source) (k a : Nat) : (b.unlatch src k).reg a = b.reg a := rfl

@[simp] theorem Block.flag_disarm (b : Block) (p : Nat) (src : Source) (a : Nat) (f : Fld) :
    (b.disarm p src).flag a f = b.flag a f := rfl

/-- A write that its page accepts: the unlock is disarmed, the fields are taken by their access codes, what they hold now is
stored, refused fields are captured, and the register's effect follows (R8 to R11, R403 to R405). -/
theorem Block.regWriteMeets_accepted {b : Block} {src : Source} {a : Nat} (m : Meets) (v : Word) {r : RegDesc}
    (h : b.accepts src a) (hk : a % 0x10000 ≠ 0x34) (hr : regOf a = some r) :
    b.regWriteMeets m src a v =
      (effOf src m a
        (writeFields r (b.reg a) v (b.isArmed (a / 0x10000) src) (regBad (b.disarm (a / 0x10000) src) src a (b.reg a) v))
        (b.reg a)
        (((b.disarm (a / 0x10000) src).setReg a
          (writeFields r (b.reg a) v (b.isArmed (a / 0x10000) src)
            (regBad (b.disarm (a / 0x10000) src) src a (b.reg a) v)).value).captureFields a src
          (writeFields r (b.reg a) v (b.isArmed (a / 0x10000) src)
            (regBad (b.disarm (a / 0x10000) src) src a (b.reg a) v)))).unlatch src a := by
  obtain ⟨h1, h2, h3, h4⟩ := h
  obtain ⟨row, h2⟩ := Option.isSome_iff_exists.mp h2
  simp only [Block.regWriteMeets, Block.writeWord, Block.pageWrite, h1, h2, h3, h4, hr, hk, Block.reg_disarm, Block.flag_disarm,
    Option.isNone_some, Bool.false_eq_true, if_false, decide_false, Bool.false_and, Bool.and_false, Bool.not_true]

end Sys2Proof.Machine
end

