-- ==== Sys2Proof/Laws/Fields.lean ====
section
/-! SUPPORT. Fields of a word that do not touch each other, and what a write makes of each field of a register. -/

namespace Sys2Proof.Machine

/-- Two fields have no bit in common. -/
def fldApart (f g : Fld) : Prop := f.lsb + f.width ≤ g.lsb ∨ g.lsb + g.width ≤ f.lsb

/-- A field keeps its number when another field is put. -/
theorem fldGet_fldPut_apart {f g : Fld} (w : Word) (v : Nat) (h : fldApart f g) : fldGet g (fldPut f w v) = fldGet g w := by
  apply Nat.eq_of_testBit_eq
  intro i
  unfold fldGet fldPut fldMask
  rw [Nat.testBit_mod_two_pow, Nat.testBit_mod_two_pow, Nat.testBit_shiftRight, Nat.testBit_shiftRight, BitVec.testBit_toNat,
    BitVec.testBit_toNat, BitVec.getLsbD_or, BitVec.getLsbD_and, BitVec.getLsbD_not, BitVec.getLsbD_ofNat, BitVec.getLsbD_ofNat,
    Nat.testBit_shiftLeft, Nat.testBit_shiftLeft, Nat.testBit_two_pow_sub_one, Nat.testBit_mod_two_pow]
  by_cases hi : i < g.width
  · by_cases hb : g.lsb + i < 32
    · rcases h with h | h
      · have : ¬ (g.lsb + i - f.lsb < f.width) := by omega
        simp [hi, hb, this]
      · have : ¬ (f.lsb ≤ g.lsb + i) := by omega
        simp [hi, hb, this]
    · have : w.getLsbD (g.lsb + i) = false := BitVec.getLsbD_of_ge w _ (by omega)
      simp [hi, hb, this]
  · simp [hi]

/-- A field that the bits of a mask cover is kept by the mask. -/
theorem fldGet_and_mask {f : Fld} {m : Word} (w : Word) (h : fldMask f &&& m = fldMask f) (hw : f.lsb + f.width ≤ 32) :
    fldGet f (w &&& m) = fldGet f w := by
  apply Nat.eq_of_testBit_eq
  intro i
  unfold fldGet
  rw [Nat.testBit_mod_two_pow, Nat.testBit_mod_two_pow, Nat.testBit_shiftRight, Nat.testBit_shiftRight, BitVec.testBit_toNat,
    BitVec.testBit_toNat, BitVec.getLsbD_and]
  by_cases hi : i < f.width
  · have hb : (fldMask f &&& m).getLsbD (f.lsb + i) = (fldMask f).getLsbD (f.lsb + i) := by rw [h]
    have hm : (fldMask f).getLsbD (f.lsb + i) = true := by
      unfold fldMask
      rw [BitVec.getLsbD_ofNat, Nat.testBit_shiftLeft, Nat.testBit_two_pow_sub_one]
      have : f.lsb + i < 32 := by omega
      simp [this, hi]
    rw [BitVec.getLsbD_and, hm, Bool.true_and] at hb
    simp [hb]
  · simp [hi]

theorem fldGet_lt (f : Fld) (w : Word) : fldGet f w < 2 ^ f.width := Nat.mod_lt _ (Nat.two_pow_pos _)

theorem writeField_unlocked (old v : Word) (bad : List Nat) (o : WriteOut) (f : FieldDesc) :
    (writeField old v bad o f).unlocked = o.unlocked := by
  unfold writeField
  dsimp only
  repeat' split
  all_goals rfl

/-- A write of one field leaves every field apart from it alone. -/
theorem writeField_apart (old v : Word) (bad : List Nat) (o : WriteOut) (f : FieldDesc) {g : Fld} (h : fldApart f.fld g) :
    fldGet g (writeField old v bad o f).value = fldGet g o.value := by
  unfold writeField
  dsimp only
  repeat' split
  all_goals first | rfl | exact fldGet_fldPut_apart _ _ h

theorem FieldDesc.refuses_iff (f : FieldDesc) (v : Word) (bad : List Nat) :
    (decide (fldGet f.fld v < f.lo) || decide (f.hi < fldGet f.fld v) || bad.contains f.lsb) = true ↔ f.refuses v bad := by
  simp [FieldDesc.refuses, or_assoc]

/-- A write of one field, that field. -/
theorem writeField_same (old v : Word) (bad : List Nat) (o : WriteOut) (f : FieldDesc) (h : f.lsb + (f.msb - f.lsb + 1) ≤ 32)
    (ho : fldGet f.fld o.value = fldGet f.fld old) :
    f.takes old v o.unlocked bad (fldGet f.fld (writeField old v bad o f).value) := by
  have lt (w : Word) : fldGet f.fld w < 2 ^ f.fld.width := fldGet_lt _ _
  have put (n : Nat) (hn : n < 2 ^ f.fld.width) : fldGet f.fld (fldPut f.fld o.value n) = n := by
    rw [fldGet_fldPut_same _ _ _ h, Nat.mod_eq_of_lt hn]
  have hor : fldGet f.fld old ||| fldGet f.fld v < 2 ^ f.fld.width := Nat.or_lt_two_pow (lt _) (lt _)
  have hsub : fldGet f.fld old - (fldGet f.fld old &&& fldGet f.fld v) < 2 ^ f.fld.width :=
    Nat.lt_of_le_of_lt (Nat.sub_le _ _) (lt _)
  have hb := f.refuses_iff v bad
  unfold writeField FieldDesc.takes
  cases hacc : f.acc <;> dsimp only
  · exact ho
  · split
    next hc => exact ⟨fun _ => ho, fun hn => absurd (hb.mp hc) hn⟩
    next hc => exact ⟨fun hr => absurd (hb.mpr hr) hc, fun _ => put _ (lt _)⟩
  · exact put _ hsub
  · exact put _ hor
  · exact ho
  · exact ho
  · cases hu : o.unlocked
    · simp only [Bool.not_false, if_true]
      refine ⟨fun _ => ?_, fun hn => absurd hn (by decide)⟩
      split <;> exact ho
    · simp only [Bool.not_true, Bool.false_eq_true, if_false]
      split
      next hc => exact ⟨fun _ => ho, fun _ hn => absurd (hb.mp hc) hn⟩
      next hc => exact ⟨fun hr => absurd (hb.mpr (hr.resolve_left (by decide))) hc, fun _ _ => put _ (lt _)⟩
  · split
    next hz =>
      have hz' : fldGet f.fld v = 0 := hz
      exact ⟨fun _ => by rw [hz', Nat.or_zero]; exact ho, fun _ => ho⟩
    next hz =>
      cases hu : o.unlocked
      · exact ⟨fun hn => absurd hn (by decide), fun _ => ho⟩
      · exact ⟨fun _ => put _ hor, fun hn => absurd hn (by decide)⟩

theorem foldl_writeField_apart (old v : Word) (bad : List Nat) {g : Fld} :
    ∀ (fs : List FieldDesc) (o : WriteOut), (∀ f ∈ fs, fldApart f.fld g) →
      fldGet g (fs.foldl (writeField old v bad) o).value = fldGet g o.value
  | [], _, _ => rfl
  | f :: fs, o, h => by
    rw [List.foldl_cons, foldl_writeField_apart old v bad fs _ (fun x hx => h x (List.mem_cons_of_mem _ hx)),
      writeField_apart _ _ _ _ _ (h f List.mem_cons_self)]

/-- No two fields of a register touch, and all lie within its 32 bits. -/
def RegDesc.fieldsApart (r : RegDesc) : Prop :=
  r.fields.Pairwise (fun f g => fldApart f.fld g.fld) ∧ ∀ f ∈ r.fields, f.lsb + (f.msb - f.lsb + 1) ≤ 32

theorem foldl_writeField_same (old v : Word) (bad : List Nat) (f : FieldDesc) (u : Bool) :
    ∀ (fs : List FieldDesc) (o : WriteOut), fs.Pairwise (fun f g => fldApart f.fld g.fld) →
      (∀ f ∈ fs, f.lsb + (f.msb - f.lsb + 1) ≤ 32) → f ∈ fs → o.unlocked = u → (∀ g ∈ fs, fldGet g.fld o.value = fldGet g.fld old) →
      f.takes old v u bad (fldGet f.fld (fs.foldl (writeField old v bad) o).value)
  | [], _, _, _, h, _, _ => by simp at h
  | g :: fs, o, hp, hw, h, hu, ho => by
    have hp' := List.pairwise_cons.mp hp
    rw [List.foldl_cons]
    rcases List.mem_cons.mp h with rfl | h
    · rw [foldl_writeField_apart _ _ _ _ _ (fun x hx => Or.symm (hp'.1 x hx)), ← hu]
      exact writeField_same _ _ _ _ _ (hw f List.mem_cons_self) (ho f List.mem_cons_self)
    · exact foldl_writeField_same old v bad f u fs _ hp'.2 (fun x hx => hw x (List.mem_cons_of_mem _ hx)) h
        ((writeField_unlocked _ _ _ _ _).trans hu)
        (fun x hx => (writeField_apart _ _ _ _ _ (hp'.1 x hx)).trans (ho x (List.mem_cons_of_mem _ hx)))

/-- Each field of a register after a write, by its access code (R8, R9, R11). -/
theorem writeFields_fld (r : RegDesc) (old v : Word) (u : Bool) (bad : List Nat) (hr : r.fieldsApart) {f : FieldDesc}
    (hf : f ∈ r.fields) : f.takes old v u bad (fldGet f.fld (writeFields r old v u bad).value) :=
  foldl_writeField_same old v bad f u r.fields _ hr.1 hr.2 hf rfl (fun _ _ => rfl)


theorem writeField_took_apart (old v : Word) (bad : List Nat) (o : WriteOut) (f : FieldDesc) {g : Fld} (h : fldApart f.fld g) :
    fldGet g (writeField old v bad o f).took = fldGet g o.took := by
  unfold writeField
  dsimp only
  repeat' split
  all_goals first | rfl | exact fldGet_fldPut_apart _ _ h

/-- What a field of `took` starts from. -/
def FieldDesc.before (f : FieldDesc) (old : Word) : Nat :=
  match f.acc with
  | .ro | .ros | .rw | .rwl => fldGet f.fld old
  | _ => 0

theorem writeField_took_same (old v : Word) (bad : List Nat) (o : WriteOut) (f : FieldDesc)
    (h : f.lsb + (f.msb - f.lsb + 1) ≤ 32) (ho : fldGet f.fld o.took = f.before old) :
    f.sees old v o.unlocked bad (fldGet f.fld (writeField old v bad o f).took) := by
  have lt (w : Word) : fldGet f.fld w < 2 ^ f.fld.width := fldGet_lt _ _
  have put (n : Nat) (hn : n < 2 ^ f.fld.width) : fldGet f.fld (fldPut f.fld o.took n) = n := by
    rw [fldGet_fldPut_same _ _ _ h, Nat.mod_eq_of_lt hn]
  have hb := f.refuses_iff v bad
  unfold FieldDesc.before at ho
  unfold writeField FieldDesc.sees FieldDesc.takes
  cases hacc : f.acc <;> rw [hacc] at ho <;> dsimp only at ho ⊢
  · exact ho
  · split
    next hc => exact ⟨fun _ => ho, fun hn => absurd (hb.mp hc) hn⟩
    next hc => exact ⟨fun hr => absurd (hb.mpr hr) hc, fun _ => put _ (lt _)⟩
  · exact put _ (lt _)
  · exact put _ (lt _)
  · exact put _ (lt _)
  · exact ho
  · cases hu : o.unlocked
    · simp only [Bool.not_false, if_true]
      refine ⟨fun _ => ?_, fun hn => absurd hn (by decide)⟩
      split <;> exact ho
    · simp only [Bool.not_true, Bool.false_eq_true, if_false]
      split
      next hc => exact ⟨fun _ => ho, fun _ hn => absurd (hb.mp hc) hn⟩
      next hc => exact ⟨fun hr => absurd (hb.mpr (hr.resolve_left (by decide))) hc, fun _ _ => put _ (lt _)⟩
  · split
    next hz =>
      have hz' : fldGet f.fld v = 0 := hz
      exact ⟨fun _ => by rw [hz']; exact ho, fun _ => ho⟩
    next hz =>
      cases hu : o.unlocked
      · exact ⟨fun hn => absurd hn (by decide), fun _ => ho⟩
      · exact ⟨fun _ => put _ (lt _), fun hn => absurd hn (by decide)⟩

theorem foldl_took_apart (old v : Word) (bad : List Nat) {g : Fld} :
    ∀ (fs : List FieldDesc) (o : WriteOut), (∀ f ∈ fs, fldApart f.fld g) →
      fldGet g (fs.foldl (writeField old v bad) o).took = fldGet g o.took
  | [], _, _ => rfl
  | f :: fs, o, h => by
    rw [List.foldl_cons, foldl_took_apart old v bad fs _ (fun x hx => h x (List.mem_cons_of_mem _ hx)),
      writeField_took_apart _ _ _ _ _ (h f List.mem_cons_self)]

theorem foldl_took_same (old v : Word) (bad : List Nat) (f : FieldDesc) (u : Bool) :
    ∀ (fs : List FieldDesc) (o : WriteOut), fs.Pairwise (fun f g => fldApart f.fld g.fld) →
      (∀ f ∈ fs, f.lsb + (f.msb - f.lsb + 1) ≤ 32) → f ∈ fs → o.unlocked = u → (∀ g ∈ fs, fldGet g.fld o.took = g.before old) →
      f.sees old v u bad (fldGet f.fld (fs.foldl (writeField old v bad) o).took)
  | [], _, _, _, h, _, _ => by simp at h
  | g :: fs, o, hp, hw, h, hu, ho => by
    have hp' := List.pairwise_cons.mp hp
    rw [List.foldl_cons]
    rcases List.mem_cons.mp h with rfl | h
    · rw [foldl_took_apart _ _ _ _ _ (fun x hx => Or.symm (hp'.1 x hx)), ← hu]
      exact writeField_took_same _ _ _ _ _ (hw f List.mem_cons_self) (ho f List.mem_cons_self)
    · exact foldl_took_same old v bad f u fs _ hp'.2 (fun x hx => hw x (List.mem_cons_of_mem _ hx)) h
        ((writeField_unlocked _ _ _ _ _).trans hu)
        (fun x hx => (writeField_took_apart _ _ _ _ _ (hp'.1 x hx)).trans (ho x (List.mem_cons_of_mem _ hx)))

/-- One field's share of the word that an effect starts from. -/
def initStep (w : Word) (f : FieldDesc) : Word :=
  match f.acc with
  | .rw => w
  | .rwl => w
  | .ro => w
  | .ros => w
  | _ => fldPut ⟨f.lsb, f.msb - f.lsb + 1⟩ w 0

theorem initStep_apart (w : Word) (f : FieldDesc) {g : Fld} (h : fldApart f.fld g) : fldGet g (initStep w f) = fldGet g w := by
  unfold initStep
  split <;> first | rfl | exact fldGet_fldPut_apart _ _ h

theorem foldl_init_apart {g : Fld} : ∀ (fs : List FieldDesc) (w : Word), (∀ f ∈ fs, fldApart f.fld g) →
    fldGet g (fs.foldl initStep w) = fldGet g w
  | [], _, _ => rfl
  | f :: fs, w, h => by
    rw [List.foldl_cons, foldl_init_apart fs _ (fun x hx => h x (List.mem_cons_of_mem _ hx)),
      initStep_apart _ _ (h f List.mem_cons_self)]

theorem foldl_init_same (old : Word) (f : FieldDesc) :
    ∀ (fs : List FieldDesc) (w : Word), fs.Pairwise (fun f g => fldApart f.fld g.fld) →
      (∀ f ∈ fs, f.lsb + (f.msb - f.lsb + 1) ≤ 32) → f ∈ fs → (∀ g ∈ fs, fldGet g.fld w = fldGet g.fld old) →
      fldGet f.fld (fs.foldl initStep w) = f.before old
  | [], _, _, _, h, _ => by simp at h
  | g :: fs, w, hp, hw, h, ho => by
    have hp' := List.pairwise_cons.mp hp
    rw [List.foldl_cons]
    rcases List.mem_cons.mp h with rfl | h
    · rw [foldl_init_apart _ _ (fun x hx => Or.symm (hp'.1 x hx))]
      have hf := hw f List.mem_cons_self
      have h0 : fldGet f.fld (fldPut f.fld w 0) = 0 := by rw [fldGet_fldPut_same _ _ _ hf, Nat.zero_mod]
      have hk := ho f List.mem_cons_self
      unfold initStep FieldDesc.before
      cases f.acc <;> first | exact hk | exact h0
    · exact foldl_init_same old f fs _ hp'.2 (fun x hx => hw x (List.mem_cons_of_mem _ hx)) h
        (fun x hx => (initStep_apart _ _ (hp'.1 x hx)).trans (ho x (List.mem_cons_of_mem _ hx)))

/-- What a register's effect sees in each field (R8, R9, R11). -/
theorem writeFields_took (r : RegDesc) (old v : Word) (u : Bool) (bad : List Nat) (hr : r.fieldsApart) {f : FieldDesc}
    (hf : f ∈ r.fields) : f.sees old v u bad (fldGet f.fld (writeFields r old v u bad).took) :=
  foldl_took_same old v bad f u r.fields _ hr.1 hr.2 hf rfl
    (fun g hg => foldl_init_same old g r.fields old hr.1 hr.2 hg (fun _ _ => rfl))

/-- A field that a write refuses nothing in. -/
def FieldDesc.quiet (f : FieldDesc) (old v : Word) (u : Bool) (bad : List Nat) : Prop :=
  match f.acc with
  | .rw => ¬ f.refuses v bad
  | .rwl => (u = true ∧ ¬ f.refuses v bad) ∨ (u = false ∧ fldGet f.fld v = fldGet f.fld old)
  | .w1sl => u = true ∨ fldGet f.fld v = 0
  | _ => True

theorem writeField_quiet (old v : Word) (bad : List Nat) (o : WriteOut) (f : FieldDesc) (h : f.quiet old v o.unlocked bad) :
    (writeField old v bad o f).lockLsb = o.lockLsb ∧ (writeField old v bad o f).codeLsb = o.codeLsb := by
  have hb := f.refuses_iff v bad
  unfold FieldDesc.quiet at h
  unfold writeField
  cases hacc : f.acc <;> rw [hacc] at h <;> dsimp only at h ⊢
  case rw =>
    split
    next hc => exact absurd (hb.mp hc) h
    next => exact ⟨rfl, rfl⟩
  case rwl =>
    rcases h with ⟨hu, h⟩ | ⟨hu, h⟩
    · rw [hu]
      simp only [Bool.not_true, Bool.false_eq_true, if_false]
      split
      next hc => exact absurd (hb.mp hc) h
      next => exact ⟨rfl, rfl⟩
    · rw [hu]
      simp only [Bool.not_false, if_true]
      split
      next => exact ⟨rfl, rfl⟩
      next hc => exact absurd h hc
  case w1sl =>
    rcases h with hu | h
    · rw [hu]
      split <;> exact ⟨rfl, rfl⟩
    · split
      next => exact ⟨rfl, rfl⟩
      next hc => exact absurd h hc
  all_goals exact ⟨rfl, rfl⟩

theorem foldl_quiet (old v : Word) (u : Bool) (bad : List Nat) :
    ∀ (fs : List FieldDesc) (o : WriteOut), o.unlocked = u → (∀ f ∈ fs, f.quiet old v u bad) →
      (fs.foldl (writeField old v bad) o).lockLsb = o.lockLsb ∧ (fs.foldl (writeField old v bad) o).codeLsb = o.codeLsb
  | [], _, _, _ => ⟨rfl, rfl⟩
  | f :: fs, o, hu, h => by
    rw [List.foldl_cons]
    obtain ⟨a, b⟩ := foldl_quiet old v u bad fs (writeField old v bad o f) ((writeField_unlocked _ _ _ _ _).trans hu)
      (fun x hx => h x (List.mem_cons_of_mem _ hx))
    obtain ⟨c, d⟩ := writeField_quiet old v bad o f (by rw [hu]; exact h f List.mem_cons_self)
    exact ⟨a.trans c, b.trans d⟩

/-- A write that no field refuses calls for no capture (R9, R11). -/
theorem writeFields_quiet (r : RegDesc) (old v : Word) (u : Bool) (bad : List Nat) (h : ∀ f ∈ r.fields, f.quiet old v u bad) :
    (writeFields r old v u bad).lockLsb = none ∧ (writeFields r old v u bad).codeLsb = none :=
  foldl_quiet old v u bad r.fields _ rfl h

/-- Taking fields keeps note of whether the unlock was armed. -/
theorem writeFields_unlocked (r : RegDesc) (old v : Word) (u : Bool) (bad : List Nat) : (writeFields r old v u bad).unlocked = u := by
  have key : ∀ (fs : List FieldDesc) (o : WriteOut), (fs.foldl (writeField old v bad) o).unlocked = o.unlocked := by
    intro fs
    induction fs with
    | nil => exact fun _ => rfl
    | cons f fs ih => exact fun o => (ih _).trans (writeField_unlocked old v bad o f)
  exact key r.fields _

/-- A field that allows every number of its width refuses none that no other state reserves. -/
theorem FieldDesc.not_refuses {f : FieldDesc} (v : Word) (hlo : f.lo = 0) (hhi : f.hi = 2 ^ f.fld.width - 1) :
    ¬ f.refuses v [] := by
  have lt := fldGet_lt f.fld v
  rintro (h | h | h)
  · omega
  · omega
  · cases h

end Sys2Proof.Machine
end

