-- ==== Sys2Proof/Laws/Header.lean ====
section
/-! SUPPORT. The header of an assigned page: its registers and their bits, and what a capture leaves in it. -/

namespace Sys2Proof.Machine

theorem pageOf_header (p o : Nat) (h : o < 0x10000) : (p * 0x10000 + o) / 0x10000 = p ∧ (p * 0x10000 + o) % 0x10000 = o := by
  omega

theorem regAt_row {p o : Nat} {row : PageRow} (e : pageRow p = some row) :
    regAt p o = if o < 0x100 then regsHDR.find? (fun r => r.off = o)
      else row.regs.find? (fun r => r.off ≤ o && dimsHit r.dims (o - r.off)) := by
  simp only [regAt, e]

/-- The header registers of an assigned page. -/
theorem regOf_header {p o : Nat} (hp : (pageRow p).isSome = true) (ho : o < 0x100) :
    regOf (p * 0x10000 + o) = regsHDR.find? (fun r => r.off = o) := by
  obtain ⟨row, e⟩ := Option.isSome_iff_exists.mp hp
  obtain ⟨h1, h2⟩ := pageOf_header p o (by omega)
  have h : regOf (p * 0x10000 + o) = regAt ((p * 0x10000 + o) / 0x10000) ((p * 0x10000 + o) % 0x10000) := rfl
  rw [h, h1, h2, regAt_row e, if_pos ho]

theorem maskOf_some {a : Nat} {r : RegDesc} (hr : regOf a = some r) (hi : ¬ (0x14 ≤ a % 0x10000 ∧ a % 0x10000 ≤ 0x20)) :
    maskOf a = r.mask := by
  have h : (decide (0x14 ≤ a % 0x10000) && decide (a % 0x10000 ≤ 0x20)) = false := by
    rw [← Bool.not_eq_true, Bool.and_eq_true, decide_eq_true_eq, decide_eq_true_eq]
    exact hi
  simp only [maskOf, hr, h, Bool.false_eq_true, if_false]

/-- The bits of a header register that exist. -/
theorem maskOf_header {p o : Nat} {r : RegDesc} (hp : (pageRow p).isSome = true) (ho : o < 0x100)
    (hr : regsHDR.find? (fun r => r.off = o) = some r) (hi : ¬ (0x14 ≤ o ∧ o ≤ 0x20)) :
    maskOf (p * 0x10000 + o) = r.mask :=
  maskOf_some ((regOf_header hp ho).trans hr) (by rw [(pageOf_header p o (by omega)).2]; exact hi)

theorem maskOf_ERR_ADDR {p : Nat} (hp : (pageRow p).isSome = true) : maskOf (HDR.ERR_ADDR p) = 0x3FFFFFC#32 :=
  (maskOf_header hp (by decide) rfl (by decide)).trans (by decide)

theorem maskOf_ERR_INFO {p : Nat} (hp : (pageRow p).isSome = true) : maskOf (HDR.ERR_INFO p) = 0xF800FFFF#32 :=
  (maskOf_header hp (by decide) rfl (by decide)).trans (by decide)

theorem maskOf_PAGE_CTL {p : Nat} (hp : (pageRow p).isSome = true) : maskOf (HDR.PAGE_CTL p) = 0xF#32 :=
  (maskOf_header hp (by decide) rfl (by decide)).trans (by decide)

/-- ERR_ADDR and ERR_INFO are no registers that an event of the page changes. -/
theorem errRegs_quiet (p : Nat) : HDR.ERR_ADDR p ∉ eventRegs p ∧ HDR.ERR_INFO p ∉ eventRegs p := by
  simp only [eventRegs, HDR.ERR_ADDR, HDR.ERR_INFO, HDR.EVT_SEQ, HDR.INT_RAW, PCI.RING_HEAD, PCI.RING_STS, List.mem_cons,
    List.not_mem_nil, or_false]
  omega

theorem Block.capture_eq (b : Block) (page off src : Nat) (write : Bool) (lsb code : Nat) :
    b.capture page off src write lsb code =
      if b.flag (HDR.ERR_INFO page) HDR.ERR_INFO_VALID then b
      else ((b.setReg (HDR.ERR_ADDR page) (BitVec.ofNat 32 (off / 4 * 4))).setReg (HDR.ERR_INFO page)
        (BitVec.ofNat 32 (2 ^ 31 + src * 2 ^ 28 + b2n write * 2 ^ 27 + lsb * 2 ^ 8 + code))).event page 0x10 0x03
          (leBytes 2 page ++ leBytes 2 off ++ leBytes 1 code) := rfl

/-- A capture that finds none held is recorded (R405). -/
theorem Block.capture_free (b : Block) (page off : Nat) (src : Nat) (write : Bool) (lsb code : Nat)
    (hp : (pageRow page).isSome = true) (hf : b.flag (HDR.ERR_INFO page) HDR.ERR_INFO_VALID = false) :
    (b.capture page off src write lsb code).reg (HDR.ERR_ADDR page) = BitVec.ofNat 32 (off / 4 * 4) &&& 0x3FFFFFC#32 ∧
    (b.capture page off src write lsb code).reg (HDR.ERR_INFO page) =
      BitVec.ofNat 32 (2 ^ 31 + src * 2 ^ 28 + b2n write * 2 ^ 27 + lsb * 2 ^ 8 + code) &&& 0xF800FFFF#32 := by
  have hn : HDR.ERR_ADDR page ≠ HDR.ERR_INFO page := by unfold HDR.ERR_ADDR HDR.ERR_INFO; omega
  obtain ⟨h1, h2⟩ := errRegs_quiet page
  have hb : ¬ b.flag (HDR.ERR_INFO page) HDR.ERR_INFO_VALID = true := by rw [hf]; exact Bool.false_ne_true
  rw [Block.capture_eq, if_neg hb]
  constructor
  · rw [Block.reg_event_ne _ _ _ _ _ h1, Block.reg_setReg_ne _ (Ne.symm hn), Block.reg_setReg_same, maskOf_ERR_ADDR hp]
  · rw [Block.reg_event_ne _ _ _ _ _ h2, Block.reg_setReg_same, maskOf_ERR_INFO hp]

/-- A capture that finds one held changes nothing (R405). -/
theorem Block.capture_held (b : Block) (page off : Nat) (src : Nat) (write : Bool) (lsb code : Nat)
    (hf : b.flag (HDR.ERR_INFO page) HDR.ERR_INFO_VALID = true) : b.capture page off src write lsb code = b := by
  rw [Block.capture_eq, if_pos hf]

end Sys2Proof.Machine
end

