-- ==== Sys2Proof/Laws/RegTable.lean ====
section
/-! SUPPORT. The whole register map: no two fields of a register touch, and its mask covers them. -/

namespace Sys2Proof.Machine

/-- Fields of a register in turn: each within 32 bits and apart from those after it. -/
def fieldsApartB : List FieldDesc → Bool
  | [] => true
  | f :: fs => decide (f.lsb ≤ f.msb) && decide (f.msb < 32) && fs.all (fun g => decide (f.msb < g.lsb) || decide (g.msb < f.lsb))
      && fs.all (fun g => decide (g.lsb ≤ g.msb)) && fieldsApartB fs

theorem fieldsApartB_iff : ∀ (fs : List FieldDesc), fieldsApartB fs = true →
    fs.Pairwise (fun f g => fldApart f.fld g.fld) ∧ ∀ f ∈ fs, f.lsb + (f.msb - f.lsb + 1) ≤ 32
  | [], _ => ⟨List.Pairwise.nil, fun _ h => by cases h⟩
  | f :: fs, h => by
    simp only [fieldsApartB, Bool.and_eq_true, decide_eq_true_eq, List.all_eq_true, Bool.or_eq_true] at h
    obtain ⟨⟨⟨⟨h1, h2⟩, h3⟩, h4⟩, h5⟩ := h
    obtain ⟨p, w⟩ := fieldsApartB_iff fs h5
    refine ⟨List.Pairwise.cons (fun g hg => ?_) p, fun g hg => ?_⟩
    · have k := h4 g hg
      rcases h3 g hg with e | e
      · exact .inl (by change f.lsb + (f.msb - f.lsb + 1) ≤ g.lsb; omega)
      · exact .inr (by change g.lsb + (g.msb - g.lsb + 1) ≤ f.lsb; omega)
    · rcases List.mem_cons.mp hg with rfl | hg
      · omega
      · exact w g hg

/-- Every register of the table of pages. -/
theorem pageTable_apart : pageTable.all (fun row => row.regs.all (fun r =>
    fieldsApartB r.fields && r.fields.all (fun f => fldMask f.fld &&& r.mask = fldMask f.fld))) = true := by
  decide +kernel

/-- A register beyond the header: its fields do not touch, and its mask covers them. -/
theorem regOf_apart {a : Nat} {r : RegDesc} (ho : 0x100 ≤ a % 0x10000) (hr : regOf a = some r) :
    r.fieldsApart ∧ (∀ f ∈ r.fields, fldMask f.fld &&& maskOf a = fldMask f.fld) := by
  have hm : maskOf a = r.mask := maskOf_some hr (by omega)
  have h : regOf a = regAt (a / 0x10000) (a % 0x10000) := rfl
  rw [h] at hr
  cases e : pageRow (a / 0x10000) with
  | none => simp only [regAt, e] at hr; cases hr
  | some row =>
    rw [regAt_row e, if_neg (by omega)] at hr
    have hrow := List.mem_of_find?_eq_some e
    have hmem := List.mem_of_find?_eq_some hr
    have k := List.all_eq_true.mp (List.all_eq_true.mp pageTable_apart row hrow) r hmem
    rw [Bool.and_eq_true] at k
    rw [hm]
    exact ⟨fieldsApartB_iff _ k.1, fun f hf => of_decide_eq_true (List.all_eq_true.mp k.2 f hf)⟩

/-- What a store leaves in a field of the register stored. -/
theorem Block.fld_setReg_same (b : Block) (a : Nat) (v : Word) (f : Fld) (h : fldMask f &&& maskOf a = fldMask f)
    (hw : f.lsb + f.width ≤ 32) : (b.setReg a v).fld a f = fldGet f v := by
  unfold Block.fld
  rw [Block.reg_setReg_same, fldGet_and_mask _ h hw]

/-- A field stored reads back, cut to its width. -/
theorem Block.fld_setFld_same (b : Block) (a : Nat) (f : Fld) (v : Nat) (h : fldMask f &&& maskOf a = fldMask f)
    (hw : f.lsb + f.width ≤ 32) : (b.setFld a f v).fld a f = v % 2 ^ f.width := by
  unfold Block.setFld
  rw [Block.fld_setReg_same _ _ _ _ h hw, fldGet_fldPut_same _ _ _ hw]

/-- A field keeps its number when a field of the same register that it does not touch is stored. -/
theorem Block.fld_setFld_apart (b : Block) (a : Nat) {f g : Fld} (v : Nat) (h : fldMask g &&& maskOf a = fldMask g)
    (hw : g.lsb + g.width ≤ 32) (k : fldApart f g) : (b.setFld a f v).fld a g = b.fld a g := by
  unfold Block.setFld
  rw [Block.fld_setReg_same _ _ _ _ h hw, fldGet_fldPut_apart _ _ k]
  rfl

/-- Fields of other registers keep their numbers. -/
theorem Block.fld_setReg_ne (b : Block) {a c : Nat} (h : a ≠ c) (v : Word) (f : Fld) : (b.setReg a v).fld c f = b.fld c f := by
  unfold Block.fld
  rw [Block.reg_setReg_ne _ h]

theorem Block.fld_setFld_ne (b : Block) {a c : Nat} (h : a ≠ c) (f g : Fld) (v : Nat) :
    (b.setFld a f v).fld c g = b.fld c g := b.fld_setReg_ne h _ g

theorem Block.fld_congr {b c : Block} {a : Nat} (h : b.reg a = c.reg a) (f : Fld) : b.fld a f = c.fld a f := by
  unfold Block.fld
  rw [h]

theorem Block.flag_congr {b c : Block} {a : Nat} {f : Fld} (h : b.fld a f = c.fld a f) : b.flag a f = c.flag a f := by
  unfold Block.flag
  rw [h]

theorem Block.flag_true {b : Block} {a : Nat} {f : Fld} {n : Nat} (h : b.fld a f = n) (hn : n ≠ 0) : b.flag a f = true :=
  decide_eq_true (by rw [h]; exact hn)

theorem Block.flag_false {b : Block} {a : Nat} {f : Fld} (h : b.fld a f = 0) : b.flag a f = false :=
  decide_eq_false (by rw [h]; exact fun k => k rfl)

theorem Block.fld_of_flag_false {b : Block} {a : Nat} {f : Fld} (h : b.flag a f = false) : b.fld a f = 0 :=
  Decidable.of_not_not (fun k => absurd ((decide_eq_true k : b.flag a f = true).symm.trans h) (by decide))

theorem fldApart_of (f g : Fld) (h : f.lsb + f.width ≤ g.lsb ∨ g.lsb + g.width ≤ f.lsb := by decide) : fldApart f g := h

theorem fldGet_put (f : Fld) (w : Word) (v : Nat) (h : f.lsb + f.width ≤ 32 := by decide) (hv : v < 2 ^ f.width := by decide) :
    fldGet f (fldPut f w v) = v := by
  rw [fldGet_fldPut_same f w v h, Nat.mod_eq_of_lt hv]

/-- Copying a run of registers leaves every other register alone. -/
theorem Block.regCopy_ne (b : Block) (src dst : Nat) {c : Nat} : ∀ (n : Nat) (x : Block), (∀ i, i < n → dst + 4 * i ≠ c) →
    ((upTo n).foldl (fun y i => y.setReg (dst + 4 * i) (b.reg (src + 4 * i))) x).reg c = x.reg c
  | 0, _, _ => rfl
  | n + 1, x, h => by
    unfold upTo
    rw [List.range_succ, List.foldl_append]
    show (Block.setReg _ _ _).reg c = _
    rw [Block.reg_setReg_ne _ (h n (Nat.lt_succ_self n))]
    exact regCopy_ne b src dst n x (fun i hi => h i (Nat.lt_succ_of_lt hi))

/-- Copying a run of registers: each reads what its source held, within the bits that exist. -/
theorem Block.regCopy_same (b : Block) (src dst : Nat) : ∀ (n : Nat) (x : Block) (i : Nat), i < n →
    ((upTo n).foldl (fun y i => y.setReg (dst + 4 * i) (b.reg (src + 4 * i))) x).reg (dst + 4 * i) =
      b.reg (src + 4 * i) &&& maskOf (dst + 4 * i)
  | 0, _, _, h => absurd h (Nat.not_lt_zero _)
  | n + 1, x, i, h => by
    unfold upTo
    rw [List.range_succ, List.foldl_append]
    show (Block.setReg _ _ _).reg (dst + 4 * i) = _
    by_cases e : n = i
    · subst e
      exact Block.reg_setReg_same _ _ _
    · rw [Block.reg_setReg_ne _ (by omega)]
      exact regCopy_same b src dst n x i (by omega)

end Sys2Proof.Machine
end

