-- ==== Sys2Proof/Laws/Access.lean ====
section
/-! SUPPORT. Write accesses whole: four bytes as a word, the captures of refused fields, and a write that no field refuses. -/

namespace Sys2Proof.Machine

/-- With no mailbox request waiting there is nothing to answer. -/
theorem Block.mbAnswer_none (b : Block) (h : b.fw.mbTrasum = none) : b.mbAnswer = b := by
  unfold Block.mbAnswer
  rw [h]

/-- Four enabled bytes spell their word (R7). -/
theorem word_wordBytes (v : Word) : word (leNat ((wordBytes v).filterMap id)) = v := by
  have h : (wordBytes v).filterMap id = leBytes 4 v.toNat := by simp [wordBytes, leBytes]
  have k := v.isLt
  have e : leNat (leBytes 4 v.toNat) = v.toNat := by
    simp only [leBytes, leNat, BitVec.toNat_ofNat]
    omega
  rw [h, e, word, BitVec.ofNat_toNat]
  simp

/-- A full four-byte access of an aligned register is one word written (R399). -/
theorem Block.access_word (b : Block) (src : Source) (a : Nat) (v : Word) (ha : a < 2 ^ 26) (h4 : a % 4 = 0) :
    b.access ⟨src, BitVec.ofNat 26 a, wordBytes v⟩ = b.regWrite src a v := by
  have h1 : (BitVec.ofNat 26 a).toNat = a := by rw [BitVec.toNat_ofNat]; exact Nat.mod_eq_of_lt ha
  have h2 : ((wordBytes v).filterMap id).length = 4 := by simp [wordBytes, leBytes]
  have h3 : (wordBytes v).length = 4 := by simp [wordBytes, leBytes]
  unfold Block.access
  simp only [h1, h2, h3, h4, word_wordBytes]
  rfl

theorem Block.disarm_isArmed (b : Block) (p : Nat) (src : Source) : (b.disarm p src).isArmed p src = false := by
  unfold Block.isArmed Block.disarm
  rw [← Bool.not_eq_true]
  simp

theorem Block.captureFields_none (b : Block) (a : Nat) (src : Source) (o : WriteOut) (h1 : o.lockLsb = none)
    (h2 : o.codeLsb = none) : b.captureFields a src o = b := by
  unfold Block.captureFields
  rw [h1, h2]

theorem Block.captureFields_hostSide (b : Block) (a : Nat) (src : Source) (o : WriteOut) : b.HostSide (b.captureFields a src o) := by
  unfold Block.captureFields Block.captureAt
  split
  · exact .refl b
  · exact b.capture_hostSide _ _ _ _ _ _
  · exact b.capture_hostSide _ _ _ _ _ _
  · split <;> exact .trans (b.capture_hostSide _ _ _ _ _ _) (Block.capture_hostSide _ _ _ _ _ _ _)

theorem Block.reg_captureFields_ne (b : Block) (a : Nat) (src : Source) (o : WriteOut) {c : Nat}
    (h : c ∉ HDR.ERR_ADDR (a / 0x10000) :: HDR.ERR_INFO (a / 0x10000) :: eventRegs (a / 0x10000)) :
    (b.captureFields a src o).reg c = b.reg c := by
  unfold Block.captureFields Block.captureAt
  split
  · rfl
  · exact b.reg_capture_ne _ _ _ _ _ _ h
  · exact b.reg_capture_ne _ _ _ _ _ _ h
  · split <;> rw [Block.reg_capture_ne _ _ _ _ _ _ _ h, Block.reg_capture_ne _ _ _ _ _ _ _ h]

/-- An accepted write that no field refuses: the word stored and the word that the effect sees, field by field (R8 to R11). -/
theorem Block.regWrite_quiet {b : Block} {src : Source} {a : Nat} (m : Meets) (v : Word) {r : RegDesc} (h : b.accepts src a)
    (hk : a % 0x10000 ≠ 0x34) (hr : regOf a = some r) (hap : fieldsApartB r.fields = true)
    (hbad : regBad (b.disarm (a / 0x10000) src) src a (b.reg a) v = [])
    (hq : ∀ f ∈ r.fields, f.quiet (b.reg a) v (b.isArmed (a / 0x10000) src) []) :
    ∃ w : WriteOut, b.regWriteMeets m src a v =
        (effOf src m a w (b.reg a) ((b.disarm (a / 0x10000) src).setReg a w.value)).unlatch src a ∧
      (∀ f ∈ r.fields, f.takes (b.reg a) v (b.isArmed (a / 0x10000) src) [] (fldGet f.fld w.value)) ∧
      (∀ f ∈ r.fields, f.sees (b.reg a) v (b.isArmed (a / 0x10000) src) [] (fldGet f.fld w.took)) ∧ w.codeLsb = none ∧
      w.unlocked = b.isArmed (a / 0x10000) src := by
  have e := Block.regWriteMeets_accepted m v h hk hr
  rw [hbad] at e
  obtain ⟨c1, c2⟩ := writeFields_quiet r (b.reg a) v (b.isArmed (a / 0x10000) src) [] hq
  have f1 := fun f hf => writeFields_fld r (b.reg a) v (b.isArmed (a / 0x10000) src) [] (fieldsApartB_iff _ hap) (f := f) hf
  have f2 := fun f hf => writeFields_took r (b.reg a) v (b.isArmed (a / 0x10000) src) [] (fieldsApartB_iff _ hap) (f := f) hf
  have f3 := writeFields_unlocked r (b.reg a) v (b.isArmed (a / 0x10000) src) []
  revert e c1 c2 f1 f2 f3
  generalize writeFields r (b.reg a) v (b.isArmed (a / 0x10000) src) [] = w
  intro e c1 c2 f1 f2 f3
  rw [Block.captureFields_none _ _ _ _ c1 c2] at e
  exact ⟨w, e, f1, f2, c2, f3⟩

end Sys2Proof.Machine
end

