-- ==== Sys2Proof/Laws/Modes.lean ====
section
/-! SUPPORT. What a change of mode, the following of R40 and a fatal error leave alone. -/

namespace Sys2Proof.Machine

/-- What a change of mode between two modes of a running core touches: registers, rings, host memory, the mark of a lost event, and the
mode itself. -/
def Block.ModeSide (b b' : Block) : Prop :=
  ∃ r g h l m, b' = { b with regs := r, rings := g, host := h, lost := l, mode := m }

theorem Block.ModeSide.refl (b : Block) : b.ModeSide b := ⟨b.regs, b.rings, b.host, b.lost, b.mode, rfl⟩

theorem Block.HostSide.modeSide {b c : Block} (h : b.HostSide c) : b.ModeSide c := by
  obtain ⟨r, g, h, l, rfl⟩ := h
  exact ⟨r, g, h, l, b.mode, rfl⟩

theorem Block.ModeSide.trans {b c d : Block} (h : b.ModeSide c) (k : c.ModeSide d) : b.ModeSide d := by
  obtain ⟨_, _, _, _, _, rfl⟩ := h
  obtain ⟨r, g, h, l, m, rfl⟩ := k
  exact ⟨r, g, h, l, m, rfl⟩

/-- A mode entered with the core running before and after it, or stopped before and after it. -/
theorem Block.enterMode_eq (b : Block) (m : Mode) (cause : Nat) (h : coreOn m = coreOn b.mode.mode) :
    b.enterMode m cause =
      (({ b with mode := { b.mode with mode := m, prev := b.mode.mode, cause := cause, transition := false, since := b.time.elapsed } }).intRaw 0 1).event 0
        0x10 0x01 [BitVec.ofNat 8 (modeCode m), BitVec.ofNat 8 (modeCode b.mode.mode), BitVec.ofNat 8 cause] := by
  unfold Block.enterMode
  rw [if_pos h]

theorem Block.enterMode_modeSide (b : Block) (m : Mode) (cause : Nat) (h : coreOn m = coreOn b.mode.mode) :
    b.ModeSide (b.enterMode m cause) := by
  rw [Block.enterMode_eq b m cause h]
  exact .trans ⟨b.regs, b.rings, b.host, b.lost, _, rfl⟩
    (.trans (Block.intRaw_regsOnly _ _ _).hostSide.modeSide (Block.event_hostSide _ _ _ _ _).modeSide)

theorem Block.enterMode_def (b : Block) (m : Mode) (cause : Nat) :
    b.enterMode m cause =
      (({ (if coreOn m = coreOn b.mode.mode then b else b.pwrSettle) with
          mode := { b.mode with mode := m, prev := b.mode.mode, cause := cause, transition := false, since := b.time.elapsed } }).intRaw 0 1).event 0
        0x10 0x01 [BitVec.ofNat 8 (modeCode m), BitVec.ofNat 8 (modeCode b.mode.mode), BitVec.ofNat 8 cause] := rfl

/-- The mode that is entered, the one before it and the cause (R41). -/
theorem Block.enterMode_mode (b : Block) (m : Mode) (cause : Nat) :
    (b.enterMode m cause).mode = { b.mode with mode := m, prev := b.mode.mode, cause := cause, transition := false, since := b.time.elapsed } := by
  rw [Block.enterMode_def, Block.event_mode, Block.intRaw_mode]

theorem Block.reg_enterMode_ne (b : Block) (m : Mode) (cause : Nat) (h : coreOn m = coreOn b.mode.mode) {a : Nat}
    (ha : a ∉ HDR.INT_RAW 0 :: eventRegs 0) : (b.enterMode m cause).reg a = b.reg a := by
  rw [List.mem_cons, not_or] at ha
  rw [Block.enterMode_eq b m cause h, Block.reg_event_ne _ _ _ _ _ ha.2, Block.reg_intRaw_ne _ (Ne.symm ha.1)]
  rfl

theorem forwards_coreOn {m : Mode} (h : forwards m = true) : coreOn m = true := by
  cases m <;> first | rfl | cases h

theorem Block.mode40_coreOn (b : Block) : coreOn b.mode40 = true := by
  unfold Block.mode40
  split
  · rfl
  · split <;> rfl

/-- Following R40 touches what a change of mode does. -/
theorem Block.follow40_modeSide (b : Block) : b.ModeSide b.follow40 := by
  unfold Block.follow40
  split
  next h =>
    rw [Bool.and_eq_true] at h
    exact .trans ⟨b.regs, b.rings, b.host, b.lost, _, rfl⟩
      ((b.wins 11).enterMode_modeSide _ _ (b.mode40_coreOn.trans (forwards_coreOn h.1).symm))
  next => exact .refl b

theorem Block.reg_follow40_ne (b : Block) {a : Nat} (ha : a ∉ HDR.INT_RAW 0 :: eventRegs 0) : b.follow40.reg a = b.reg a := by
  unfold Block.follow40
  split
  next h =>
    rw [Bool.and_eq_true] at h
    exact (b.wins 11).reg_enterMode_ne _ _ (b.mode40_coreOn.trans (forwards_coreOn h.1).symm) ha
  next => rfl

/-- After R40 is followed from a forwarding mode, the mode is the one that it names, unless the change itself altered a condition. -/
theorem Block.follow40_mode (b : Block) (h : forwards b.mode.mode = true) : b.follow40.mode.mode = b.mode40 := by
  unfold Block.follow40
  rw [h, Bool.true_and]
  split
  · rw [Block.enterMode_mode]
  next k => exact (Decidable.of_not_not (fun e => k (decide_eq_true e))).symm

theorem Block.follow40_mode_other (b : Block) (h : forwards b.mode.mode = false) : b.follow40 = b := by
  unfold Block.follow40
  rw [h, Bool.false_and]
  exact if_neg Bool.false_ne_true

/-- What holds of the start and is kept by each turn holds at the end of a fold. -/
theorem foldl_inv {α β : Type} (P : β → Prop) (f : β → α → β) (hf : ∀ b a, P b → P (f b a)) :
    ∀ (l : List α) (b : β), P b → P (l.foldl f b)
  | [], _, h => h
  | a :: l, b, h => foldl_inv P f hf l (f b a) (hf b a h)

/-- Settling the time of the power groups touches registers and their account alone. -/
theorem Block.pwrSettle_side (b : Block) : ∃ r p, b.pwrSettle = { b with regs := r, pwr := p } := by
  unfold Block.pwrSettle
  refine foldl_inv (fun x => ∃ r p, x = { b with regs := r, pwr := p }) _ ?_ _ _ ⟨b.regs, b.pwr, rfl⟩
  rintro x g ⟨r, p, rfl⟩
  unfold Block.pwrAcc
  dsimp only
  obtain ⟨r2, e⟩ := Block.intRawIf_regsOnly (Block.setPwrGroup { b with regs := r, pwr := p } g _) _ 0x63 3
  rw [e]
  exact ⟨_, _, rfl⟩

theorem Block.groupsP0_side (b : Block) : ∃ r p, b.groupsP0 = { b with regs := r, pwr := p } := by
  unfold Block.groupsP0
  obtain ⟨r, p, e⟩ := b.pwrSettle_side
  have k := foldl_inv (fun x : Block => ∃ r p, x = { b with regs := r, pwr := p }) (fun x g => x.clearReg (PWR.GSTS g))
    (by rintro x g ⟨r, p, rfl⟩; exact ⟨_, _, rfl⟩) (upTo 46) _ ⟨r, p, e⟩
  obtain ⟨r, p, k⟩ := k
  rw [k]
  exact ⟨_, _, rfl⟩

/-- A change of mode touches the mode, registers, the rings' side of an event and the power account (R41, R415, R482). -/
theorem Block.enterMode_side (b : Block) (m : Mode) (c : Nat) : ∃ r g h l p, b.enterMode m c =
    { b with regs := r, rings := g, host := h, lost := l, pwr := p,
             mode := { b.mode with mode := m, prev := b.mode.mode, cause := c, transition := false, since := b.time.elapsed } } := by
  rw [Block.enterMode_def]
  have key : ∀ x : Block, (∃ r p, x = { b with regs := r, pwr := p }) → ∃ r g h l p,
      ((({ x with mode := { b.mode with mode := m, prev := b.mode.mode, cause := c, transition := false, since := b.time.elapsed } } : Block).intRaw 0 1).event
        0 0x10 0x01 [BitVec.ofNat 8 (modeCode m), BitVec.ofNat 8 (modeCode b.mode.mode), BitVec.ofNat 8 c]) =
      { b with regs := r, rings := g, host := h, lost := l, pwr := p,
               mode := { b.mode with mode := m, prev := b.mode.mode, cause := c, transition := false, since := b.time.elapsed } } := by
    rintro x ⟨r, p, rfl⟩
    obtain ⟨r2, g, h, l, e⟩ := Block.event_hostSide (Block.intRaw ({ ({ b with regs := r, pwr := p } : Block) with mode := { b.mode with mode := m, prev := b.mode.mode, cause := c, transition := false, since := b.time.elapsed } } : Block) 0 1) 0
        0x10 0x01 [BitVec.ofNat 8 (modeCode m), BitVec.ofNat 8 (modeCode b.mode.mode), BitVec.ofNat 8 c]
    rw [e]
    exact ⟨r2, g, h, l, p, rfl⟩
  refine key _ ?_
  split
  · exact ⟨b.regs, b.pwr, rfl⟩
  · exact b.pwrSettle_side

theorem Block.reg_pwrSettle_ne (b : Block) {a : Nat} (h : HDR.INT_RAW 0x63 ≠ a) : b.pwrSettle.reg a = b.reg a := by
  unfold Block.pwrSettle
  refine foldl_inv (fun x : Block => x.reg a = b.reg a) _ (fun x g k => ?_) _ _ rfl
  unfold Block.pwrAcc
  dsimp only
  rw [Block.reg_intRawIf_ne _ _ h]
  exact k

/-- Registers that no change of mode touches. -/
theorem Block.reg_enterMode_any (b : Block) (m : Mode) (c : Nat) {a : Nat}
    (ha : a ∉ HDR.INT_RAW 0x63 :: HDR.INT_RAW 0 :: eventRegs 0) : (b.enterMode m c).reg a = b.reg a := by
  rw [List.mem_cons, not_or, List.mem_cons, not_or] at ha
  rw [Block.enterMode_def, Block.reg_event_ne _ _ _ _ _ ha.2.2, Block.reg_intRaw_ne _ (Ne.symm ha.2.1)]
  split
  · rfl
  · exact b.reg_pwrSettle_ne (Ne.symm ha.1)

theorem Block.enterMode_facts (b : Block) (m : Mode) (c : Nat) :
    (b.enterMode m c).mode.mode = m ∧ (b.enterMode m c).mode.prev = b.mode.mode ∧ (b.enterMode m c).mode.cause = c := by
  rw [Block.enterMode_mode]
  exact ⟨rfl, rfl, rfl⟩

/-- The end of a request touches the mode's state alone, and neither the mode nor the pins. -/
theorem Block.endRequest_side (b : Block) (r : Nat) : ∃ m, b.endRequest r = { b with mode := m } ∧ m.mode = b.mode.mode ∧
    m.prev = b.mode.prev ∧ m.mainEn = b.mode.mainEn ∧ m.mainRstN = b.mode.mainRstN := by
  unfold Block.endRequest
  split
  · exact ⟨_, rfl, rfl, rfl, rfl, rfl⟩
  · exact ⟨_, rfl, rfl, rfl, rfl, rfl⟩

theorem Block.endRequest_mode_mode (b : Block) (r : Nat) : (b.endRequest r).mode.mode = b.mode.mode := by
  obtain ⟨m, e, h, -⟩ := b.endRequest_side r
  rw [e]
  exact h

/-- Driving the resets of the DDR5 components low touches the channels and what has left the device alone (R500). -/
theorem Block.d5PinsLow_side (b : Block) : ∃ d o, b.d5PinsLow = { b with d5 := d, out := o } := by
  unfold Block.d5PinsLow
  refine foldl_inv (fun x => ∃ d o, x = { b with d5 := d, out := o }) _ ?_ _ _ ⟨b.d5, b.out, rfl⟩
  rintro x k ⟨d, o, rfl⟩
  unfold Block.d5Pin
  dsimp only
  split <;> exact ⟨_, _, rfl⟩

/-- The core blocks' reset keeps the mode, its pins and the NV die (R483). -/
theorem Block.coreFresh_keeps (b : Block) (w : Bool) : (b.coreFresh w).mode = { b.mode with role := 0 } ∧
    (b.coreFresh w).nv = b.nv ∧ (b.coreFresh w).td = {} ∧ (b.coreFresh w).fd = {} := by
  obtain ⟨r, p, e⟩ := b.groupsP0_side
  have k : ∃ d o, b.groupsP0.d5PinsLow = { b with regs := r, pwr := p, d5 := d, out := o } := by
    obtain ⟨d, o, k⟩ := b.groupsP0.d5PinsLow_side
    rw [e] at k
    rw [e, k]
    exact ⟨d, o, rfl⟩
  obtain ⟨d, o, k⟩ := k
  unfold Block.coreFresh
  rw [k]
  exact ⟨rfl, rfl, rfl, rfl⟩

/-- A fatal error not held yet is recorded by register writes, a cause and an event (R405). -/
theorem Block.recordFatal_eq (b : Block) (c p o r : Nat) (w : Bool) : ∃ x : Block, b.RegsOnly x ∧
    (∀ a, a ∉ [HDR.ERR_ADDR 0, HDR.ERR_INFO 0, HDR.INT_RAW 0] → x.reg a = b.reg a) ∧
    b.recordFatal c p o r w =
      if (b.flag (HDR.ERR_INFO 0) HDR.ERR_INFO_VALID && 0x80 ≤ b.fld (HDR.ERR_INFO 0) HDR.ERR_INFO_CODE) = true then b
      else x.event 0 0x10 0x05 (leBytes 1 c ++ leBytes 2 p) := by
  refine ⟨((b.setReg (HDR.ERR_ADDR 0) (BitVec.ofNat 32 (p * 2 ^ 16 + o))).setReg (HDR.ERR_INFO 0)
      (BitVec.ofNat 32 (2 ^ 31 + r * 2 ^ 28 + b2n w * 2 ^ 27 + 0xFF * 2 ^ 8 + c))).intRaw 0 0, ?_, ?_, rfl⟩
  · exact .trans (.trans (b.setReg_regsOnly _ _) (Block.setReg_regsOnly _ _ _)) (Block.intRaw_regsOnly _ _ _)
  · intro a ha
    simp only [List.mem_cons, List.not_mem_nil, or_false, not_or] at ha
    rw [Block.reg_intRaw_ne _ (Ne.symm ha.2.2), Block.reg_setReg_ne _ (Ne.symm ha.2.1), Block.reg_setReg_ne _ (Ne.symm ha.1)]

/-- A fatal error that finds none held is recorded with its code, its source and VALID (R405). -/
theorem Block.recordFatal_free (b : Block) (c p o r : Nat) (w : Bool)
    (h : (b.flag (HDR.ERR_INFO 0) HDR.ERR_INFO_VALID && decide (0x80 ≤ b.fld (HDR.ERR_INFO 0) HDR.ERR_INFO_CODE)) = false) :
    (b.recordFatal c p o r w).reg (HDR.ERR_INFO 0) =
      BitVec.ofNat 32 (2 ^ 31 + r * 2 ^ 28 + b2n w * 2 ^ 27 + 0xFF * 2 ^ 8 + c) &&& 0xF800FFFF#32 := by
  have e : b.recordFatal c p o r w =
      (if (b.flag (HDR.ERR_INFO 0) HDR.ERR_INFO_VALID && decide (0x80 ≤ b.fld (HDR.ERR_INFO 0) HDR.ERR_INFO_CODE)) = true then b
      else (((b.setReg (HDR.ERR_ADDR 0) (BitVec.ofNat 32 (p * 2 ^ 16 + o))).setReg (HDR.ERR_INFO 0)
      (BitVec.ofNat 32 (2 ^ 31 + r * 2 ^ 28 + b2n w * 2 ^ 27 + 0xFF * 2 ^ 8 + c))).intRaw 0 0).event 0 0x10 0x05
        (leBytes 1 c ++ leBytes 2 p)) := rfl
  rw [e, if_neg (by rw [h]; exact Bool.false_ne_true), Block.reg_event_ne _ _ _ _ _ (errRegs_quiet 0).2,
    Block.reg_intRaw_ne _ (by decide), Block.reg_setReg_same, maskOf_ERR_INFO (by decide)]

theorem Block.recordFatal_hostSide (b : Block) (c p o r : Nat) (w : Bool) : b.HostSide (b.recordFatal c p o r w) := by
  obtain ⟨x, h, -, e⟩ := b.recordFatal_eq c p o r w
  rw [e]
  split
  · exact .refl b
  · exact .trans h.hostSide (x.event_hostSide _ _ _ _)

theorem Block.recordFatal_mode (b : Block) (c p o r : Nat) (w : Bool) : (b.recordFatal c p o r w).mode = b.mode := by
  obtain ⟨_, _, _, _, e⟩ := b.recordFatal_hostSide c p o r w
  rw [e]

end Sys2Proof.Machine
end

