-- ==== Sys2Proof/Laws/Parts.lean ====
section
/-! SUPPORT. Which parts of the device an operation touches: one lemma per shared operation, to be chained backwards from a goal. -/

namespace Sys2Proof.Machine

theorem Block.changesOnly.refl (b : Block) (ps : List Part) : b.changesOnly b ps := fun p _ => by cases p <;> rfl

theorem Block.changesOnly.trans {b c d : Block} {ps : List Part} (h : b.changesOnly c ps) (k : c.changesOnly d ps) :
    b.changesOnly d ps := fun p hp => by
  have h1 := h p hp
  have h2 := k p hp
  cases p <;> exact Eq.trans h2 h1

theorem Block.changesOnly.mono {b c : Block} {ps qs : List Part} (h : b.changesOnly c ps) (k : ∀ p ∈ ps, p ∈ qs) :
    b.changesOnly c qs := fun p hp => h p (fun hq => hp (k p hq))

/-- Both branches of a choice. -/
theorem Block.changesOnly.ite {b x y : Block} {ps : List Part} {c : Prop} [Decidable c] (h : b.changesOnly x ps)
    (k : b.changesOnly y ps) : b.changesOnly (if c then x else y) ps := by
  split
  · exact h
  · exact k

/-- A fold whose every turn touches those parts alone. -/
theorem Block.changesOnly.foldl {α : Type} {b : Block} {ps : List Part} (f : Block → α → Block)
    (hf : ∀ (x : Block) (a : α), x.changesOnly (f x a) ps) (l : List α) {x : Block} (h : b.changesOnly x ps) : b.changesOnly (l.foldl f x) ps :=
  foldl_inv (fun y => b.changesOnly y ps) f (fun y a hy => .trans hy (hf y a)) l x h

theorem Block.RegsOnly.chg {b x y : Block} {ps : List Part} (k : x.RegsOnly y) (h : b.changesOnly x ps) (hp : .regs ∈ ps) :
    b.changesOnly y ps := .trans h (fun p hq => by
  obtain ⟨r, rfl⟩ := k
  cases p <;> first | rfl | exact absurd hp hq)

theorem Block.HostSide.chg {b x y : Block} {ps : List Part} (k : x.HostSide y) (h : b.changesOnly x ps)
    (hp : .regs ∈ ps ∧ .rings ∈ ps ∧ .host ∈ ps ∧ .lost ∈ ps) : b.changesOnly y ps := .trans h (fun p hq => by
  obtain ⟨r, g, h, l, rfl⟩ := k
  cases p <;> first | rfl | exact absurd hp.1 hq | exact absurd hp.2.1 hq | exact absurd hp.2.2.1 hq | exact absurd hp.2.2.2 hq)

theorem Block.chg_regs {b x : Block} {ps : List Part} (v) (h : b.changesOnly x ps) (hp : .regs ∈ ps) :
    b.changesOnly { x with regs := v } ps := .trans h (fun p hq => by cases p <;> first | rfl | exact absurd hp hq)

theorem Block.chg_frozen {b x : Block} {ps : List Part} (v) (h : b.changesOnly x ps) (hp : .frozen ∈ ps) :
    b.changesOnly { x with frozen := v } ps := .trans h (fun p hq => by cases p <;> first | rfl | exact absurd hp hq)

theorem Block.chg_latches {b x : Block} {ps : List Part} (v) (h : b.changesOnly x ps) (hp : .latches ∈ ps) :
    b.changesOnly { x with latches := v } ps := .trans h (fun p hq => by cases p <;> first | rfl | exact absurd hp hq)

theorem Block.chg_armed {b x : Block} {ps : List Part} (v) (h : b.changesOnly x ps) (hp : .armed ∈ ps) :
    b.changesOnly { x with armed := v } ps := .trans h (fun p hq => by cases p <;> first | rfl | exact absurd hp hq)

theorem Block.chg_rings {b x : Block} {ps : List Part} (v) (h : b.changesOnly x ps) (hp : .rings ∈ ps) :
    b.changesOnly { x with rings := v } ps := .trans h (fun p hq => by cases p <;> first | rfl | exact absurd hp hq)

theorem Block.chg_host {b x : Block} {ps : List Part} (v) (h : b.changesOnly x ps) (hp : .host ∈ ps) :
    b.changesOnly { x with host := v } ps := .trans h (fun p hq => by cases p <;> first | rfl | exact absurd hp hq)

theorem Block.chg_lost {b x : Block} {ps : List Part} (v) (h : b.changesOnly x ps) (hp : .lost ∈ ps) :
    b.changesOnly { x with lost := v } ps := .trans h (fun p hq => by cases p <;> first | rfl | exact absurd hp hq)

theorem Block.chg_sent {b x : Block} {ps : List Part} (v) (h : b.changesOnly x ps) (hp : .sent ∈ ps) :
    b.changesOnly { x with sent := v } ps := .trans h (fun p hq => by cases p <;> first | rfl | exact absurd hp hq)

theorem Block.chg_mode {b x : Block} {ps : List Part} (v) (h : b.changesOnly x ps) (hp : .mode ∈ ps) :
    b.changesOnly { x with mode := v } ps := .trans h (fun p hq => by cases p <;> first | rfl | exact absurd hp hq)

theorem Block.chg_time {b x : Block} {ps : List Part} (v) (h : b.changesOnly x ps) (hp : .time ∈ ps) :
    b.changesOnly { x with time := v } ps := .trans h (fun p hq => by cases p <;> first | rfl | exact absurd hp hq)

theorem Block.chg_nv {b x : Block} {ps : List Part} (v) (h : b.changesOnly x ps) (hp : .nv ∈ ps) :
    b.changesOnly { x with nv := v } ps := .trans h (fun p hq => by cases p <;> first | rfl | exact absurd hp hq)

theorem Block.chg_temps {b x : Block} {ps : List Part} (v) (h : b.changesOnly x ps) (hp : .temps ∈ ps) :
    b.changesOnly { x with temps := v } ps := .trans h (fun p hq => by cases p <;> first | rfl | exact absurd hp hq)

theorem Block.chg_fw {b x : Block} {ps : List Part} (v) (h : b.changesOnly x ps) (hp : .fw ∈ ps) :
    b.changesOnly { x with fw := v } ps := .trans h (fun p hq => by cases p <;> first | rfl | exact absurd hp hq)

theorem Block.chg_svc {b x : Block} {ps : List Part} (v) (h : b.changesOnly x ps) (hp : .svc ∈ ps) :
    b.changesOnly { x with svc := v } ps := .trans h (fun p hq => by cases p <;> first | rfl | exact absurd hp hq)

theorem Block.chg_anchors {b x : Block} {ps : List Part} (v) (h : b.changesOnly x ps) (hp : .anchors ∈ ps) :
    b.changesOnly { x with anchors := v } ps := .trans h (fun p hq => by cases p <;> first | rfl | exact absurd hp hq)

theorem Block.chg_csc {b x : Block} {ps : List Part} (v) (h : b.changesOnly x ps) (hp : .csc ∈ ps) :
    b.changesOnly { x with csc := v } ps := .trans h (fun p hq => by cases p <;> first | rfl | exact absurd hp hq)

theorem Block.chg_fd {b x : Block} {ps : List Part} (v) (h : b.changesOnly x ps) (hp : .fd ∈ ps) :
    b.changesOnly { x with fd := v } ps := .trans h (fun p hq => by cases p <;> first | rfl | exact absurd hp hq)

theorem Block.chg_td {b x : Block} {ps : List Part} (v) (h : b.changesOnly x ps) (hp : .td ∈ ps) :
    b.changesOnly { x with td := v } ps := .trans h (fun p hq => by cases p <;> first | rfl | exact absurd hp hq)

theorem Block.chg_line {b x : Block} {ps : List Part} (v) (h : b.changesOnly x ps) (hp : .line ∈ ps) :
    b.changesOnly { x with line := v } ps := .trans h (fun p hq => by cases p <;> first | rfl | exact absurd hp hq)

theorem Block.chg_tbl {b x : Block} {ps : List Part} (v) (h : b.changesOnly x ps) (hp : .tbl ∈ ps) :
    b.changesOnly { x with tbl := v } ps := .trans h (fun p hq => by cases p <;> first | rfl | exact absurd hp hq)

theorem Block.chg_tcam {b x : Block} {ps : List Part} (v) (h : b.changesOnly x ps) (hp : .tcam ∈ ps) :
    b.changesOnly { x with tcam := v } ps := .trans h (fun p hq => by cases p <;> first | rfl | exact absurd hp hq)

theorem Block.chg_d5 {b x : Block} {ps : List Part} (v) (h : b.changesOnly x ps) (hp : .d5 ∈ ps) :
    b.changesOnly { x with d5 := v } ps := .trans h (fun p hq => by cases p <;> first | rfl | exact absurd hp hq)

theorem Block.chg_cnt {b x : Block} {ps : List Part} (v) (h : b.changesOnly x ps) (hp : .cnt ∈ ps) :
    b.changesOnly { x with cnt := v } ps := .trans h (fun p hq => by cases p <;> first | rfl | exact absurd hp hq)

theorem Block.chg_chk {b x : Block} {ps : List Part} (v) (h : b.changesOnly x ps) (hp : .chk ∈ ps) :
    b.changesOnly { x with chk := v } ps := .trans h (fun p hq => by cases p <;> first | rfl | exact absurd hp hq)

theorem Block.chg_pwr {b x : Block} {ps : List Part} (v) (h : b.changesOnly x ps) (hp : .pwr ∈ ps) :
    b.changesOnly { x with pwr := v } ps := .trans h (fun p hq => by cases p <;> first | rfl | exact absurd hp hq)

theorem Block.chg_told {b x : Block} {ps : List Part} (v) (h : b.changesOnly x ps) (hp : .told ∈ ps) :
    b.changesOnly { x with told := v } ps := .trans h (fun p hq => by cases p <;> first | rfl | exact absurd hp hq)

theorem Block.chg_draws {b x : Block} {ps : List Part} (v) (h : b.changesOnly x ps) (hp : .draws ∈ ps) :
    b.changesOnly { x with draws := v } ps := .trans h (fun p hq => by cases p <;> first | rfl | exact absurd hp hq)

theorem Block.chg_out {b x : Block} {ps : List Part} (v) (h : b.changesOnly x ps) (hp : .out ∈ ps) :
    b.changesOnly { x with out := v } ps := .trans h (fun p hq => by cases p <;> first | rfl | exact absurd hp hq)

theorem Block.chg_setReg {b x : Block} {ps : List Part} (a : Nat) (v : Word) (h : b.changesOnly x ps) (hp : .regs ∈ ps) :
    b.changesOnly (x.setReg a v) ps := (x.setReg_regsOnly a v).chg h hp

theorem Block.chg_setFld {b x : Block} {ps : List Part} (a : Nat) (f : Fld) (v : Nat) (h : b.changesOnly x ps) (hp : .regs ∈ ps) :
    b.changesOnly (x.setFld a f v) ps := (x.setFld_regsOnly a f v).chg h hp

theorem Block.chg_intRaw {b x : Block} {ps : List Part} (p k : Nat) (h : b.changesOnly x ps) (hp : .regs ∈ ps) :
    b.changesOnly (x.intRaw p k) ps := (x.intRaw_regsOnly p k).chg h hp

theorem Block.chg_intRawIf {b x : Block} {ps : List Part} (c : Bool) (p k : Nat) (h : b.changesOnly x ps) (hp : .regs ∈ ps) :
    b.changesOnly (x.intRawIf c p k) ps := (x.intRawIf_regsOnly c p k).chg h hp

theorem Block.chg_count {b x : Block} {ps : List Part} (a k : Nat) (h : b.changesOnly x ps) (hp : .regs ∈ ps) :
    b.changesOnly (x.count a k) ps := (x.count_regsOnly a k).chg h hp

theorem Block.chg_countN {b x : Block} {ps : List Part} (a k n : Nat) (h : b.changesOnly x ps) (hp : .regs ∈ ps) :
    b.changesOnly (x.countN a k n) ps := (x.countN_regsOnly a k n).chg h hp

theorem Block.chg_satFld {b x : Block} {ps : List Part} (a : Nat) (f : Fld) (n : Nat) (h : b.changesOnly x ps) (hp : .regs ∈ ps) :
    b.changesOnly (x.satFld a f n) ps := (x.satFld_regsOnly a f n).chg h hp

theorem Block.chg_satAdd {b x : Block} {ps : List Part} (a n : Nat) (h : b.changesOnly x ps) (hp : .regs ∈ ps) :
    b.changesOnly (x.satAdd a n) ps := (x.setReg_regsOnly a _).chg h hp

theorem Block.chg_clearReg {b x : Block} {ps : List Part} (a : Nat) (h : b.changesOnly x ps) (hp : .regs ∈ ps) :
    b.changesOnly (x.clearReg a) ps := Block.chg_regs _ h hp

theorem Block.chg_event {b x : Block} {ps : List Part} (p c s : Nat) (d : List Byte) (h : b.changesOnly x ps)
    (hp : .regs ∈ ps ∧ .rings ∈ ps ∧ .host ∈ ps ∧ .lost ∈ ps) : b.changesOnly (x.event p c s d) ps := (x.event_hostSide p c s d).chg h hp

theorem Block.chg_capture {b x : Block} {ps : List Part} (p o s : Nat) (w : Bool) (l c : Nat) (h : b.changesOnly x ps)
    (hp : .regs ∈ ps ∧ .rings ∈ ps ∧ .host ∈ ps ∧ .lost ∈ ps) : b.changesOnly (x.capture p o s w l c) ps := (x.capture_hostSide p o s w l c).chg h hp

theorem Block.chg_captureAt {b x : Block} {ps : List Part} (a : Nat) (s : Source) (l c : Nat) (h : b.changesOnly x ps)
    (hp : .regs ∈ ps ∧ .rings ∈ ps ∧ .host ∈ ps ∧ .lost ∈ ps) : b.changesOnly (x.captureAt a s l c) ps := (x.capture_hostSide _ _ _ _ _ _).chg h hp

theorem Block.chg_captureBusy {b x : Block} {ps : List Part} (a : Nat) (s : Source) (l : Nat) (h : b.changesOnly x ps)
    (hp : .regs ∈ ps ∧ .rings ∈ ps ∧ .host ∈ ps ∧ .lost ∈ ps) : b.changesOnly (x.captureBusy a s l) ps := (x.capture_hostSide _ _ _ _ _ _).chg h hp

theorem Block.chg_captureFields {b x : Block} {ps : List Part} (a : Nat) (s : Source) (o : WriteOut) (h : b.changesOnly x ps)
    (hp : .regs ∈ ps ∧ .rings ∈ ps ∧ .host ∈ ps ∧ .lost ∈ ps) : b.changesOnly (x.captureFields a s o) ps := (x.captureFields_hostSide a s o).chg h hp

theorem Block.chg_recordFatal {b x : Block} {ps : List Part} (c p o r : Nat) (w : Bool) (h : b.changesOnly x ps)
    (hp : .regs ∈ ps ∧ .rings ∈ ps ∧ .host ∈ ps ∧ .lost ∈ ps) : b.changesOnly (x.recordFatal c p o r w) ps := (x.recordFatal_hostSide c p o r w).chg h hp

theorem Block.chg_eventIf {b x : Block} {ps : List Part} (k : Bool) (p c s : Nat) (d : List Byte) (h : b.changesOnly x ps)
    (hp : .regs ∈ ps ∧ .rings ∈ ps ∧ .host ∈ ps ∧ .lost ∈ ps) : b.changesOnly (x.eventIf k p c s d) ps := by
  unfold Block.eventIf
  exact .ite (Block.chg_event p c s d h hp) h

theorem Block.chg_endRequest {b x : Block} {ps : List Part} (r : Nat) (h : b.changesOnly x ps) (hp : .mode ∈ ps) :
    b.changesOnly (x.endRequest r) ps := by
  unfold Block.endRequest
  split
  · exact h
  · exact Block.chg_mode _ h hp

theorem Block.chg_emitOut {b x : Block} {ps : List Part} (o : Out) (h : b.changesOnly x ps) (hp : .out ∈ ps) :
    b.changesOnly (x.emitOut o) ps := Block.chg_out _ h hp

theorem Block.chg_logRec {b x : Block} {ps : List Part} (c s r : Nat) (d : List Byte) (h : b.changesOnly x ps) (hp : .nv ∈ ps) :
    b.changesOnly (x.logRec c s r d) ps := Block.chg_nv _ h hp

theorem Block.chg_pwrAcc {b x : Block} {ps : List Part} (g : Nat) (h : b.changesOnly x ps) (hp : .regs ∈ ps ∧ .pwr ∈ ps) :
    b.changesOnly (x.pwrAcc g) ps := by
  unfold Block.pwrAcc
  exact Block.chg_intRawIf _ _ _ (Block.chg_pwr _ h hp.2) hp.1

theorem Block.chg_groupTo {b x : Block} {ps : List Part} (g n : Nat) (h : b.changesOnly x ps) (hp : .regs ∈ ps ∧ .pwr ∈ ps) :
    b.changesOnly (x.groupTo g n) ps := by
  have h1 : b.changesOnly ((x.pwrAcc g).setFld (PWR.GSTS g) PWR.GSTS_STATE n) ps := Block.chg_setFld _ _ _ (Block.chg_pwrAcc g h hp) hp.1
  unfold Block.groupTo
  exact .ite (Block.chg_setFld _ _ _ h1 hp.1) (.ite (Block.chg_setFld _ _ _ h1 hp.1) h1)

theorem Block.chg_pwrSettle {b x : Block} {ps : List Part} (h : b.changesOnly x ps) (hp : .regs ∈ ps ∧ .pwr ∈ ps) :
    b.changesOnly x.pwrSettle ps := by
  unfold Block.pwrSettle
  exact .foldl _ (fun y g => Block.chg_pwrAcc g (.refl y ps) hp) _ h

/-- What a change of mode may touch. -/
def modeParts : List Part := [.regs, .rings, .host, .lost, .mode, .pwr]

theorem Block.chg_enterMode {b x : Block} {ps : List Part} (m : Mode) (c : Nat) (h : b.changesOnly x ps) (hp : ∀ p ∈ modeParts, p ∈ ps) :
    b.changesOnly (x.enterMode m c) ps := .trans h (fun p hq => by
  obtain ⟨r, g, h, l, w, e⟩ := x.enterMode_side m c
  rw [e]
  cases p <;> first | rfl | exact absurd (hp _ (by decide)) hq)

theorem Block.chg_follow40 {b x : Block} {ps : List Part} (h : b.changesOnly x ps) (hp : ∀ p ∈ modeParts, p ∈ ps) :
    b.changesOnly x.follow40 ps := by
  unfold Block.follow40
  exact .ite (Block.chg_enterMode _ _ (Block.chg_mode _ h (hp .mode (by decide))) hp) h

theorem Block.chg_toFaultHold {b x : Block} {ps : List Part} (c : Nat) (h : b.changesOnly x ps) (hp : ∀ p ∈ .out :: modeParts, p ∈ ps) :
    b.changesOnly (x.toFaultHold c) ps := by
  unfold Block.toFaultHold
  exact Block.chg_enterMode _ _ (Block.chg_emitOut _ (Block.chg_endRequest _ h (hp _ (by decide))) (hp _ (by decide)))
    (fun p hq => hp p (List.mem_cons_of_mem _ hq))

theorem Block.chg_fatal {b x : Block} {ps : List Part} (c p : Nat) (h : b.changesOnly x ps) (hp : ∀ p ∈ .out :: modeParts, p ∈ ps) :
    b.changesOnly (x.fatal c p) ps := by
  unfold Block.fatal
  exact .ite (Block.chg_toFaultHold _ (Block.chg_recordFatal _ _ _ _ _ (Block.chg_mode _ h (hp _ (by decide)))
    ⟨hp _ (by decide), hp _ (by decide), hp _ (by decide), hp _ (by decide)⟩) hp) h

theorem Block.chg_d5To {b x : Block} {ps : List Part} (k s : Nat) (h : b.changesOnly x ps) (hp : .regs ∈ ps ∧ .pwr ∈ ps) :
    b.changesOnly (x.d5To k s) ps := by
  unfold Block.d5To
  exact .ite h (Block.chg_intRaw _ _ (Block.chg_setFld _ _ _ (Block.chg_groupTo _ _ h hp) hp.1) hp.1)

end Sys2Proof.Machine
end

