-- ==== Sys2Proof/Laws/BringUp.lean ====
section
/-! SUPPORT. Which parts of the device the pools' compare, the change of a channel's state, the upkeep of TCAM rows and the end of
BRING-UP touch. -/

namespace Sys2Proof.Machine

/-- What the compare of a pool may touch (R187, R205). -/
def poolParts : List Part := [.regs, .rings, .host, .lost, .td]

/-- The event parts are among those named. -/
theorem evParts {ps qs : List Part} (h : ∀ p ∈ [Part.regs, .rings, .host, .lost], p ∈ qs) (k : ∀ p ∈ qs, p ∈ ps) :
    .regs ∈ ps ∧ .rings ∈ ps ∧ .host ∈ ps ∧ .lost ∈ ps :=
  ⟨k _ (h _ (by decide)), k _ (h _ (by decide)), k _ (h _ (by decide)), k _ (h _ (by decide))⟩

theorem Block.chg_poolCheck {b x : Block} {ps : List Part} (n : Nat) (h : b.changesOnly x ps) (hp : ∀ p ∈ poolParts, p ∈ ps) :
    b.changesOnly (x.poolCheck n) ps := by
  have hr : Part.regs ∈ ps := hp _ (by decide)
  have ht : Part.td ∈ ps := hp _ (by decide)
  have he := evParts (ps := ps) (qs := poolParts) (by decide) hp
  unfold Block.poolCheck
  have h1 := Block.chg_intRawIf (x.pressure n && !x.flag (QMG.POOL_STS n) QMG.POOL_STS_PRESSURE) 0x80 2
    (Block.chg_setFld (QMG.POOL_STS n) QMG.POOL_STS_PRESSURE (b2n (x.pressure n)) h hr) hr
  exact .ite h1 (.ite (.ite (Block.chg_setFld _ _ _ h1 hr)
      (Block.chg_event _ _ _ _ (Block.chg_td _ (Block.chg_intRaw _ _ (Block.chg_setFld _ _ _ (Block.chg_setFld _ _ _ h1 hr) hr) hr) ht) he))
    (.ite (.ite (Block.chg_event _ _ _ _ (Block.chg_td _ (Block.chg_setFld _ _ _ h1 hr) ht) he) (Block.chg_setFld _ _ _ h1 hr)) h1))

theorem Block.chg_poolsCheck {b x : Block} {ps : List Part} (h : b.changesOnly x ps) (hp : ∀ p ∈ poolParts, p ∈ ps) :
    b.changesOnly x.poolsCheck ps := by
  unfold Block.poolsCheck
  exact .foldl _ (fun y n => Block.chg_poolCheck n (.refl y ps) hp) _ h

theorem Block.chg_peatFullCheck {b x : Block} {ps : List Part} (h : b.changesOnly x ps) (hp : .regs ∈ ps) :
    b.changesOnly x.peatFullCheck ps := by
  unfold Block.peatFullCheck
  exact Block.chg_intRawIf _ _ _ (Block.chg_setFld _ _ _ h hp) hp

/-- What a change of a channel's state may touch (R186, R199, R481). -/
def chanParts : List Part := .pwr :: poolParts

theorem Block.chg_d5Shift {b x : Block} {ps : List Part} (k st : Nat) (h : b.changesOnly x ps) (hp : ∀ p ∈ chanParts, p ∈ ps) :
    b.changesOnly (x.d5Shift k st) ps := by
  unfold Block.d5Shift
  exact Block.chg_peatFullCheck (Block.chg_poolsCheck (Block.chg_d5To _ _ h ⟨hp _ (by decide), hp _ (by decide)⟩)
    (fun p hq => hp p (List.mem_cons_of_mem _ hq))) (hp _ (by decide))

theorem Block.chg_markCopies {b x : Block} {ps : List Part} (l : List Nat) (r : Nat) (bad : Bool) (h : b.changesOnly x ps)
    (hp : .tcam ∈ ps) : b.changesOnly (x.markCopies l r bad) ps := Block.chg_tcam _ h hp

theorem Block.chg_stepRestart {b x : Block} {ps : List Part} (m : Nat) (h : b.changesOnly x ps) (hp : .regs ∈ ps ∧ .tcam ∈ ps) :
    b.changesOnly (x.stepRestart m) ps := by
  unfold Block.stepRestart
  split
  · exact h
  · exact .ite h (Block.chg_count _ _ (Block.chg_setFld _ _ _ (Block.chg_tcam _ h hp.2) hp.1) hp.1)

theorem Block.chg_markRow {b x : Block} {ps : List Part} (g r : Nat) (y : TRow) (h : b.changesOnly x ps) (hp : .regs ∈ ps ∧ .tcam ∈ ps) :
    b.changesOnly (x.markRow g r y) ps := Block.chg_stepRestart _ (Block.chg_tcam _ h hp.2) hp

theorem Block.chg_setRow {b x : Block} {ps : List Part} (g r : Nat) (y : TRow) (h : b.changesOnly x ps) (hp : .regs ∈ ps ∧ .tcam ∈ ps) :
    b.changesOnly (x.setRow g r y) ps := Block.chg_markRow _ _ _ (Block.chg_markCopies _ _ _ h hp.2) hp

theorem Block.chg_placeRow {b x : Block} {ps : List Part} (at_ : Nat × Placement) (y : TRow) (h : b.changesOnly x ps) (hp : .regs ∈ ps ∧ .tcam ∈ ps) :
    b.changesOnly (x.placeRow at_ y) ps := by
  unfold Block.placeRow
  exact Block.chg_setRow _ _ _ (.foldl _ (fun z m => Block.chg_setRow _ _ _ (Block.chg_markCopies _ _ _
    (Block.chg_setRow _ _ _ (.refl z ps) hp) hp.2) hp) _ h) hp

theorem Block.chg_spareGone {b x : Block} {ps : List Part} (k r : Nat) (h : b.changesOnly x ps) (hp : .tcam ∈ ps) :
    b.changesOnly (x.spareGone k r) ps := by
  unfold Block.spareGone
  split
  · exact h
  · exact Block.chg_tcam _ h hp

/-- What the upkeep of a TCAM row may touch (R173, R174). -/
def rowParts : List Part := [.regs, .rings, .host, .lost, .tcam]

theorem Block.chg_rowRepair {b x : Block} {ps : List Part} (g n k r s : Nat) (h : b.changesOnly x ps) (hp : ∀ p ∈ rowParts, p ∈ ps) :
    b.changesOnly (x.rowRepair g n k r s) ps := by
  have hr : Part.regs ∈ ps := hp _ (by decide)
  have ht : Part.tcam ∈ ps := hp _ (by decide)
  unfold Block.rowRepair
  exact Block.chg_event _ _ _ _ (Block.chg_intRawIf _ _ _ (Block.chg_intRaw _ _ (Block.chg_count _ _
    (.foldl _ (fun y i => Block.chg_tcam _ (Block.chg_spareGone _ _ (.refl y ps) ht) ht) _ h) hr) hr) hr)
    (evParts (qs := rowParts) (by decide) hp)

theorem Block.chg_rowRetire {b x : Block} {ps : List Part} (g n k r : Nat) (h : b.changesOnly x ps) (hp : ∀ p ∈ rowParts, p ∈ ps) :
    b.changesOnly (x.rowRetire g n k r) ps := by
  have hr : Part.regs ∈ ps := hp _ (by decide)
  have ht : Part.tcam ∈ ps := hp _ (by decide)
  have he := evParts (ps := ps) (qs := rowParts) (by decide) hp
  have hm : b.changesOnly ((upTo n).foldl (fun z i =>
      let u := z.spareGone (g + i) r
      u.withTcam { u.tcam with retired := NMap.put u.tcam.retired (8192 * (g + i) + r) true }) x) ps :=
    .foldl _ (fun y i => Block.chg_tcam _ (Block.chg_spareGone _ _ (.refl y ps) ht) ht) _ h
  have hd : ∀ y : Block, b.changesOnly y ps → b.changesOnly (((y.count TCM.RETIRED_CNT_LO 6).intRaw 0x25 4).event 0x25 3 3
      (leBytes 1 k ++ leBytes 2 r ++ leBytes 4 (x.trow g r).handle)) ps :=
    fun y hy => Block.chg_event _ _ _ _ (Block.chg_intRaw _ _ (Block.chg_count _ _ hy hr) hr) he
  have hs := Block.chg_setRow g r {} hm ⟨hr, ht⟩
  unfold Block.rowRetire
  dsimp only
  refine .ite (hd _ hm) ?_
  split
  · exact hd _ hs
  · split
    · exact Block.chg_event _ _ _ _ (hd _ hs) he
    · exact hd _ (Block.chg_markCopies _ _ _ (Block.chg_placeRow _ _ hs ⟨hr, ht⟩) ht)

theorem Block.chg_rowFault {b x : Block} {ps : List Part} (k r : Nat) (h : b.changesOnly x ps) (hp : ∀ p ∈ rowParts, p ∈ ps) :
    b.changesOnly (x.rowFault k r) ps := by
  unfold Block.rowFault
  dsimp only
  split
  · exact .ite (Block.chg_rowRepair _ _ _ _ _ h hp) (Block.chg_rowRetire _ _ _ _ h hp)
  · exact Block.chg_rowRetire _ _ _ _ h hp

/-- The march test touches TCAM rows and their reports (R176). -/
theorem Block.chg_marchTest {b x : Block} {ps : List Part} (fs : List (Nat × Nat)) (h : b.changesOnly x ps) (hp : ∀ p ∈ rowParts, p ∈ ps) :
    b.changesOnly (x.marchTest fs) ps := by
  unfold Block.marchTest
  exact .foldl _ (fun y p => .ite (Block.chg_rowFault _ _ (.refl y ps) hp) (.refl y ps)) _
    (.foldl _ (fun y p => .ite (Block.chg_tcam _ (.refl y ps) (hp _ (by decide))) (.refl y ps)) _ h)

/-- What the assignment of logical channels may touch (R340, R354). -/
def assignParts : List Part := .nv :: chanParts

theorem Block.chg_trainShow {b x : Block} {ps : List Part} (k : Nat) (t : D5Train) (h : b.changesOnly x ps) (hp : .regs ∈ ps) :
    b.changesOnly (x.trainShow k t) ps := by
  unfold Block.trainShow
  exact Block.chg_setFld _ _ _ (Block.chg_setFld _ _ _ (Block.chg_setReg _ _ h hp) hp) hp

theorem Block.chg_writeMap {b x : Block} {ps : List Part} (h : b.changesOnly x ps) (hp : .regs ∈ ps ∧ .nv ∈ ps) :
    b.changesOnly x.writeMap ps := by
  unfold Block.writeMap
  exact Block.chg_intRaw _ _ (Block.chg_setReg _ _ (Block.chg_nv _ h hp.2) hp.1) hp.1

theorem Block.chg_d5Assign {b x : Block} {ps : List Part} (ts : List D5Train) (h : b.changesOnly x ps) (hp : ∀ p ∈ assignParts, p ∈ ps) :
    b.changesOnly (x.d5Assign ts) ps := by
  have hr : Part.regs ∈ ps := hp _ (by decide)
  have hc : ∀ p ∈ chanParts, p ∈ ps := fun p hq => hp p (List.mem_cons_of_mem _ hq)
  have he := evParts (ps := ps) (qs := assignParts) (by decide) hp
  have hw : ∀ y : Block, b.changesOnly y ps → b.changesOnly y.writeMap ps := fun y hy => Block.chg_writeMap hy ⟨hr, hp _ (by decide)⟩
  unfold Block.d5Assign
  refine Block.chg_setFld _ _ _ (Block.chg_setFld _ _ _ (.foldl _ (fun y p => Block.chg_event _ _ _ _ (.refl y ps) he) _ ?_) hr) hr
  have h1 : b.changesOnly (x.d5Tried.foldl (fun x k =>
      let y := x.trainShow k ((ts[k]?).getD ⟨true, 1, 0, 0, 0⟩)
      if ((ts[k]?).getD ⟨true, 1, 0, 0, 0⟩).pass then y
      else (((y.d5Shift k d5Failed).setFld (D5C.STS k) D5C.STS_CAUSE 1).event 0x84 9 1 [BitVec.ofNat 8 k, 1#8])) x) ps :=
    .foldl _ (fun y k => .ite (Block.chg_trainShow _ _ (.refl y ps) hr) (Block.chg_event _ _ _ _ (Block.chg_setFld _ _ _
      (Block.chg_d5Shift _ _ (Block.chg_trainShow _ _ (.refl y ps) hr) hc) hr) he)) _ h
  have h2 : ∀ (y : Block) (l : List (Option Nat × Nat)), b.changesOnly y ps → b.changesOnly (l.foldl (fun x (e : Option Nat × Nat) =>
      match e.1 with
      | some k => (x.mapTo e.2 k).d5Shift k d5Active
      | none => x.setReg (D5M.MAP e.2) 0#32) y) ps := fun y l hy => .foldl _ (fun z e => by
    split
    · exact Block.chg_d5Shift _ _ (Block.chg_setFld _ _ _ (Block.chg_setReg _ _ (.refl z ps) hr) hr) hc
    · exact Block.chg_setReg _ _ (.refl z ps) hr) _ hy
  dsimp only
  repeat' split
  all_goals first
    | exact h2 _ _ h1
    | exact Block.chg_d5Shift _ _ (h2 _ _ h1) hc
    | exact hw _ (h2 _ _ h1)
    | exact hw _ (Block.chg_d5Shift _ _ (h2 _ _ h1) hc)

end Sys2Proof.Machine
end

