-- ==== Sys2Proof/Laws/Commands.lean ====
section
/-! SUPPORT. The commands that are register writes, each as the write and its register's effect. -/

namespace Sys2Proof.Machine

/-- On a page without rules of other state no field is reserved beyond its codes (R11). -/
theorem regBad_none {b : Block} {src : Source} {a : Nat} {old v : Word}
    (h : a / 0x10000 ∉ [0x01, 0x02, 0x04, 0x06, 0x08, 0x38, 0x39, 0x63, 0x80, 0x82, 0x83, 0x85])
    (h2 : ¬ (0x10 ≤ a / 0x10000 ∧ a / 0x10000 < 0x20) ∧ ¬ (0x30 ≤ a / 0x10000 ∧ a / 0x10000 < 0x38)) : regBad b src a old v = [] := by
  unfold regBad
  revert h h2
  generalize a / 0x10000 = p
  intro h h2
  split
  case h_13 =>
    rw [if_neg (by rw [Bool.and_eq_true, decide_eq_true_eq, decide_eq_true_eq]; exact h2.2),
      if_neg (by rw [Bool.and_eq_true, Bool.and_eq_true, decide_eq_true_eq, decide_eq_true_eq]; exact fun k => h2.1 k.1)]
  all_goals exact absurd (by decide) h

/-- On the scheduler's page only an entry of the calendar's shadow has such a field (R231). -/
theorem regBad_sch {b : Block} {src : Source} {a : Nat} {old v : Word} (h : a / 0x10000 = 0x82)
    (hc : arrayIx2 a (SCH.CAL_SHADOW 0 0) 0x100 8 4 64 = none) : regBad b src a old v = [] := by
  unfold regBad
  rw [h, hc]
  rfl

/-- On a frond's page only an entry of the calendar's shadow has such a field (R55). -/
theorem regBad_frond {b : Block} {src : Source} {a : Nat} {old v : Word} (h : 0x10 ≤ a / 0x10000 ∧ a / 0x10000 < 0x20)
    (hc : arrayIx a (FRD.CAL_SHADOW (a / 0x10000 - 0x10) 0) 4 64 = none) : regBad b src a old v = [] := by
  unfold regBad
  revert h hc
  generalize a / 0x10000 = p
  intro h hc
  split
  case h_13 =>
    rw [hc, if_neg (by rw [Bool.and_eq_true, decide_eq_true_eq, decide_eq_true_eq]; omega), if_neg (by simp)]
  all_goals omega

/-- The registers of a frond's page beyond its header only store. -/
theorem effOf_frond {src : Source} {m : Meets} {a : Nat} (h : 0x10 ≤ a / 0x10000 ∧ a / 0x10000 < 0x20) (ho : 0x100 ≤ a % 0x10000) :
    effOf src m a = noEff := by
  have hi : pageIsland (a / 0x10000) = false := by
    unfold pageIsland
    revert h
    generalize a / 0x10000 = p
    intro h
    simp only [Bool.and_eq_false_iff, decide_eq_false_iff_not]
    omega
  unfold effOf
  dsimp only
  rw [if_neg (by omega), if_neg (by omega), if_neg (by omega), if_neg (by omega),
    if_neg (by rw [Bool.and_eq_true, decide_eq_true_eq, decide_eq_true_eq]; omega),
    if_neg (by rw [Bool.and_eq_true, decide_eq_true_eq, decide_eq_true_eq]; omega), if_neg (by omega), if_neg (by omega),
    if_neg (by rw [hi]; exact Bool.false_ne_true), if_neg (by omega)]

/-- A register of the scheduler's page, by its own effect. -/
theorem effOf_sch {src : Source} {m : Meets} {a : Nat} (h : a / 0x10000 = 0x82) (ho : 0x100 ≤ a % 0x10000) :
    effOf src m a = if a = SCH.SHP_CTL then effShpCtl src else if a = SCH.CMD then effSchCmd src
      else if a = SCH.CREDIT_CFG then fun _ _ b => b.voqsCheck else noEff := by
  unfold effOf
  dsimp only
  rw [h, if_neg (by omega), if_neg (by omega), if_neg (by omega)]
  rfl

/-- A command that writes a register beyond the header is that write. -/
theorem writeOf_exec {c : Instr} {src : Source} {a : Nat} {v : Word} (h : writeOf c = some (src, a, v)) (hw : c.wf = true)
    (ho : 0x100 ≤ a % 0x10000) (s : State) :
    Machine.exec c s = .next { s with blk := s.blk.regWriteMeets (meetsOf c) src a v } := by
  cases c
  case pageSoftReset w p =>
    injection h with h
    injection h with h1 h
    injection h with h2 h3
    subst h2
    have : HDR.PAGE_CTL p.toNat % 0x10000 = 0xC := by unfold HDR.PAGE_CTL; omega
    omega
  all_goals first
    | (injection h with h; injection h with h1 h; injection h with h2 h3; subst h1 h2 h3; first | exact rfl | exact if_pos hw)
    | cases h

/-- A command that writes a register of an accepting page runs the register's effect on the block in which the fields are stored and
the refused ones captured (R8 to R11). -/
theorem write_runs {c : Instr} {src : Source} {a : Nat} {v : Word} {r : RegDesc} (h : writeOf c = some (src, a, v)) (hw : c.wf = true)
    (ho : 0x100 ≤ a % 0x10000) (hr : regOf a = some r) (s : State) (hacc : s.blk.accepts src a) :
    Machine.exec c s = .next { s with blk :=
      (effOf src (meetsOf c) a
        (writeFields r (s.blk.reg a) v (s.blk.isArmed (a / 0x10000) src) (regBad (s.blk.disarm (a / 0x10000) src) src a (s.blk.reg a) v))
        (s.blk.reg a)
        (((s.blk.disarm (a / 0x10000) src).setReg a
          (writeFields r (s.blk.reg a) v (s.blk.isArmed (a / 0x10000) src)
            (regBad (s.blk.disarm (a / 0x10000) src) src a (s.blk.reg a) v)).value).captureFields a src
          (writeFields r (s.blk.reg a) v (s.blk.isArmed (a / 0x10000) src)
            (regBad (s.blk.disarm (a / 0x10000) src) src a (s.blk.reg a) v)))).unlatch src a } := by
  rw [writeOf_exec h hw ho s, Block.regWriteMeets_accepted (meetsOf c) v hacc (by omega) hr]

/-- The same where no field is refused: nothing is captured. -/
theorem write_runs_quiet {c : Instr} {src : Source} {a : Nat} {v : Word} {r : RegDesc} (h : writeOf c = some (src, a, v))
    (hw : c.wf = true) (ho : 0x100 ≤ a % 0x10000) (hr : regOf a = some r) (s : State) (hacc : s.blk.accepts src a)
    (hap : fieldsApartB r.fields = true) (hbad : regBad (s.blk.disarm (a / 0x10000) src) src a (s.blk.reg a) v = [])
    (hq : ∀ f ∈ r.fields, f.quiet (s.blk.reg a) v (s.blk.isArmed (a / 0x10000) src) []) :
    ∃ w : WriteOut, Machine.exec c s = .next { s with blk :=
        (effOf src (meetsOf c) a w (s.blk.reg a) ((s.blk.disarm (a / 0x10000) src).setReg a w.value)).unlatch src a } ∧
      (∀ f ∈ r.fields, f.takes (s.blk.reg a) v (s.blk.isArmed (a / 0x10000) src) [] (fldGet f.fld w.value)) ∧
      (∀ f ∈ r.fields, f.sees (s.blk.reg a) v (s.blk.isArmed (a / 0x10000) src) [] (fldGet f.fld w.took)) ∧
      w.codeLsb = none ∧ w.unlocked = s.blk.isArmed (a / 0x10000) src := by
  obtain ⟨w, e, h1, h2, h3, h4⟩ := Block.regWrite_quiet (meetsOf c) v hacc (by omega) hr hap hbad hq
  exact ⟨w, by rw [writeOf_exec h hw ho s, e], h1, h2, h3, h4⟩

end Sys2Proof.Machine
end

