-- ==== Sys2Proof/Laws/Ddr5.lean ====
section
/-! SUPPORT. The bytes of the DDR5 table region: what the write queues leave alone, and that every write keeps their canonical form. -/

namespace Sys2Proof.Machine

/-- Either branch leaves the DDR5 system alone. -/
theorem Block.ite_d5 (b : Block) (c : Prop) [Decidable c] {x y : Block} (hx : x.d5 = b.d5) (hy : y.d5 = b.d5) :
    (if c then x else y).d5 = b.d5 := by
  split <;> assumption

/-- An event raised under a condition leaves the DDR5 system alone. -/
theorem Block.eventIf_d5 (b : Block) (c : Bool) (p code sev : Nat) (l : List (BitVec 8)) : (b.eventIf c p code sev l).d5 = b.d5 := by
  unfold Block.eventIf
  exact b.ite_d5 _ (Block.event_d5 ..) rfl

/-- A performance counter that takes a sum leaves the DDR5 system alone. -/
theorem Block.pmcPut_d5 (b : Block) (n v : Nat) : (b.pmcPut n v).d5 = b.d5 := by
  unfold Block.pmcPut
  refine b.ite_d5 _ ?_ ?_
  · rw [Block.setFld_d5, Block.setReg_d5]
  · rw [Block.eventIf_d5, Block.intRaw_d5, Block.setFld_d5, Block.setFld_d5, Block.setReg_d5]

/-- A performance counter that adds leaves the DDR5 system alone. -/
theorem Block.pmcAdd_d5 (b : Block) (n k : Nat) : (b.pmcAdd n k).d5 = b.d5 := by
  unfold Block.pmcAdd
  exact b.ite_d5 _ rfl (b.pmcPut_d5 n _)

/-- A cycle of an event's source leaves the DDR5 system alone. -/
theorem Block.pmc_d5 (b : Block) (ev inst v : Nat) : (b.pmc ev inst v).d5 = b.d5 := by
  unfold Block.pmc
  split
  · refine foldl_inv (fun x : Block => x.d5 = b.d5) _ ?_ _ _ rfl
    intro x n h
    unfold Block.pmcCycles
    split <;> (try split) <;> first | exact h | exact (Block.pmcAdd_d5 _ _ _).trans h
  · rfl

/-- A write that enters a channel's queue leaves the bytes alone. -/
theorem Block.d5Enq_mem (b : Block) (k u : Nat) : (b.d5Enq k u).d5.mem = b.d5.mem := by
  unfold Block.d5Enq Block.countIf
  dsimp only
  rw [Block.pmc_d5, Block.pmc_d5]
  split <;> simp [Block.setD5Chan, Block.withD5]

/-- A write of a unit to a logical channel leaves the bytes alone. -/
theorem Block.d5Accept_mem (b : Block) (l u : Nat) (t : Bool) : (b.d5Accept l u t).d5.mem = b.d5.mem := by
  unfold Block.d5Accept
  split
  · rfl
  · dsimp only
    repeat' split
    all_goals simp only [Block.d5Enq_mem, Block.setD5Chan, Block.withD5]

/-- A write that enters both members of each pair leaves the bytes alone. -/
theorem Block.d5Reach_mem (b : Block) (a n : Nat) : (b.d5Reach a n).d5.mem = b.d5.mem := by
  unfold Block.d5Reach
  refine foldl_inv (fun x : Block => x.d5.mem = b.d5.mem) _ ?_ _ _ rfl
  intro x i h
  dsimp only
  rw [Block.d5Accept_mem, Block.d5Accept_mem, h]

/-- Zeroing a range keeps the canonical form of the DDR5 bytes. -/
theorem Block.d5Zero_wf {b : Block} (h : b.d5.mem.wf = true) (a n : Nat) : (b.d5Zero a n).d5.mem.wf = true := by
  unfold Block.d5Zero
  dsimp only
  split
  · exact Memory.filter_wf h _
  · rw [Block.d5Reach_mem]
    exact Memory.filter_wf h _

/-- A write keeps the canonical form of the DDR5 bytes. -/
theorem Block.d5Write_wf {b : Block} (h : b.d5.mem.wf = true) (a : Nat) (bs : List Byte) : (b.d5Write a bs).d5.mem.wf = true := by
  unfold Block.d5Write
  dsimp only
  split
  · exact Memory.writeN_wf h a bs
  · rw [Block.d5Reach_mem]
    exact Memory.writeN_wf h a bs

end Sys2Proof.Machine
end

