-- ==== Sys2Proof/Laws/Incoming.lean ====
section
/-! SUPPORT. What the bringing of operands to their bounds does: it leaves them well formed, and leaves well-formed ones as they are. -/

namespace Sys2Proof.Machine

theorem filter_all {α : Type} (p : α → Bool) (l : List α) : (l.filter p).all p = true := by
  rw [List.all_eq_true]
  exact fun x h => (List.mem_filter.mp h).2

theorem filter_of_all {α : Type} (p : α → Bool) (l : List α) (h : l.all p = true) : l.filter p = l :=
  List.filter_eq_self.mpr (fun x m => List.all_eq_true.mp h x m)

/-- A map of a bringing brings every entry. -/
theorem map_all {α : Type} (f : α → α) (p : α → Bool) (h : ∀ x, p (f x) = true) (l : List α) : (l.map f).all p = true := by
  rw [List.all_eq_true]
  intro x m
  obtain ⟨y, -, rfl⟩ := List.mem_map.mp m
  exact h y

/-- A bringing that leaves well-formed entries as they are leaves a list of them as it is. -/
theorem map_of_all {α : Type} (f : α → α) (p : α → Bool) (h : ∀ x, p x = true → f x = x) (l : List α) (k : l.all p = true) :
    l.map f = l := by
  rw [List.all_eq_true] at k
  exact (List.map_congr_left (fun x m => h x (k x m))).trans (List.map_id l)

theorem optMap_all {α : Type} (f : α → α) (p : α → Bool) (h : ∀ x, p (f x) = true) (o : Option α) : (o.map f).all p = true := by
  cases o with
  | none => rfl
  | some x => exact h x

theorem optMap_of_all {α : Type} (f : α → α) (p : α → Bool) (h : ∀ x, p x = true → f x = x) (o : Option α) (k : o.all p = true) :
    o.map f = o := by
  cases o with
  | none => rfl
  | some x => exact congrArg some (h x k)

theorem optFilter_all {α : Type} (p : α → Bool) (o : Option α) : (o.filter p).all p = true := by
  cases o with
  | none => rfl
  | some x =>
    unfold Option.filter
    dsimp only
    split
    next h => exact h
    next => rfl

theorem optFilter_of_all {α : Type} (p : α → Bool) (o : Option α) (h : o.all p = true) : o.filter p = o := by
  cases o with
  | none => rfl
  | some x => exact if_pos h

theorem Seen.norm_wf (s : Seen) : s.norm.wf = true := filter_all _ _

theorem Seen.norm_of_wf (s : Seen) (h : s.wf = true) : s.norm = s := by
  unfold Seen.norm flipsNorm
  rw [filter_of_all _ _ h]

theorem TcSeen.norm_wf (s : TcSeen) : s.norm.wf = true := Bool.and_eq_true_iff.mpr ⟨filter_all _ _, filter_all _ _⟩

theorem TcSeen.norm_of_wf (s : TcSeen) (h : s.wf = true) : s.norm = s := by
  unfold TcSeen.wf at h
  rw [Bool.and_eq_true] at h
  unfold TcSeen.norm rowsNorm
  rw [filter_of_all _ _ h.1, filter_of_all _ _ h.2]

theorem AccSeen.norm_wf (s : AccSeen) : s.norm.wf = true := Bool.and_eq_true_iff.mpr ⟨optFilter_all _ _, s.tcam.norm_wf⟩

theorem AccSeen.norm_of_wf (s : AccSeen) (h : s.wf = true) : s.norm = s := by
  unfold AccSeen.wf at h
  rw [Bool.and_eq_true] at h
  unfold AccSeen.norm
  rw [optFilter_of_all _ _ h.1, s.tcam.norm_of_wf h.2]

theorem AdmitSeen.norm_wf (s : AdmitSeen) : s.norm.tcam.wf = true := s.tcam.norm_wf

theorem AdmitSeen.norm_of_wf (s : AdmitSeen) (h : s.tcam.wf = true) : s.norm = s := by
  unfold AdmitSeen.norm
  rw [s.tcam.norm_of_wf h]

theorem CellRx.norm_wf (r : CellRx) : r.norm.wf = true := by
  unfold CellRx.wf
  rw [Bool.and_eq_true, Bool.and_eq_true, decide_eq_true_eq, decide_eq_true_eq, decide_eq_true_eq]
  exact ⟨⟨Nat.mod_lt _ (by decide), Nat.mod_lt _ (by decide)⟩, Nat.min_le_left _ _⟩

theorem CellRx.norm_of_wf (r : CellRx) (h : r.wf = true) : r.norm = r := by
  simp only [CellRx.wf, Bool.and_eq_true, decide_eq_true_eq] at h
  unfold CellRx.norm
  rw [Nat.mod_eq_of_lt h.1.1, Nat.mod_eq_of_lt h.1.2, Nat.min_eq_right h.2]

theorem Hello.norm_wf (h : Hello) : h.norm.wf = true := by
  unfold Hello.wf
  simp only [Bool.and_eq_true, decide_eq_true_eq]
  and_intros <;> exact Nat.mod_lt _ (by decide)

theorem Hello.norm_of_wf (r : Hello) (h : r.wf = true) : r.norm = r := by
  simp only [Hello.wf, Bool.and_eq_true, decide_eq_true_eq] at h
  obtain ⟨⟨⟨⟨⟨⟨h1, h2⟩, h3⟩, h4⟩, h5⟩, h6⟩, h7⟩ := h
  unfold Hello.norm
  rw [Nat.mod_eq_of_lt h1, Nat.mod_eq_of_lt h2, Nat.mod_eq_of_lt h3, Nat.mod_eq_of_lt h4, Nat.mod_eq_of_lt h5, Nat.mod_eq_of_lt h6,
    Nat.mod_eq_of_lt h7]

theorem FCell.norm_wf (c : FCell) : c.norm.wf = true := by
  unfold FCell.wf
  simp only [Bool.and_eq_true, decide_eq_true_eq]
  and_intros <;> first | exact Nat.mod_lt _ (by decide) | exact (List.length_take_le _ _)

theorem FCell.norm_of_wf (c : FCell) (h : c.wf = true) : c.norm = c := by
  simp only [FCell.wf, Bool.and_eq_true, decide_eq_true_eq] at h
  obtain ⟨⟨⟨⟨⟨⟨⟨⟨h1, h2⟩, h3⟩, h4⟩, h5⟩, h6⟩, h7⟩, h8⟩, h9⟩ := h
  unfold FCell.norm
  rw [Nat.mod_eq_of_lt h1, Nat.mod_eq_of_lt h2, Nat.mod_eq_of_lt h3, Nat.mod_eq_of_lt h4, Nat.mod_eq_of_lt h5, Nat.mod_eq_of_lt h6,
    Nat.mod_eq_of_lt h7, Nat.mod_eq_of_lt h8, List.take_of_length_le h9]

theorem LineObj.norm_wf (o : LineObj) : o.norm.wf = true := by
  cases o <;> unfold LineObj.wf LineObj.norm <;> simp only [Bool.and_eq_true, decide_eq_true_eq] <;> and_intros <;>
    exact Nat.mod_lt _ (by decide)

theorem LineObj.norm_of_wf (o : LineObj) (h : o.wf = true) : o.norm = o := by
  cases o <;> simp only [LineObj.wf, Bool.and_eq_true, decide_eq_true_eq] at h <;> unfold LineObj.norm <;> dsimp only
  case lane | phy | client => rw [Nat.mod_eq_of_lt h.1, Nat.mod_eq_of_lt h.2]
  all_goals rw [Nat.mod_eq_of_lt h]

theorem FlexeOh.norm_wf (o : FlexeOh) : o.norm.wf = true := by
  unfold FlexeOh.wf
  simp only [Bool.and_eq_true, decide_eq_true_eq]
  refine ⟨⟨⟨Nat.mod_lt _ (by decide), Nat.mod_lt _ (by decide)⟩, filter_all _ _⟩, ?_⟩
  rw [List.all_eq_true]
  intro x m
  obtain ⟨y, k, rfl⟩ := List.mem_map.mp m
  have h := (List.mem_filter.mp k).2
  rw [Bool.and_eq_true, decide_eq_true_eq, decide_eq_true_eq]
  exact ⟨of_decide_eq_true h, Nat.mod_lt _ (by decide)⟩

theorem FlexeOh.norm_of_wf (o : FlexeOh) (h : o.wf = true) : o.norm = o := by
  simp only [FlexeOh.wf, Bool.and_eq_true, decide_eq_true_eq] at h
  obtain ⟨⟨⟨h1, h2⟩, h3⟩, h4⟩ := h
  have h5 : o.ids.filter (fun e => decide (e.1 < 640)) = o.ids := filter_of_all _ _ (by
    rw [List.all_eq_true] at h4 ⊢
    exact fun x m => (Bool.and_eq_true_iff.mp (h4 x m)).1)
  have h6 : o.ids.map (fun e => (e.1, e.2 % 65536)) = o.ids := map_of_all _ _ (fun x k => by
    simp only [Bool.and_eq_true, decide_eq_true_eq] at k
    rw [Nat.mod_eq_of_lt k.2]) _ h4
  unfold FlexeOh.norm
  rw [Nat.mod_eq_of_lt h1, Nat.mod_eq_of_lt h2, filter_of_all _ _ h3, h5, h6]

theorem TribOh.norm_wf (o : TribOh) : o.norm.wf = true := by
  unfold TribOh.wf
  simp only [Bool.and_eq_true, decide_eq_true_eq]
  and_intros <;> exact Nat.mod_lt _ (by decide)

theorem TribOh.norm_of_wf (o : TribOh) (h : o.wf = true) : o.norm = o := by
  simp only [TribOh.wf, Bool.and_eq_true, decide_eq_true_eq] at h
  unfold TribOh.norm
  rw [Nat.mod_eq_of_lt h.1.1.1, Nat.mod_eq_of_lt h.1.1.2, Nat.mod_eq_of_lt h.1.2, Nat.mod_eq_of_lt h.2]

theorem OtnOh.norm_wf (o : OtnOh) : o.norm.wf = true := by
  unfold OtnOh.wf
  simp only [Bool.and_eq_true, decide_eq_true_eq]
  refine ⟨⟨?_, optMap_all (· % 256) (fun p => decide (p < 256)) (fun x => decide_eq_true (Nat.mod_lt _ (by decide))) _⟩,
    optMap_all _ _ TribOh.norm_wf _⟩
  and_intros <;> exact Nat.mod_lt _ (by decide)

theorem OtnOh.norm_of_wf (o : OtnOh) (h : o.wf = true) : o.norm = o := by
  simp only [OtnOh.wf, Bool.and_eq_true, decide_eq_true_eq] at h
  obtain ⟨⟨⟨⟨⟨⟨⟨⟨h1, h2⟩, h3⟩, h4⟩, h5⟩, h6⟩, h7⟩, h8⟩, h9⟩ := h
  unfold OtnOh.norm
  rw [Nat.mod_eq_of_lt h1, Nat.mod_eq_of_lt h2, Nat.mod_eq_of_lt h3, Nat.mod_eq_of_lt h4, Nat.mod_eq_of_lt h5, Nat.mod_eq_of_lt h6,
    Nat.mod_eq_of_lt h7, optMap_of_all _ _ (fun x k => Nat.mod_eq_of_lt (of_decide_eq_true k)) _ h8,
    optMap_of_all _ _ TribOh.norm_of_wf _ h9]

theorem OtnFrame.norm_wf (f : OtnFrame) : f.norm.wf = true := by
  unfold OtnFrame.wf
  simp only [Bool.and_eq_true, decide_eq_true_eq]
  exact ⟨⟨⟨Nat.mod_lt _ (by decide), Nat.mod_lt _ (by decide)⟩, Nat.mod_lt _ (by decide)⟩, optMap_all _ _ OtnOh.norm_wf _⟩

theorem OtnFrame.norm_of_wf (f : OtnFrame) (h : f.wf = true) : f.norm = f := by
  simp only [OtnFrame.wf, Bool.and_eq_true, decide_eq_true_eq] at h
  obtain ⟨⟨⟨h1, h2⟩, h3⟩, h4⟩ := h
  unfold OtnFrame.norm
  rw [Nat.mod_eq_of_lt h1, Nat.mod_eq_of_lt h2, Nat.mod_eq_of_lt h3, optMap_of_all _ _ OtnOh.norm_of_wf _ h4]

theorem CagePoll.norm_wf (q : CagePoll) : q.norm.wf = true := by
  unfold CagePoll.wf
  rw [Bool.and_eq_true, decide_eq_true_eq, decide_eq_true_eq]
  exact ⟨Nat.mod_lt _ (by decide), Nat.lt_succ_of_le (List.length_take_le _ _)⟩

theorem CagePoll.norm_of_wf (q : CagePoll) (h : q.wf = true) : q.norm = q := by
  simp only [CagePoll.wf, Bool.and_eq_true, decide_eq_true_eq] at h
  unfold CagePoll.norm
  rw [Nat.mod_eq_of_lt h.1, List.take_of_length_le (by omega)]

end Sys2Proof.Machine
end

