-- ==== Sys2Proof/Laws/ModeFacts.lean ====
section
/-! SUPPORT. Where each change of the operating mode leads, and what it keeps. -/

namespace Sys2Proof.Machine

/-- A channel's state touches DDR5's state alone. -/
theorem Block.chg_setD5Chan {b x : Block} {ps : List Part} (k : Nat) (c : D5Chan) (h : b.changesOnly x ps) (hp : .d5 ∈ ps) :
    b.changesOnly (x.setD5Chan k c) ps := Block.chg_d5 _ h hp

/-- Driving a channel's reset touches DDR5's state and what leaves the device (R500). -/
theorem Block.chg_d5Pin {b x : Block} {ps : List Part} (k : Nat) (high : Bool) (h : b.changesOnly x ps) (hp : .d5 ∈ ps ∧ .out ∈ ps) :
    b.changesOnly (x.d5Pin k high) ps := by
  unfold Block.d5Pin
  exact .ite h (Block.chg_emitOut _ (Block.chg_setD5Chan _ _ h hp.1) hp.2)

/-- The release of a channel's reset touches the same (R500). -/
theorem Block.chg_d5Release {b x : Block} {ps : List Part} (k n : Nat) (h : b.changesOnly x ps) (hp : .d5 ∈ ps ∧ .out ∈ ps) :
    b.changesOnly (x.d5Release k n) ps := by
  unfold Block.d5Release
  exact .ite (Block.chg_d5Pin _ _ h hp) h

/-- The start of a channel's training touches registers, DDR5's state and what leaves the device (R354). -/
theorem Block.chg_d5TrainStart {b x : Block} {ps : List Part} (k : Nat) (h : b.changesOnly x ps) (hp : .regs ∈ ps ∧ .d5 ∈ ps ∧ .out ∈ ps) :
    b.changesOnly (x.d5TrainStart k) ps := by
  unfold Block.d5TrainStart
  exact Block.chg_d5Release _ _ (Block.chg_setFld _ _ _ (Block.chg_setReg _ _ (Block.chg_d5Pin _ _ h hp.2) hp.1) hp.1) hp.2

/-- BRING-UP's start of the channels touches DDR5's state, registers and the resets that the device drives (R337, R367). -/
theorem Block.chg_d5BringUp {b x : Block} {ps : List Part} (h : b.changesOnly x ps) (hp : .regs ∈ ps ∧ .d5 ∈ ps ∧ .out ∈ ps) :
    b.changesOnly x.d5BringUp ps := by
  unfold Block.d5BringUp
  refine Block.chg_setReg _ _ (Block.chg_setFld _ _ _ (.foldl _ (fun y k => ?_) _ (Block.chg_d5 _ h hp.2.1)) hp.1) hp.1
  exact .ite (Block.chg_setFld _ _ _ (.refl y ps) hp.1) (Block.chg_d5TrainStart _ (Block.chg_setD5Chan _ _ (.refl y ps) hp.2.1) hp)

theorem Block.d5BringUp_mode (b : Block) : b.d5BringUp.mode = b.mode :=
  Block.chg_d5BringUp (.refl b [.regs, .d5, .out]) (by decide) .mode (by decide)

theorem Block.toBoot_facts (b : Block) (c : Nat) : (b.toBoot c).mode.mode = .boot ∧ (b.toBoot c).mode.prev = b.mode.mode ∧
    (b.toBoot c).mode.cause = c ∧ (b.toBoot c).mode.mainEn = true ∧ (b.toBoot c).fw.loaderDue = true ∧ (b.toBoot c).nv = b.nv := by
  obtain ⟨r, g, h, l, p, e⟩ := b.enterMode_side .boot c
  unfold Block.toBoot
  dsimp only
  rw [e]
  exact ⟨rfl, rfl, rfl, rfl, rfl, rfl⟩

theorem Block.toSpore_facts (b : Block) (c : Nat) : (b.toSpore c).mode.mode = .spore ∧ (b.toSpore c).mode.prev = b.mode.mode ∧
    (b.toSpore c).mode.cause = c ∧ (b.toSpore c).nv = b.nv := by
  unfold Block.toSpore
  dsimp only
  generalize hx : ({ b.noImage with mode := { b.noImage.mode with bootPending := none, gated := false, sporeRailLost := false } } : Block) = x
  have h1 : x.mode.mode = b.mode.mode := by rw [← hx]; rfl
  have h2 : x.nv = b.nv := by rw [← hx]; rfl
  obtain ⟨r, g, h, l, p, e⟩ := x.enterMode_side .spore c
  rw [e]
  dsimp only
  split <;> exact ⟨rfl, h1, rfl, h2⟩

theorem Block.toStandby_facts (b : Block) (c : Nat) (auto : Bool) : (b.toStandby c auto).mode.mode = .standby ∧
    (b.toStandby c auto).mode.prev = b.mode.mode ∧ (b.toStandby c auto).mode.cause = c ∧ (b.toStandby c auto).mode.mainEn = false ∧
    (b.toStandby c auto).mode.railsGood = false ∧ (b.toStandby c auto).nv = b.nv := by
  have hd : ∃ y : Block, y = (((b.endRequest 5).mainEnOff).coreFresh false).noImage := ⟨_, rfl⟩
  obtain ⟨y, hy⟩ := hd
  have hd : b.toStandby c auto = Block.enterMode { y with mode := { y.mode with autoStart := auto, loaderOk := none, bootPending := none, gated := false, fromQuiescent := false } } .standby c := by
    rw [hy]; rfl
  generalize hx : ({ y with mode := { y.mode with autoStart := auto, loaderOk := none, bootPending := none, gated := false, fromQuiescent := false } } : Block) = x at hd
  have hx1 : x.mode.mode = y.mode.mode ∧ x.mode.mainEn = y.mode.mainEn ∧ x.mode.railsGood = y.mode.railsGood ∧ x.nv = y.nv := by
    rw [← hx]; exact ⟨rfl, rfl, rfl, rfl⟩
  rw [hd]
  have key : x.mode.mode = b.mode.mode ∧ x.mode.mainEn = false ∧ x.mode.railsGood = false ∧ x.nv = b.nv := by
    rw [hx1.1, hx1.2.1, hx1.2.2.1, hx1.2.2.2, hy]
    obtain ⟨m, e, k, -⟩ := b.endRequest_side 5
    rw [e]
    have hn : ∀ z : Block, z.noImage.mode = z.mode ∧ z.noImage.nv = z.nv := fun z => ⟨rfl, rfl⟩
    obtain ⟨c1, c2, -⟩ := Block.coreFresh_keeps (Block.mainEnOff { b with mode := m }) false
    rw [(hn _).1, (hn _).2, c1, c2]
    exact ⟨k, rfl, rfl, rfl⟩
  obtain ⟨k1, k2, k3, k4⟩ := key
  obtain ⟨r, g, h, l, p, e⟩ := x.enterMode_side .standby c
  rw [e]
  exact ⟨rfl, k1, rfl, k2, k3, k4⟩

theorem Block.toBringUp_facts (b : Block) (c : Nat) (w : Bool) : (b.toBringUp c w).mode.mode = .bringUp ∧
    (b.toBringUp c w).mode.prev = b.mode.mode ∧ (b.toBringUp c w).mode.cause = c := by
  have hm : (((b.endRequest 5).coreFresh w).d5BringUp).mode.mode = b.mode.mode := by
    rw [Block.d5BringUp_mode, (Block.coreFresh_keeps _ _).1]
    exact b.endRequest_mode_mode 5
  unfold Block.toBringUp
  revert hm
  generalize ((b.endRequest 5).coreFresh w).d5BringUp = x
  intro hm
  obtain ⟨h1, h2, h3⟩ := x.enterMode_facts .bringUp c
  exact ⟨h1, h2.trans hm, h3⟩

theorem Block.toBringUp_nv (b : Block) (c : Nat) (w : Bool) : (b.toBringUp c w).nv = b.nv := by
  have hn : (((b.endRequest 5).coreFresh w).d5BringUp).nv = b.nv := by
    have h1 : (((b.endRequest 5).coreFresh w).d5BringUp).nv = ((b.endRequest 5).coreFresh w).nv :=
      Block.chg_d5BringUp (.refl _ [.regs, .d5, .out]) (by decide) .nv (by decide)
    obtain ⟨m, e, -⟩ := b.endRequest_side 5
    rw [h1, (Block.coreFresh_keeps _ _).2.1, e]
  unfold Block.toBringUp
  revert hn
  generalize ((b.endRequest 5).coreFresh w).d5BringUp = x
  intro hn
  obtain ⟨r, g, h, l, p, e⟩ := x.enterMode_side .bringUp c
  rw [e]
  exact hn

theorem Block.warmReset_facts (b : Block) (c : Nat) : (b.warmReset c).mode.mode = .bringUp ∧ (b.warmReset c).mode.prev = b.mode.mode ∧
    (b.warmReset c).mode.cause = c := b.toBringUp_facts c true

theorem Block.toHandover_facts (b : Block) (c : Nat) : (b.toHandover c).mode.mode = .handover ∧
    (b.toHandover c).mode.prev = b.mode.mode ∧ (b.toHandover c).mode.cause = c := by
  obtain ⟨m, e, k, -⟩ := b.endRequest_side 5
  have hd : b.toHandover c =
      Block.enterMode { b with mode := { m with fromQuiescent := (b.mode.mode == Mode.quiescent), lateTold := false } } .handover c := by
    unfold Block.toHandover
    rw [e]
  generalize hx : ({ b with mode := { m with fromQuiescent := (b.mode.mode == Mode.quiescent), lateTold := false } } : Block) = x at hd
  have hm : x.mode.mode = b.mode.mode := by rw [← hx]; exact k
  rw [hd]
  obtain ⟨h1, h2, h3⟩ := x.enterMode_facts .handover c
  exact ⟨h1, h2.trans hm, h3⟩

theorem Block.toFaultHold_facts (b : Block) (c : Nat) : (b.toFaultHold c).mode.mode = .faultHold ∧
    (b.toFaultHold c).mode.prev = b.mode.mode ∧ (b.toFaultHold c).mode.cause = c := by
  have hm : ((b.endRequest 5).emitOut .aer).mode.mode = b.mode.mode := b.endRequest_mode_mode 5
  unfold Block.toFaultHold
  revert hm
  generalize (b.endRequest 5).emitOut .aer = x
  intro hm
  obtain ⟨h1, h2, h3⟩ := x.enterMode_facts .faultHold c
  exact ⟨h1, h2.trans hm, h3⟩

theorem Block.mode40_forwards (b : Block) : forwards b.mode40 = true := by
  unfold Block.mode40
  split
  · rfl
  · split <;> rfl

end Sys2Proof.Machine
end

