-- ==== Sys2Proof/Tests/Slice0.lean ====
section
/-! SUPPORT. Checks of the author's own: ill-formed commands are told apart, a few commands do on small states what the spec's own words
and tables say, and the hypotheses of every statement can be met. -/

namespace Sys2Proof.Tests

set_option Elab.async false

open Sys2Proof Sys2Proof.Machine

/-- A device in a mode, its rails good, with some registers and unlocks, and nothing waiting. -/
def dev (m : Mode) (rs : NMap Word := []) (ar : List (Nat × Source) := []) : State :=
  { blk := { mode := { mode := m, mainEn := true, railsGood := true }, regs := rs, armed := ar } }

/-- A write by the host. -/
def hw (v : Word := 0#32) : RegWrite := ⟨.host, v⟩

/-- The device after a command. -/
def after (c : Instr) (s : State) : Block :=
  match Machine.exec c s with
  | .next t => t.blk
  | _ => {}

/-! Ill-formed commands. -/

/-- A cell with a difference beyond its 288 bytes. -/
def badSeen : Seen := { flips := [(288, 1#8)] }
def badRx : CellRx := ⟨96, true, 0, 0⟩
def goodRx : CellRx := ⟨95, true, 255, 16⟩
def goodHello : Hello := ⟨255, 255, 65535, 255, 255, 255, true, 65535⟩
def noOh : OtnOh := ⟨0, 0, 0, false, false, 0, 0, 0, false, 0, none, 0#8, 0#8, 0, 0, none⟩
def noFlexe : FlexeOh := ⟨true, none, 0, 0, [], false, false, [], 0, 0, 0, 0⟩

theorem test_illformed_cells : ({} : Seen).wf = true ∧ ({} : AccSeen).wf = true ∧
    [Instr.bridgeSlot 0 0 0 badSeen, .cellArrival 0 badSeen, .spillWrite 0 [badSeen], .prefetchReadComplete 0 [badSeen],
      .schedulerDecision 0 0 [badSeen], .bridgeChunkArrive 0 0 [(32, 0#8)], .egfWordTransmit 0 [(32, 0#8)],
      .handOff 0 0 [badSeen] {}, .handOff 0 0 [] { sram := some (24576 * 256) }, .handOff 0 0 [] { tcam := { flipped := [(40, 0)] } },
      .handOff 0 0 [] { tcam := { copyErr := [(0, 8192)] } }, .frondAdmission 0 { tcam := { flipped := [(40, 0)] } }].all (fun c => !c.wf) = true := by
  decide +kernel

theorem test_illformed_lane_cells : [Instr.reach badRx 0#2048, .idle ⟨0, true, 256, 0⟩ 0, .request (some ⟨0, true, 0, 17⟩) 0 0 0 0 0,
    .grant (some badRx) 0 0, .sync (some badRx) 0 0 0, .syncReq (some badRx) 0 0, .hello badRx goodHello, .dataCell badRx {}].all
    (fun c => !c.wf) = true := by decide +kernel

/-- Operands beyond their bounds are brought to them, and others stay as they are. -/
theorem test_illformed_brought : badRx.norm.wf = true ∧ goodRx.norm = goodRx ∧ badSeen.norm.wf = true ∧ goodHello.norm = goodHello := by
  decide +kernel

theorem test_illformed_hello : goodHello.wf = true ∧ [{ goodHello with version := 256 }, { goodHello with role := 256 },
    { goodHello with id := 65536 }, { goodHello with plane := 256 }, { goodHello with port := 256 }, { goodHello with mask := 256 },
    { goodHello with credits := 65536 }].all (fun h => !(Instr.hello goodRx h).wf) = true := by decide +kernel

theorem test_illformed_data : (Instr.dataCell goodRx {}).wf = true ∧ [{ dest := 2048 }, { src := 2048 }, { engine := 8 }, { seq := 65536 },
    { metaW := 2 ^ 64 }, { pktLen := 32768 }, { port := 256 }, { cls := 8 }, { pay := List.replicate 257 0#8 }].all
    (fun c : FCell => !(Instr.dataCell goodRx c).wf) = true := by decide +kernel

theorem test_illformed_objects : [LineObj.lane 8 0, .lane 0 8, .mac 128, .phy 8 0, .phy 0 8, .group 8, .client 8 0, .client 0 64, .otn 64,
    .trib 64].all (fun o => !(Instr.portUp o).wf && !(Instr.defectChange o 0 true).wf
      && !(Instr.frameReceive o [] true ⟨0, 0, 0, 0⟩).wf) = true := by decide +kernel

theorem test_illformed_overhead : (Instr.flexeOverhead 0 0 noFlexe).wf = true ∧ [{ noFlexe with groupNum := 2 ^ 20 },
    { noFlexe with phyNum := 256 }, { noFlexe with phyMap := [256] }, { noFlexe with ids := [(640, 0)] },
    { noFlexe with ids := [(0, 65536)] }].all (fun o => !(Instr.flexeOverhead 0 0 o).wf) = true := by decide +kernel

/-- A frame period that brings some overhead. -/
def withOh (o : OtnOh) : OtnFrame := ⟨0, [], 0, 0, 0, some o⟩
def noTrib : TribOh := ⟨0, false, 0, 0, 0, true⟩

theorem test_illformed_otn : (Instr.otnFrame 0 ⟨19, [], 255, 19, 0, some noOh⟩).wf = true ∧
    [⟨20, [], 0, 0, 0, none⟩, ⟨0, [], 256, 0, 0, none⟩, ⟨0, [], 0, 20, 0, none⟩, withOh { noOh with smRx := 256 }, withOh { noOh with smCalc := 256 },
      withOh { noOh with smBei := 16 }, withOh { noOh with pmRx := 256 }, withOh { noOh with pmCalc := 256 },
      withOh { noOh with pmBei := 16 }, withOh { noOh with stat := 8 }, withOh { noOh with pt := some 256 },
      withOh { noOh with trib := some { noTrib with stat := 8 } }, withOh { noOh with trib := some { noTrib with rxBip := 256 } },
      withOh { noOh with trib := some { noTrib with calcBip := 256 } }, withOh { noOh with trib := some { noTrib with bei := 16 } }].all
      (fun f : OtnFrame => !(Instr.otnFrame 0 f).wf) = true := by decide +kernel

/-- A training that passes at its first attempt. -/
def trainOk : D5Train := ⟨true, 0, 0, 0, 0⟩

theorem test_illformed_rows : (Instr.next (hw) { flipped := [(40, 0)] }).wf = false ∧ (Instr.next (hw) { copyErr := [(0, 8192)] }).wf = false ∧
    (Instr.tcamScrubPass [(40, 0, .clean)]).wf = false ∧ (Instr.bringUpComplete false [(0, 8256)] (Vector.replicate 17 trainOk)).wf = false ∧
    (Instr.shadowWalk .before .spans .spans .spans [(256, 0)]).wf = false ∧ (Instr.shadowReread [(256, 0)]).wf = false := by decide +kernel

theorem test_illformed_others : (Instr.cagePoll 0 0 ⟨true, false, true, 256, [], false⟩).wf = false ∧
    (Instr.cagePoll 0 0 ⟨true, false, true, 0, List.replicate 16 (0, 0), false⟩).wf = false ∧
    (Instr.discover ⟨true, 0, 0, 1, false, 0, 0, 0, 0, []⟩ (some 9)).wf = false ∧
    (Instr.ddr5Write 0 (Vector.replicate 64 0) [⟨17, true⟩]).wf = false := by decide +kernel

/-! The hypotheses of the statements can be met: for each, a state and operands that meet them together, clause by clause. -/

/-- A page accepts a source's write, as a truth value. -/
def accB (s : State) (src : Source) (a : Nat) : Bool :=
  decide (s.blk.reach src (a / 0x10000) (a % 0x10000) = .answers) && (pageRow (a / 0x10000)).isSome
    && !s.blk.flag (HDR.PAGE_CTL (a / 0x10000)) HDR.PAGE_CTL_SOFT_RESET && s.blk.flag (HDR.PAGE_CTL (a / 0x10000)) HDR.PAGE_CTL_WR_EN

theorem accB_accepts (s : State) (src : Source) (a : Nat) (h : accB s src a = true) : s.blk.accepts src a := by
  unfold accB at h
  simp only [Bool.and_eq_true, decide_eq_true_eq, Bool.not_eq_true'] at h
  exact ⟨h.1.1.1, h.1.1.2, h.1.2, h.2⟩

/-- A device that forwards, with every page's header as reset leaves it. -/
def fwd : State := dev .forwarding

theorem test_witness_a : (Instr.registerWrite ⟨.host, 0, []⟩).wf = true ∧ badSeen.norm.wf = true ∧
    (({ pending := [.vauxInValid, .slewEnd] } : State)).queueWf = true := by decide +kernel

theorem test_witness_WriteTakesFields : accB fwd .host QMG.COLOR_SRC = true ∧ (regOf QMG.COLOR_SRC).isSome = true ∧
    QMG.COLOR_SRC < 2 ^ 26 ∧ QMG.COLOR_SRC % 4 = 0 ∧ 0x100 ≤ QMG.COLOR_SRC % 0x10000 ∧ fwd.blk.fw.mbTrasum = none := by decide +kernel
theorem test_witness_WriteTakesFields_eff : effOf .host {} QMG.COLOR_SRC = noEff := by
  unfold effOf
  simp only [show QMG.COLOR_SRC / 0x10000 = 0x80 by decide, show QMG.COLOR_SRC % 0x10000 = 0x104 by decide]
  rfl

theorem test_witness_HostMeetsNothingBeforeRails : State.reset.blk.mode.mode = .standby ∧ State.reset.blk.fw.mbTrasum = none ∧
    (dev .boot).blk.mode.mode = .boot ∧ writeOf (.kick hw) = some (.host, FWM.WDT, fldPut FWM.WDT_KICK 0#32 1) ∧
    (Instr.kick hw).wf = true := by decide +kernel

/-- The lookup page in its soft reset, and with register writes disabled. -/
def held : State := dev .forwarding [(HDR.PAGE_CTL 0x22, fldPut HDR.PAGE_CTL_SOFT_RESET (resetOf (HDR.PAGE_CTL 0x22)) 1)]
def disabled : State := dev .forwarding [(HDR.PAGE_CTL 0x22, fldPut HDR.PAGE_CTL_WR_EN (resetOf (HDR.PAGE_CTL 0x22)) 0)]

theorem test_witness_RefusedWriteIsCaptured : writeOf (.nop hw) = some (.host, LKP.OP_CTL,
      fldPut LKP.OP_CTL_GO (fldPut LKP.OP_CTL_OP 0#32 0) 1) ∧ held.blk.reach .host 0x22 0x200 = .answers ∧ (pageRow 0x22).isSome = true ∧
    held.blk.flag (HDR.PAGE_CTL 0x22) HDR.PAGE_CTL_SOFT_RESET = true ∧ disabled.blk.flag (HDR.PAGE_CTL 0x22) HDR.PAGE_CTL_SOFT_RESET = false ∧
    disabled.blk.flag (HDR.PAGE_CTL 0x22) HDR.PAGE_CTL_WR_EN = false ∧ disabled.blk.reach .host 0x22 0x200 = .answers ∧
    held.blk.flag (HDR.ERR_INFO 0x22) HDR.ERR_INFO_VALID = false ∧
    (after (.nop hw) held).flag (HDR.ERR_INFO 0x22) HDR.ERR_INFO_VALID = true := by decide +kernel

theorem test_witness_UnassignedPageIsCounted : fwd.blk.reach .host 0xC0 0 = .answers ∧ (pageRow 0xC0).isSome = false ∧
    (pageRow 0x22).isSome = true ∧ regOf 0x22FFFC = none ∧ NMap.find? fwd.blk.latches (latchKey .host 0x22FFFC) = none ∧
    accB fwd .host 0x22FFFC = true ∧ (after (.loHiRead (.bar0 .host 0xC00000 4)) fwd).reg PCI.UNMAPPED_CNT = 1#32 := by decide +kernel

theorem test_witness_LockKeyArmsUnlock : fwd.blk.reach .host 0x80 0x34 = .answers ∧ (pageRow 0x80).isSome = true ∧
    (after (.lockKeyWrite (hw 0xC1AD#32) 0x80) fwd).isArmed 0x80 .host = true ∧
    (after (.lockKeyWrite (hw 0xC1AE#32) 0x80) fwd).isArmed 0x80 .host = false := by decide +kernel

theorem test_witness_HeaderCommands : accB fwd .host (HDR.INT_FORCE 0x80) = true ∧ accB fwd .host (HDR.PAGE_CTL 0x80) = true ∧
    fldGet HDR.PAGE_CTL_SOFT_RESET 0#32 = 0 ∧ fldGet HDR.PAGE_CTL_FREEZE 0#32 = fwd.blk.fld (HDR.PAGE_CTL 0x80) HDR.PAGE_CTL_FREEZE ∧
    (after (.intForce (hw 1#32) 0x80) fwd).reg (HDR.INT_RAW 0x80) = 1#32 := by decide +kernel

/-- A device whose ring 0 asks for its vector 0, which is not masked. -/
def asking : State :=
  { fwd with blk := { fwd.blk with rings := [(0, { request := true })], regs := [(PCI.MSIX_CTL 0, 0#32)] } }

theorem test_witness_VectorSendsAndRearms : asking.blk.vecSummary 0 = true ∧ asking.blk.vecArmed 0 = true ∧
    asking.blk.vecMasked 0 = false ∧ (after (.msixSend 0 false) asking).vecArmed 0 = false ∧ accB fwd .host PCI.VEC_ACK = true ∧ fwd.blk.vecSummary 0 = false ∧
    (after (.vecAck (hw 511#32)) { fwd with blk := { fwd.blk with sent := [511] } }).vecArmed 511 = true := by decide +kernel

theorem test_witness_LoReadLatchesHi : latched TMB.TICKS_LO = [TMB.TICKS_LO + 4] ∧ TMB.TICKS_LO % 8 = 0 ∧
    fwd.blk.reach .host 4 (TMB.TICKS_LO % 0x10000) = .answers ∧ (pageRow 4).isSome = true ∧
    fwd.blk.flag (HDR.PAGE_CTL 4) HDR.PAGE_CTL_SOFT_RESET = false ∧ NMap.find? fwd.blk.latches (latchKey .host TMB.TICKS_LO) = none := by
  decide +kernel

/-- A device with a state of wire group 0 from the FD to the TD. -/
def withGroup (x : Group) (rs : NMap Word := []) : State :=
  { dev .forwarding rs with blk := { (dev .forwarding rs).blk with fd := { bridge := { groups := [(0, x)] } } } }
theorem test_witness_BridgeCreditAccount : fwd.blk.mode.mode ≠ .faultHold ∧ (fwd.blk.group 0 0).owed = 0 ∧
    ((withGroup { owed := 1 }).blk.group 0 0).owed ≠ 0 ∧ flipsWf 32 [(31, 0#8)] = true ∧
    ((withGroup { flight := [⟨none, [], true, 0⟩] }).blk.group 0 0).flight = [⟨none, [], true, 0⟩] ∧
    ((withGroup { flight := [⟨none, [], true, 0⟩] }).blk.group 0 0).fifo.length < 44 ∧
    48 ≤ ((withGroup { flight := [⟨none, [], true, 0⟩], fifo := List.replicate 48 ⟨none, [], true, 0⟩ }).blk.group 0 0).fifo.length := by
  decide +kernel

/-- A device with DRIFT set; at half width; with a return to full width asked for; with a switch under way. -/
def drifted (auto : Nat) : State := dev .forwarding [(BRG.STS, fldPut BRG.STS_DRIFT 0#32 1), (BRG.CTL, fldPut BRG.CTL_AUTO_HALF 0#32 auto)]
def half (x : Group) : State := withGroup x [(BRG.STS, fldPut BRG.STS_HALF 0#32 1)]
def switching : State := { blk := { (dev .forwarding).blk with fd := { bridge := { halfDue := true } } } }

theorem test_witness_HalfWidth : coreOn (drifted 0).blk.mode.mode = true ∧ (drifted 0).blk.flag BRG.STS BRG.STS_DRIFT = true ∧
    switching.blk.fd.bridge.halfDue = true ∧ (after .halfWidthSwitch switching).flag BRG.STS BRG.STS_HALF = true ∧
    (drifted 0).blk.fd.bridge.halfDue = false ∧ fwd.blk.flag BRG.STS BRG.STS_DRIFT = false ∧
    (after (.forwardedClockLockLoss 31) fwd).fld BRG.STS BRG.STS_FIRST_GROUP = 31 ∧
    (after (.forwardedClockLockLoss 31) (drifted 1)).fd.bridge.halfDue = true ∧
    (after (.forwardedClockLockLoss 31) (drifted 0)).fd.bridge.halfDue = false ∧
    (drifted 1).blk.flag BRG.STS BRG.STS_HALF = false ∧ (drifted 1).blk.flag BRG.CTL BRG.CTL_AUTO_HALF = true ∧
    (drifted 0).blk.flag BRG.CTL BRG.CTL_AUTO_HALF = false ∧ (drifted 0).blk.mode.mode ≠ .faultHold ∧
    (half { flight := [⟨none, [], true, 0⟩], fails := 2 }).blk.flag BRG.STS BRG.STS_HALF = true ∧
    ((half { flight := [⟨none, [], true, 0⟩], fails := 2 }).blk.group 0 0).flight ≠ [] ∧
    ((half { flight := [⟨none, [], true, 0⟩], fails := 2 }).blk.group 0 0).fails < 3 ∧
    3 ≤ ((half { flight := [⟨none, [], true, 0⟩], fails := 3 }).blk.group 0 0).fails ∧ bringUpToHold .forwarding = true ∧
    (dev .forwarding [(BRG.CTL, fldPut BRG.CTL_WIDTH_REQ 0#32 1)]).blk.flag BRG.CTL BRG.CTL_WIDTH_REQ = true := by decide +kernel

/-- A device at reset but for its mode's state, with some time since power-on. -/
def modeDev (x : ModeSt) (ns : Nat := 0) : State := { blk := { mode := x, time := { elapsed := ns } } }

theorem test_witness_supplies : (modeDev { mode := .unpowered, vaux := true, vauxSince := 5 } 10000005).blk.mode.vauxSince + 10000000 ≤
      (modeDev { mode := .unpowered, vaux := true, vauxSince := 5 } 10000005).blk.time.elapsed ∧
    (after (.islandPowerOnReset true true) (modeDev { mode := .unpowered, vaux := true, vauxSince := 5 } 10000005)).mode.mode = .standby ∧
    (after (.islandPowerOnReset true true) (modeDev { mode := .unpowered, vaux := true, vauxSince := 5 } 10000004)).mode.mode = .unpowered ∧
    (dev .forwarding).blk.mode.mode ≠ .unpowered ∧ State.reset.blk.mode.mode = .standby ∧ State.reset.blk.mode.mainRstN = true ∧
    State.reset.blk.nv.checkLoader true ≠ 0 ∧ (dev .forwarding).blk.mode.mode ≠ .boot ∧ (dev .forwarding).blk.mode.mainEn = true := by
  decide +kernel

theorem test_witness_rails_and_gate : (modeDev { mode := .boot, mainEn := true, mainEnSince := 7 } 50000007).blk.mode.railsGood = false ∧
    (modeDev { mode := .boot, mainEn := true, mainEnSince := 7 } 50000007).blk.mode.mainEnSince + 50000000 ≤ 50000007 ∧
    (after .mainRailTimeout (modeDev { mode := .boot, mainEn := true, mainEnSince := 7 } 50000007)).mode.cause = 9 ∧
    (after .mainRailTimeout (modeDev { mode := .boot, mainEn := true, mainEnSince := 7 } 50000006)).mode.mode = .boot ∧
    coreOn (dev .forwarding).blk.mode.mode = true ∧ (modeDev { inRange := true, gated := true }).blk.mode.mode = .standby ∧
    (modeDev { inRange := true, gated := true }).blk.mode.mainRstN = true ∧
    (after .temperatureGateRelease (modeDev { inRange := true, gated := true })).mode.mode = .boot := by decide +kernel

/-- A device in a mode, in the core's range, whose host and firmware have armed the unlock of AUX. -/
def armedAux (m : Mode) (rs : NMap Word := []) : State :=
  { blk := { (dev m rs [(0x60, .host), (0x60, .firmware)]).blk with
      mode := { mode := m, mainEn := true, railsGood := true, inRange := true } } }
/-- One in which a trigger of a rank has won this clock of the island, and one in SPORE whose loader has passed its check. -/
def rankedAux : State := { blk := { (armedAux .forwarding).blk with mode := { (armedAux .forwarding).blk.mode with winner := some 3 } } }
def spored : State := { blk := { (armedAux .spore).blk with mode := { (armedAux .spore).blk.mode with loaderOk := some true } } }
/-- Bank 0 is ACTIVE. -/
def bank0 (st : Nat) : NMap Word := [(GLB.PROG_BANK_STS, fldPut GLB.PROG_BANK_STS_BANK0 0#32 st)]

theorem test_witness_ModeRequests : accB (armedAux .spore) .host AUX.MODE_REQ = true ∧ (armedAux .spore).blk.isArmed 0x60 .host = true ∧
    (armedAux .forwarding).blk.refusal .host 1 ≠ 0 ∧ rankedAux.blk.mode.winner = some 3 ∧ 3 ≤ reqRank .host 1 ∧
    (∀ n, (armedAux .forwarding).blk.mode.winner = some n → reqRank .host 1 < n) ∧ (armedAux .spore).blk.mode.loaderOk = none ∧
    spored.blk.refusal .host 1 = 0 ∧ spored.blk.mode.loaderOk = some true ∧ (armedAux .spore).blk.refusal .host 1 = 0 ∧
    (armedAux .standby).blk.refusal .firmware 1 = 0 ∧ accB (armedAux .standby) .firmware AUX.MODE_REQ = true ∧
    (armedAux .forwarding).blk.refusal .host 5 = 0 ∧ (armedAux .lowPowerHold).blk.refusal .host 5 = 0 ∧
    (armedAux .lowPowerHold).blk.retained = [] ∧ (armedAux .quiescent (bank0 3)).blk.refusal .host 6 = 0 ∧
    (armedAux .standby).blk.refusal .firmware 2 = 0 ∧ (armedAux .quiescent).blk.refusal .host 3 = 0 ∧
    (armedAux .forwarding).blk.refusal .host 4 = 0 ∧ (armedAux .quiescent).blk.refusal .host 7 = 0 ∧
    (armedAux .quiescent).blk.refusal .host 8 = 0 ∧ (armedAux .forwarding).blk.refusal .host 9 = 0 := by decide +kernel
/-- A device in a mode whose loader is due. -/
def due (m : Mode) (nv : Nv := {}) : State :=
  { blk := { (dev m).blk with fw := { (dev m).blk.fw with loaderDue := true }, nv := nv } }

/-- In BRING-UP, with the channels not past step 1 of their training and past it, and with an image that asked for its own restart. -/
def training : State := dev .bringUp
def stepped : State := { blk := { (dev .bringUp).blk with d5 := { chans := (upTo 17).map (fun k => (k, { resetHigh := true })) } } }
def restarting : State := { blk := { (dev .bringUp).blk with fw := { (dev .bringUp).blk.fw with restartWanted := true } } }

theorem test_witness_BringUp : (due .boot).blk.fw.loaderDue = true ∧ (due .boot).blk.nv.boot.trial = false ∧
    (due .boot).blk.nv.boot.selected ≤ 1 ∧ (due .handover).blk.mode.mode = .handover ∧ (due .boot).blk.mode.railsGood = true ∧
    (due .boot).blk.nv.checkSlot 0 true ≠ 0 ∧ (due .boot { boot0 := some { selected := 0, fallbackValid := false } }).blk.nv.boot.fallbackValid = false ∧
    (due .boot { boot0 := some {} }).blk.nv.boot.rejected = false ∧ (dev .bringUp).blk.mode.mode = .bringUp ∧ stepped.blk.mode.mode = .bringUp ∧ stepped.blk.d5Stepped = true ∧
    (dev .bringUp).blk.fw.restartWanted = false ∧ training.blk.d5Stepped = false ∧ restarting.blk.fw.restartWanted = true ∧
    restarting.blk.mode.inProgress = none ∧
    (dev .bringUp).blk.flag (HDR.ERR_INFO 0) HDR.ERR_INFO_VALID = false ∧ bringUpToHold .bringUp = true ∧ bringUpToHold .faultHold = false := by
  decide +kernel

theorem test_witness_Faults : (dev .forwarding [(HDR.ERR_INFO 0, 0x80000080#32)]).blk.flag (HDR.ERR_INFO 0) HDR.ERR_INFO_VALID = true ∧
    0x80 ≤ (dev .forwarding [(HDR.ERR_INFO 0, 0x80000080#32)]).blk.fld (HDR.ERR_INFO 0) HDR.ERR_INFO_CODE ∧ forwards .forwarding = true ∧
    forwards .quiescent = false ∧ fwd.blk.mode40 ≠ .quiescent ∧ fwd.blk.mode40 ≠ .forwarding := by decide +kernel

/-- An image runs. -/
def runs (m : Mode) (q : Bool := false) : State :=
  { blk := { (dev m [(FWM.FW_STS, 0#32)]).blk with mode := { mode := m, mainEn := true, railsGood := true, fromQuiescent := q } } }

theorem test_witness_Handover : (runs .handover).blk.fwRuns = true ∧
    (runs .handover).blk.flag FWM.FW_STS FWM.FW_STS_SETTINGS_INCOMPATIBLE = false ∧ (runs .handover true).blk.mode.fromQuiescent = true ∧
    (runs .handover).blk.mode.fromQuiescent = false ∧ (runs .handover).blk.mbBusy = false ∧ (runs .quiescent).blk.fwRuns = true ∧
    forwards (runs .forwarding).blk.mode.mode = true := by decide +kernel

/-- An image runs, some time since power-on. -/
def runsAt (x : ModeSt) (ns : Nat) (kick : Nat := 0) : State :=
  { blk := { (runs x.mode).blk with mode := x, fw := { (runs x.mode).blk.fw with kickedAt := kick }, time := { elapsed := ns } } }

theorem test_witness_late : (runsAt { mode := .handover, since := 3 } 10000000003).blk.mode.since + 10000000000 ≤ 10000000003 ∧
    (after .handoverLate (runsAt { mode := .handover, since := 3 } 10000000003)).out = [.handoverLate] ∧
    (after .handoverLate (runsAt { mode := .handover, since := 3 } 10000000002)).out = [] ∧
    (runsAt { mode := .forwarding } (10 ^ 12) 5).blk.fwRuns = true ∧
    5 + (runsAt { mode := .forwarding } (10 ^ 12) 5).blk.fld FWM.WDT FWM.WDT_WDT_MS * 1000000 ≤ 10 ^ 12 ∧
    (after .watchdogExpiry (runsAt { mode := .forwarding } (10 ^ 12) 5)).mode.cause = 7 ∧
    (after .watchdogExpiry (runsAt { mode := .forwarding } 6 5)).mode.mode = .forwarding := by decide +kernel

/-- A request for QUIESCENT whose ports are held. -/
def holding (ns : Nat) : State :=
  modeDev { mode := .forwarding, mainEn := true, railsGood := true, inProgress := some ⟨5, .host, 0⟩, portHold := true, reqAt := 4 } ns

theorem test_witness_PortHold : (holding 10000004).blk.mode.inProgress = some ⟨5, .host, 0⟩ ∧ (holding 10000004).blk.mode.portHold = true ∧
    (holding 10000004).blk.mode.reqAt + 10000000 ≤ 10000004 ∧ forwards (holding 10000004).blk.mode.mode = true ∧
    (after .quiescentPortHold (holding 10000004)).mode.mode = .quiescent ∧
    (after .quiescentPortHold (holding 10000003)).mode.mode = .forwarding := by decide +kernel

theorem test_witness_CommandWritesRunTheirEffect : writeOf (.partCommit hw) = some (.host, LKP.PART_CTL, fldPut LKP.PART_CTL_COMMIT 0#32 1) ∧
    (Instr.partCommit hw).wf = true ∧ 0x100 ≤ LKP.PART_CTL % 0x10000 ∧ (regOf LKP.PART_CTL).isSome = true ∧
    accB fwd .host LKP.PART_CTL = true := by decide +kernel

theorem test_witness_CommitRequests : accB fwd .host PRS.RANGE_CTL = true ∧ accB fwd .host PAY.CTL = true ∧ accB fwd .host (FRD.CAL_CTL 15) = true ∧
    accB fwd .host (SCH.CAL_CTL 7) = true ∧ fwd.blk.fdLive = true ∧ fwd.blk.schLive = true ∧
    fwd.blk.flag PRS.RANGE_CTL PRS.RANGE_CTL_COMMIT = false ∧ (dev .forwarding [(PRS.RANGE_CTL, 1#32)]).blk.flag PRS.RANGE_CTL PRS.RANGE_CTL_COMMIT = true ∧
    (dev .forwarding [(PAY.CTL, fldPut PAY.CTL_COMMIT 0#32 1)]).blk.flag PAY.CTL PAY.CTL_COMMIT = true ∧ fwd.blk.flag PAY.CTL PAY.CTL_COMMIT = false ∧
    (dev .forwarding [(FRD.CAL_CTL 0, 1#32)]).blk.flag (FRD.CAL_CTL 0) FRD.CAL_CTL_COMMIT = true ∧
    (dev .forwarding [(SCH.CAL_CTL 0, 1#32)]).blk.flag (SCH.CAL_CTL 0) SCH.CAL_CTL_COMMIT = true ∧
    NMap.get 0 fwd.blk.td.sched.calPos 0 = 0 := by decide +kernel

theorem test_witness_CommitChecks : (dev .forwarding [(FRD.CAL_SHADOW 0 0, 0x3E3E3E3E#32)]).blk.frdCalOk 0 (FRD.CAL_SHADOW 0 0) = false ∧
    fwd.blk.patsOk fwd.blk.payShadow = true ∧ (dev .forwarding [(SCH.CAL_SHADOW 0 0, 0x3E3E3E3E#32)]).blk.schCalOk 0 = false := by decide +kernel

/-- A device with a load in a state. -/
def loadIn (st : Nat) (m : Mode := .quiescent) : State := dev m [(GLB.PROG_LOAD_STS, fldPut GLB.PROG_LOAD_STS_STATE 0#32 st)] [(0, .host)]
def pending (m : Mode) : State := dev m [(GLB.PROG_LOAD_CTL, fldPut GLB.PROG_LOAD_CTL_ACTIVATE 0#32 1)]

/-- A bank drains with a packet in a parser that carries its stamp. -/
def drained : State := { blk := { (dev .forwarding (bank0 4)).blk with fd := { fronds := [(0, { parser := [{ pkt := { stamped := true }, parse := {}, kind := .dropped }] })] } } }

theorem test_witness_ProgramLoads : accB (loadIn 0) .host GLB.PROG_LOAD_CTL = true ∧ (loadIn 0).blk.isArmed 0 .host = true ∧
    (loadIn 0).blk.loading = false ∧ progMode .quiescent = true ∧ progMode .faultHold = false ∧ (loadIn 0).blk.bankIn 4 = none ∧
    (dev .quiescent [(GLB.PROG_LOAD_LEN, 4096#32)]).blk.fld GLB.PROG_LOAD_LEN GLB.PROG_LOAD_LEN_LEN ≠ 0 ∧ (loadIn 1).blk.loading = true ∧
    (loadIn 0 .forwarding).blk.mode.mode ≠ .quiescent ∧ (pending .quiescent).blk.flag GLB.PROG_LOAD_CTL GLB.PROG_LOAD_CTL_ACTIVATE = true ∧
    (pending .quiescent).blk.bankIn 2 = none ∧ (pending .forwarding).blk.mode.mode ≠ .quiescent ∧ (loadIn 0).blk.loadState ≠ 2 ∧
    (loadIn 2).blk.loadState = 2 ∧ (dev .forwarding (bank0 4)).blk.bankIn 4 = some 0 ∧ (dev .forwarding (bank0 4)).blk.fd.prog.drainLeft = 0 ∧
    ({ blk := { (dev .forwarding (bank0 4)).blk with fd := { prog := { drainLeft := 1 } } } } : State).blk.fd.prog.drainLeft ≠ 0 ∧ drained.blk.drainTotal ≠ 0 ∧ fwd.blk.mode.mode ≠ .faultHold := by decide +kernel

theorem test_witness_EmptyQueuePassesTime : (dev .unpowered).blk.mode.mode = .unpowered ∧ coreOn (dev .standby).blk.mode.mode = false ∧
    coreOn fwd.blk.mode.mode = true ∧ 1 < fwd.blk.cyclesFor fwd.blk.toBoundary ∧ regOf PCI.UNMAPPED_CNT ≠ none := by decide +kernel

/-- A device that forwards, with its data-plane parts as given. -/
def run (fd : FdSt := {}) (rs : NMap Word := []) (td : TdSt := {}) (tbl : TblSt := {}) (m : Mode := .forwarding) : State :=
  { blk := { (dev m rs).blk with fd := fd, td := td, tbl := tbl } }
/-- A register with one field set. -/
def put (a : Nat) (f : Fld) (v : Nat) : Nat × Word := (a, fldPut f (resetOf a) v)

/-- Port 0 comes from OTN context 0, which is enabled and up. -/
def otnPort : State :=
  { blk := { (dev .forwarding [(LIN.LPORT_SPEED 0 0, fldPut LIN.LPORT_SPEED_UP 0#32 1), (LIN.LPORT_MAP 0 0, fldPut LIN.LPORT_MAP_KIND 0#32 3),
      (OTN.CFG 0, fldPut OTN.CFG_ENABLE 0#32 1)]).blk with line := { up := [LineObj.key (.otn 0)] } } }

theorem test_witness_frames : (LineObj.otn 0).wf = true ∧ otnPort.blk.lineLive = true ∧ otnPort.blk.objEn (.otn 0) = true ∧
    otnPort.blk.isUp (.otn 0) = true ∧ otnPort.blk.lportOf (.otn 0) = some 0 ∧ otnPort.blk.portAdmits 0 = true ∧
    otnPort.blk.flag BRG.STS BRG.STS_HALF = false ∧ 64 ≤ otnPort.blk.fld (PRS.STAGE 0) PRS.STAGE_MTU ∧
    64 ≤ 4096 * otnPort.blk.fld (PRS.STAGE 0) PRS.STAGE_SHARE - otnPort.blk.stageOcc 0 ∧ (dev .standby).blk.lineLive = false ∧
    ((after (.frameReceive (.otn 0) (List.replicate 60 0#8) true ⟨0, 0, 0, 0⟩) otnPort).staged 0).map (fun x => x.pkt.bytes.length) = [60] := by
  decide +kernel

/-- Port 0 has a whole packet staged, or one not yet ready; bank 0 runs an image. -/
def stagedDev (ready : Bool) (cal : Nat := 0) : State := run { staging := [(0, [⟨{ lport := 0, noLport := false }, ready⟩])] }
  (bank0 3 ++ [put (FRD.CAL_ACTIVE 0 0) ⟨0, 6⟩ cal])

theorem test_witness_staging : (stagedDev false).blk.fdLive = true ∧ (stagedDev false).blk.staged 0 = [] ++ ⟨{ lport := 0, noLport := false }, false⟩ :: [] ∧
    (after (.packetReady 0) (stagedDev false)).staged 0 = [⟨{ lport := 0, noLport := false }, true⟩] ∧ fwd.blk.bankIn 3 = none ∧
    (stagedDev true).blk.bankIn 3 = some 0 ∧ (stagedDev true).blk.frondsRun = true ∧ (stagedDev true).blk.groupState 20 = 0 ∧
    ((stagedDev true).blk.calEntry (FRD.CAL_ACTIVE 0 0) (((stagedDev true).blk.frond 0).cycle % 128)).1 = 0 ∧
    (stagedDev true).blk.inGap 0 { lport := 0, noLport := false, stamped := true, bank := 0 } = false ∧
    (after (.frondAdmission 0 {}) (stagedDev true)).staged 0 = [] ∧
    ((after (.frondAdmission 0 {}) (stagedDev true)).frond 0).parser.map (fun q => (q.pkt.bank, q.pkt.stamped)) = [(0, true)] ∧
    (after (.frondAdmission 0 {}) fwd).cnt48 (FRD.BUBBLES_LO 0) = 1 := by decide +kernel

def pass0 (k : PassKind) : Pass := { pkt := {}, parse := {}, kind := k }
def frondDev (x : Frond) (m : Mode := .forwarding) : State := run { fronds := [(15, x)] } [] {} {} m
def recircDev (x : Recirc) : State := run { recirc := [(7, x)] }

theorem test_witness_passes : (frondDev { parser := [pass0 .dropped] } .faultHold).blk.mode.mode = .faultHold ∧ (fwd.blk.frond 15).parser = [] ∧
    ((frondDev { parser := [pass0 .dropped] }).blk.frond 15).parser = [pass0 .dropped] ∧
    ((after (.parserExit 15) (frondDev { parser := [pass0 .dropped] })).frond 15).pinnae.map (·.kind) = [.dropped] ∧
    ((frondDev { pinnae := [pass0 .dropped] }).blk.frond 15).pinnae = [pass0 .dropped] ∧ ({} : AccSeen).wf = true ∧
    ((after (.handOff 15 0 [] {}) (frondDev { pinnae := [pass0 .dropped] })).frond 15).pinnae = [] ∧
    ((recircDev { path := [{}] }).blk.recirc 7).path = [{}] ∧ ((recircDev { path := [{}] }).blk.recirc 7).fifo.length < 64 ∧
    ((after (.recircStore 7) (recircDev { path := [{}] })).recirc 7).path = [] ∧
    ((after (.recircStore 7) (recircDev { path := [{}] })).recirc 7).fifo.length = 1 ∧
    64 ≤ ((recircDev { path := [{}], fifo := List.replicate 64 {} }).blk.recirc 7).fifo.length ∧
    (after (.recircStore 7) (recircDev { path := [{}], fifo := List.replicate 64 {} })).cnt48 (FRD.RECIRC_FULL_LO 7) = 1 := by decide +kernel

/-- An anchor entry of a type is pending at 5 ns, and network time stands at `t`. -/
def anchorDev (ty op t : Nat) (rs : NMap Word := []) (m : Mode := .forwarding) (fd : FdSt := {}) : State :=
  { blk := { (dev m rs).blk with anchors := [⟨5, 0, ty, false, op, 9, .pending, 0, 0, false⟩], time := { t := t }, fd := fd } }
/-- An image header whose IMAGE_ID is 7. -/
def image7 : List Byte := List.replicate 0x10 0#8 ++ [7#8] ++ List.replicate 0x2F 0#8

theorem test_witness_AnchorEntriesComeDue : (anchorDev 5 0 0 [] .faultHold).blk.mode.mode = .faultHold ∧ fwd.blk.ancDue 1 = none ∧
    ((anchorDev 5 0 0).blk.ancDue 5).map (fun e => (e.stamp, e.tag)) = some (5, 9) ∧
    (anchorDev 5 0 0).blk.dueAt 5 5 = 5 * 10 ^ 12 ∧ ((anchorDev 5 0 0).blk.reachStamp (5 * 10 ^ 12)).time.t = 5 * 10 ^ 12 ∧ (after .marker (anchorDev 5 0 0)).anchors = [] ∧
    (after .marker (anchorDev 5 0 0)).cnt48 ANC.EXECUTED_LO = 1 ∧
    ((anchorDev 5 0 0 [] .forwarding).blk.reachStamp (10 ^ 21)).time.t < 10 ^ 21 ∧
    (anchorDev 4 3 0).blk.fld CNT.SNAP_STS CNT.SNAP_STS_STATE = 0 ∧
    (after .counterSnapshot (anchorDev 4 3 0)).fld CNT.SNAP_STS CNT.SNAP_STS_ID = 3 := by decide +kernel

/-- Bank 0 holds image 7, VERIFIED, and its swap is pending. -/
def swapDev : State := anchorDev 1 7 0 (bank0 2) .quiescent { prog := { bank0 := { image := image7 } } }

theorem test_witness_swap : swapDev.blk.bankOfId 7 = some 0 ∧ swapDev.blk.bankState 0 = 2 ∧ swapDev.blk.bankIn 4 = none ∧
    progMode .quiescent = true ∧ (swapDev.blk.ancDue 1).map (fun e => (e.stamp, e.operand)) = some (5, 7) ∧
    5 * 10 ^ 12 ≤ (swapDev.blk.reachStamp (5 * 10 ^ 12)).time.t := by decide +kernel

/-- A register with two fields set. -/
def put2 (a : Nat) (f : Fld) (v : Nat) (g : Fld) (w : Nat) : Nat × Word := (a, fldPut g (fldPut f (resetOf a) v) w)

/-- Ring `r` runs with one descriptor of a type at its head, OWN set. -/
def ringDev (r ty : Nat) (m : Mode := .forwarding) : State :=
  { blk := { (dev m [put (PCI.RING_CFG r) PCI.RING_CFG_ENABLE 1]).blk with
      rings := [(r, { owned := 1 })]
      host := { mem := [(12, BitVec.ofNat 8 ty), (15, 0x80#8)] } } }

/-- Ring 67 runs with a descriptor of table operations in progress. -/
def jobDev (j : BulkJob) : State :=
  { blk := { (ringDev 67 6).blk with rings := [(67, { owned := 2, taken := 0, job := some j })] } }

theorem test_witness_bulk : (jobDev ⟨6, 0, 64, 3, false, 0, none⟩).blk.fdLive = true ∧
    ((jobDev ⟨6, 0, 64, 3, false, 0, none⟩).blk.ring 67).job = some ⟨6, 0, 64, 3, false, 0, none⟩ ∧
    (((after .tableOp (jobDev ⟨6, 0, 64, 3, false, 0, none⟩)).ring 67).job.map (fun j => (j.left, j.next, j.done))) = some (2, 128, 1) ∧
    (jobDev ⟨6, 0, 64, 3, false, 0, none⟩).blk.flag (PCI.RING_CFG 67) PCI.RING_CFG_ENABLE = true ∧
    ((after .tableOp (jobDev ⟨6, 0, 64, 1, false, 2, none⟩)).ring 67).job = none ∧
    (after .tcamOp (jobDev ⟨6, 0, 64, 3, false, 0, none⟩)).ring 67 = (jobDev ⟨6, 0, 64, 3, false, 0, none⟩).blk.ring 67 ∧
    ((ringDev 67 6).blk.ring 67).job = none ∧
    Memory.read (after .tableOp (ringDev 67 6)).host.mem ((ringDev 67 6).blk.descAddr 67 0 + 14) = 2#8 ∧
    Memory.read (after .tcamOp (ringDev 67 7)).host.mem ((ringDev 67 7).blk.descAddr 67 0 + 14) = 2#8 := by decide +kernel

/-- The TYPE of the descriptor at the head of a ring. -/
def headType (s : State) (r : Nat) : Option Nat :=
  match s.blk.fetchHead r with
  | .ok d => some (leAt d 12 1)
  | .err _ => none

theorem test_witness_DescriptorsTakenAtHead : (fwd.blk.ringRuns 67) = false ∧ (ringDev 67 8).blk.ringRuns 67 = true ∧
    0 < (ringDev 67 8).blk.ringFree 67 ∧ ringAlive .forwarding 67 = true ∧ (ringDev 67 8).blk.fdLive = true ∧
    (ringDev 67 8).blk.ringSize 67 ≤ 2 ^ 16 ∧ headType (ringDev 67 8) 67 = some 8 ∧
    ((ringDev 67 8).blk.ring 67).taken = 0 ∧ ((after .programBlock (ringDev 67 8)).ring 67).owned = 0 ∧
    headType (ringDev 67 9) 67 = some 9 ∧
    Memory.read (after .programBlock (ringDev 67 9)).host.mem ((ringDev 67 9).blk.descAddr 67 0 + 14) = 1#8 ∧
    headType (ringDev 67 6) 67 = some 6 ∧
    after .programBlock (ringDev 67 6) = (ringDev 67 6).blk ∧
    Memory.read (after .firmwareBlock (ringDev 68 6 .spore)).host.mem ((ringDev 68 6).blk.descAddr 68 0 + 14) = 1#8 ∧
    (upTo 64).all (fun r => !fwd.blk.ringRuns r) = true := by decide +kernel

/-- An image with the table regions given; one exact-match table of four words, ID 1, and its image ACTIVE. -/
def imageT (regs : List Byte) : List Byte := List.replicate 0x10 0#8 ++ [7#8, 0, 0, 0, 1, 0] ++ List.replicate 42 0#8 ++ [8#8, 0, 0, 0, 0x50]
  ++ List.replicate 3 0#8 ++ [BitVec.ofNat 8 regs.length] ++ List.replicate 7 0#8 ++ regs
def oneRegion (kind : Byte) : List Byte := [1, 0, kind, 0, 0, 0, 0, 0, 1] ++ List.replicate 7 0#8
def tableDev (tbl : TblSt := {}) (rs : NMap Word := []) (kind : Byte := 3) : State :=
  run { prog := { bank0 := { image := imageT (oneRegion kind) } } } (bank0 3 ++ rs) {} tbl
def shdDev (tbl : TblSt := {}) : State := tableDev tbl [put SHD.CTL SHD.CTL_ENABLE 1, put2 (SHD.TBL 15) SHD.TBL_ENABLE 1 SHD.TBL_TABLE_ID 1]

/-- The device so many ns after its power came on. -/
def later (ns : Nat) (s : State) : State := { s with blk := { s.blk with time := { s.blk.time with elapsed := ns } } }

/-- The device after a number of ticks. -/
def ticked (n : Nat) (s : State) : State := { s with blk := { s.blk with time := { s.blk.time with fired := n } } }

theorem test_witness_partitions_and_moves : (run {} [] {} { zeroed := some [1#32] }).blk.fdLive = true ∧
    (run {} [] {} { zeroed := some [1#32] }).blk.tbl.zeroed = some [1#32] ∧
    (after .partCommitApply (run {} [] {} { zeroed := some [1#32] })).tbl.zeroed = none ∧
    (after .partCommitApply (run {} [] {} { zeroed := some [1#32] })).reg (LKP.PART_ACTIVE_0 0) = 1#32 ∧
    (tableDev { moving := [⟨0, 0, false, 1, false⟩] }).blk.tbl.moving ≠ [] ∧
    (after .emMoveZero (tableDev { moving := [⟨0, 0, false, 1, false⟩] })).tbl.moving = [] ∧ fwd.blk.tbl.moving = [] ∧
    (NMap.get {} (after .freedWordsReturn (run {} [] {} { lpm := [(1, { grace := [⟨0, 0, 0, 1⟩] })] })).tbl.lpm 1).grace = [⟨0, 0, 0, 1⟩] ∧
    (NMap.get {} (after .freedWordsReturn (ticked 2 (run {} [] {} { lpm := [(1, { grace := [⟨0, 0, 0, 1⟩] })] }))).tbl.lpm 1).grace = [] := by
  decide +kernel

theorem test_witness_learning : (tableDev { fifo := [⟨7, 1, 2, false⟩] }).blk.tbl.fifo = [⟨7, 1, 2, false⟩] ∧
    (tableDev { fifo := [⟨7, 1, 2, false⟩] } [put (LRN.TBL_CFG 7) LRN.TBL_CFG_MODE 1]).blk.fld (LRN.TBL_CFG 7) LRN.TBL_CFG_MODE = 1 ∧
    (after .learnApply (tableDev { fifo := [⟨7, 1, 2, false⟩] } [put (LRN.TBL_CFG 7) LRN.TBL_CFG_MODE 1])).tbl.fifo = [] ∧
    (after .learnApply (tableDev { fifo := [⟨7, 1, 2, false⟩] } [put (LRN.TBL_CFG 7) LRN.TBL_CFG_MODE 1])).reg LRN.NOTICE_SEQ = 1#32 ∧
    NMap.get 0 (ticked 5 fwd).blk.tbl.agedAt 7 ≠ (ticked 5 fwd).blk.ticks ∧
    fwd.blk.flag (LRN.TBL_AGE 7) LRN.TBL_AGE_ENABLE = false ∧
    (dev .forwarding [put2 (LRN.TBL_AGE 7) LRN.TBL_AGE_ENABLE 1 LRN.TBL_AGE_AGE_TICKS 1]).blk.flag (LRN.TBL_AGE 7) LRN.TBL_AGE_ENABLE = true ∧
    (after (.agingRemoval true) (run {} [] {} { aging := [(0, 0)] })).tbl.aging = [] := by decide +kernel

theorem test_witness_shadow : shdDev.blk.walkBlocks = [(15, 0, 0)] ∧ shdDev.blk.walkDue.tbl.walkPos = 0 ∧ shdDev.blk.fdLive = true ∧
    shdDev.blk.flag SHD.CTL SHD.CTL_ENABLE = true ∧ fwd.blk.flag SHD.CTL SHD.CTL_ENABLE = false ∧
    (after (.shadowWalk .spans .spans .spans .spans []) shdDev).cnt48 SHD.DEFERRED_CNT_LO = 1 ∧ (after (.shadowWalk .spans .spans .spans .spans []) shdDev).tbl.walkPos = 1 ∧
    (after (.shadowWalk .spans .spans .spans .spans []) (shdDev { walkPos := 1 })).tbl.walkPos = 1 ∧
    (shdDev { reread := [(15, 0, 0)] }).blk.tbl.reread = [(15, 0, 0)] := by decide +kernel

def tcamDev (t : TcamSt) (rs : NMap Word := []) : State := { blk := { (dev .forwarding rs).blk with tcam := t } }
/-- The scrubber is enabled, and its next pass is due. -/
def scrubDev : State := ticked (2 ^ 32) (dev .forwarding [put TCM.CTL TCM.CTL_SCRUB_EN 1])

theorem test_witness_TcamUpkeep : fwd.blk.fdLive = true ∧ (dev .standby).blk.fdLive = false ∧
    (after (.commitCleanupEnd 1#16) (tcamDev { flags := 3 })).tcam.flags = 2 ∧ scrubDev.blk.flag TCM.CTL TCM.CTL_SCRUB_EN = true ∧
    scrubDev.blk.tcam.scrubFrom + scrubDev.blk.fld TCM.SCRUB TCM.SCRUB_TICKS ≤ scrubDev.blk.ticks ∧
    (dev .forwarding [put TCM.CTL TCM.CTL_SCRUB_EN 1]).blk.ticks < (dev .forwarding [put TCM.CTL TCM.CTL_SCRUB_EN 1]).blk.tcam.scrubFrom +
      (dev .forwarding [put TCM.CTL TCM.CTL_SCRUB_EN 1]).blk.fld TCM.SCRUB TCM.SCRUB_TICKS ∧
    scrubDev.blk.badBank (scrubDev.blk.groupOf 39).2 (scrubDev.blk.groupOf 39).1 8191 [] = none ∧
    scrubDev.blk.rowUsable (scrubDev.blk.groupOf 39).2 (scrubDev.blk.groupOf 39).1 8191 = true ∧
    (after (.tcamScrubPass [(39, 8191, .soft)]) scrubDev).cnt48 TCM.SCRUB_FIX_CNT_LO = 1 ∧
    (after (.tcamRowScrub .clean) (tcamDev { scrubQ := [5, 6] })).tcam.scrubQ = [6] := by decide +kernel

/-- Queue 0 with storage as given, whose profile 0 spills at 8 tail cells, and channel 0 alone mapped. -/
def peatDev (x : Queue) (rs : NMap Word := []) (budget : Nat := 0x10001000) : State :=
  run {} ((PEAT.BUDGET, BitVec.ofNat 32 budget) :: put2 (D5M.MAP 0) D5M.MAP_VALID 1 D5M.MAP_PHYSICAL 0 :: rs)
    { store := { queues := [(0, x)], storeProf := [(0, [2 ^ 31, 1 + 8 * 2 ^ 16, 0, 1, 0])], sward := [] } }
def eight : List Slot := (upTo 8).map (fun k => ⟨k, k⟩)

theorem test_witness_arrivals : wholeCell ((withGroup { fifo := [⟨some { sop := true }, [], true, 0⟩] }).blk.group 0 0).fifo =
      some ({ sop := true }, 1) ∧ wholeCell (fwd.blk.group 0 31).fifo = none ∧ ({} : Seen).wf = true ∧
    wholeCell ((withGroup { fifo := [⟨some {}, [], true, 0⟩] }).blk.group 0 0).fifo = some ({}, 1) ∧ fwd.blk.assembly 0 = none ∧
    ((after (.cellArrival 0 {}) (withGroup { fifo := [⟨some {}, [], true, 0⟩] })).group 0 0).owed = 1 ∧
    ((run {} [] { fab := { contexts := [(0, { delivered := [{}] })] } }).blk.reseq 0).delivered = [{}] ∧
    ((after (.cellArrival 32 {}) (run {} [] { fab := { contexts := [(0, { delivered := [{}] })] } })).reseq 0).delivered = [] := by
  decide +kernel

theorem test_witness_spills : (peatDev { spilling := true, tail := eight }).blk.mustSpill 0 = true ∧
    (peatDev { spilling := true, tail := eight } [] 0).blk.effWrite = 0 ∧
    (peatDev { spilling := true, tail := eight } [] 0).blk.mustSpill 0 = true ∧ fwd.blk.mustSpill 0xFFFFF = false ∧
    (peatDev { spilling := true, tail := eight }).blk.effWrite = 256 ∧
    (peatDev { spilling := true, tail := eight }).blk.budgetTurn 256 0 [] 0 = true ∧
    (peatDev { spilling := true, tail := eight }).blk.budgetTurn 256 1 [] 0 = false ∧
    (peatDev { spilling := true, tail := eight } [] 0).blk.budgetTurn 0 0 [] 0 = false := by decide +kernel

theorem test_witness_blocks :
    (peatDev { spilling := true, tail := eight }).blk.nextBlock ((peatDev { spilling := true, tail := eight }).blk.queue 0).lastChan = some 0 ∧
    (after (.spillWrite 0 []) (peatDev { spilling := true, tail := eight } [] 0)).td.store.writeWait = [0] ∧
    (run {} [(PEAT.BUDGET, 0x10001000#32), put2 (D5M.MAP 0) D5M.MAP_VALID 1 D5M.MAP_PHYSICAL 0] { store := { deadChans := [0] } }).blk.nextBlock
      15 = none := by decide +kernel

theorem test_witness_prefetches : completeRelink ({} : Queue).fetching = none ∧
    ((peatDev { spilling := true, writing := [(0, eight)] }).blk.queue 0).writing = [(0, eight)] ∧
    ((after (.spillWriteComplete 0) (peatDev { spilling := true, writing := [(0, eight)] })).queue 0).middle = [(0, 0)] ∧
    (peatDev { spilling := true, middle := [(0, 0)] }).blk.mustPrefetch 0 = true ∧
    (peatDev { spilling := true, middle := [(0, 0)] }).blk.td.store.lost.contains 0 = false ∧
    (peatDev { spilling := true, middle := [(0, 0)] }).blk.chanHeld 0 = false ∧
    (peatDev { spilling := true, middle := [(0, 0)] } [put (D5C.STS 0) D5C.STS_STATE d5Hold]).blk.chanHeld 0 = true ∧
    (peatDev { spilling := true, middle := [(0, 0)] } [] 0).blk.effRead = 0 ∧
    ((after (.prefetchRequest 0) (peatDev { spilling := true, middle := [(0, 0)] })).queue 0).fetching = [.read 0 0] ∧
    (peatDev { spilling := true, writing := [(0, eight)] }).blk.mustPrefetch 0 = true ∧
    ((after (.prefetchRequest 0) (peatDev { spilling := true, writing := [(0, eight)] })).queue 0).fetching = [.relink 0 eight false] ∧
    ((peatDev { spilling := true, fetching := [.read 0 0] }).blk.queue 0).fetching = [.read 0 0] := by decide +kernel

/-- A packet of 64 bytes of the egress store, for a port. -/
def egP (cells : List Cell) (credits : Nat) (head : List Byte) (pass : Option Pkt) : EgPkt :=
  { group := 0, tag := 0, queue := 0, len := 64, cells := cells, complete := true, credits := credits, fate := .port, head := head, pass := pass }

/-- Port 255 is up, with an egress FIFO and a packet of the store as given. -/
def egDev (x : Egf) (g : EgPkt) (up : Nat := 1) : State :=
  run { egf := [(255, x)], store := [(1, g)] } [put (LIN.LPORT_SPEED 7 31) LIN.LPORT_SPEED_UP up]

theorem test_witness_scheduler : fwd.blk.schRuns = true ∧ (dev .quiescent).blk.schRuns = false ∧
    NMap.get 0 (after (.schedulerDecision 7 0 []) fwd).td.sched.calPos 7 = 1 ∧
    448 < ((run {} [] { fab := { staging := [(7, List.replicate 449 {})] } }).blk.staging 7).length ∧
    ((egDev { coming := [2] } (egP [] 0 [] none)).blk.egf 255).coming = [2] ∧
    (egDev { coming := [2] } (egP [] 0 [] none)).blk.eg 2 = none ∧
    (egDev { coming := [1] } (egP [] 0 [] none)).blk.lportDown 255 = false ∧
    (egDev { coming := [1] } (egP [] 0 [] none) 0).blk.lportDown 255 = true ∧
    (after (.egfFirstWord 255) (egDev { coming := [1] } (egP [] 0 [] none) 0)).cnt48
      (LIN.DOWN_DROP_LO 7 31) = 1 ∧
    (egP [] 0 (List.replicate 400 0#8) (some {})).newLen > 64 + 256 ∧
    (egP [{}] 0 [] (some {})).newLen ≤ 64 + 256 ∧
    ((after (.egfFirstWord 255) (egDev { coming := [1] } (egP [{}] 0 [] (some {})))).egf 255).pkts.map
      (fun e => (e.id, e.started)) = [(1, false)] := by decide +kernel

/-- A packet in the FIFO: whole or not, started or not. -/
def egfPkt (whole started : Bool) (n : Nat) : EgfPkt := ⟨1, [⟨List.replicate n 0#8, 0⟩], whole, 0, 0, started, false⟩

theorem test_witness_transmit : ((run { egf := [(255, { pkts := [egfPkt true false 64] })] }).blk.egf 255).pkts = [egfPkt true false 64] ∧
    ((after (.egfTransmitStart 255) (run { egf := [(255, { pkts := [egfPkt true false 64] })] })).egf 255).pkts = [egfPkt true true 64] ∧
    flipsWf 32 [] = true ∧ (egfPkt false true 20).bytes.length < 0 + 32 ∧
    (after (.egfWordTransmit 255 []) (run { egf := [(255, { pkts := [egfPkt false true 20] })] })).cnt48 (LIN.EGF_UNDERRUN_LO 7 31) = 1 ∧
    0 + 32 < (egfPkt true true 64).bytes.length ∧ spansEnding (flipSpans [] 0 (egfPkt true true 64).spans) 0 32 = [] ∧
    ((after (.egfWordTransmit 255 []) (run { egf := [(255, { pkts := [egfPkt true true 64] })] })).egf 255).pkts.map (fun e => e.sent) = [32] ∧
    (egDev {} (egP [] 1 [] none)).blk.eg 1 = some (egP [] 1 [] none) ∧
    ((after (.wordCreditReturn 255) (run { egf := [(255, { owed := 3, tdCredits := 1 })] })).egf 255).tdCredits = 4 ∧
    (fwd.blk.egf 255).tdCredits = 32 * (fwd.blk.egf 255).share ∧ (fwd.blk.egf 255).pkts = [] := by decide +kernel

/-- Scheduler state on a device that forwards, eight VOQs configured. -/
def schDev (x : SchedSt) (rs : NMap Word := []) : State := run {} (put QMG.QSPLIT QMG.QSPLIT_VOQ_COUNT 8 :: rs) { sched := x }

theorem test_witness_exchange : fwd.blk.schLive = true ∧ (dev .forwarding [put SCH.SHP_CTL SCH.SHP_CTL_COMMIT 1]).blk.flag SCH.SHP_CTL SCH.SHP_CTL_COMMIT = true ∧
    (after .profileExchange (dev .forwarding [put SCH.SHP_CTL SCH.SHP_CTL_COMMIT 1])).fld SCH.SHP_CTL SCH.SHP_CTL_ACTIVE_SET = 1 ∧
    7 < (schDev {}).blk.voqCount ∧ (schDev {}).blk.voqCount ≤ 8 := by decide +kernel

/-- VOQ 7 holds a request and a balance, and a context of device 2047 waits, after a number of ticks. -/
def voqDev (n : Nat) : State := ticked n (schDev { voqs := [(7, { state := 2, balance := 1 })], contexts := [(reqKey 2047 1, ⟨0, 0, false, 0⟩)] })

theorem test_witness_voqs : ((voqDev 0).blk.voq 7).state ≠ 0 ∧ ((voqDev (2 ^ 20)).blk.voq 7).sentAt + (voqDev (2 ^ 20)).blk.refreshTicks ≤ (voqDev (2 ^ 20)).blk.ticks ∧
    (voqDev 0).blk.ticks < ((voqDev 0).blk.voq 7).sentAt + (voqDev 0).blk.refreshTicks ∧
    (NMap.get [] (after (.requestRefresh 7) (voqDev (2 ^ 20))).td.fab.control ((voqDev 0).blk.voqDev 7)).length = 1 ∧
    0 < ((voqDev 0).blk.voq 7).balance ∧ ((voqDev 0).blk.queue 7).depth = 0 ∧
    ((voqDev (2 ^ 20)).blk.voq 7).emptyAt.any (fun t => decide (t + (voqDev (2 ^ 20)).blk.balanceTicks ≤ 2 ^ 20)) = true ∧
    ((voqDev 0).blk.voq 7).emptyAt.any (fun t => decide (t + (voqDev 0).blk.balanceTicks ≤ 0)) = false ∧
    ((after (.balanceAge 7) (voqDev (2 ^ 20))).voq 7).balance = 0 ∧
    NMap.find? (voqDev 0).blk.td.sched.contexts (reqKey 2047 1) = some ⟨0, 0, false, 0⟩ ∧ 0 < 3 * (voqDev 0).blk.refreshTicks ∧
    (after (.contextExpiry 2047 1) (voqDev (2 ^ 20))).cnt48 SCH.CTX_EXPIRED_LO = 1 := by decide +kernel

def grantDev : State := schDev { grantRec := [(255, [1, 0, 0])], contexts := [(reqKey 3 1, ⟨255, 7, true, 0⟩)] }

theorem test_witness_grants : grantDev.blk.grantProf 255 ≠ 0 ∧ (grantDev.blk.grantNow 255).stopped = false ∧
    0 ≤ (grantDev.blk.grantNow 255).bucket ∧ grantDev.blk.portHeld 255 = false ∧ grantDev.blk.grantClass 255 = some 7 ∧
    grantDev.blk.grantTo 255 7 = some (reqKey 3 1, 1) ∧ fwd.blk.grantProf 0 = 0 ∧
    (after (.grantIssue 255) grantDev).cnt48 SCH.GRANTS_SENT_LO = 1 := by decide +kernel

/-- A device whose cell link runs, with the fabric side as given. -/
def fabDev (x : FabricSt := {}) (rs : NMap Word := []) : State := run {} (put KCL.CTL KCL.CTL_ENABLE 1 :: rs) { fab := x }
/-- Lane 95 in a state. -/
def laneDev (st : Nat) (l : FabLane := {}) (rate : Nat := 0) : State :=
  fabDev { lanes := [(95, l)] } [put2 (FAB.LANE_STS 11 7) FAB.LANE_STS_STATE st FAB.LANE_STS_RATE rate]
def good95 : CellRx := ⟨95, true, 2, 0⟩

theorem test_witness_ControlMessages : (fabDev).blk.fabLive = true ∧ (fabDev).blk.flag KCL.CTL KCL.CTL_ENABLE = true ∧
    (dev .forwarding [put KCL.CTL KCL.CTL_ENABLE 0]).blk.flag KCL.CTL KCL.CTL_ENABLE = false ∧
    (NMap.find? (after (.request none 2047 5 255 7 2) (fabDev)).td.sched.contexts (reqKey 2047 5)) = some ⟨255, 7, true, 0⟩ ∧
    (fabDev).blk.td.sched.contexts.length < 524288 ∧ ((after (.grant none 0 127) (schDev {} [put KCL.CTL KCL.CTL_ENABLE 1])).voq 0).balance = 127 * 1024 ∧
    (fabDev).blk.voqCount ≤ 0xFFFFF ∧ ((fabDev).blk.reseq (ctxOf 2047 7)).held = [] ∧
    ((after (.sync none 2047 7 9) (fabDev)).reseq (ctxOf 2047 7)).expect = 9 ∧
    (NMap.get [] (after (.syncReq none 2047 7) (fabDev)).td.fab.control 2047).length = 1 ∧
    ((fabDev { contexts := [(16383, { asked := some 3 })] }).blk.reseq 16383).synced = false ∧
    ((fabDev { contexts := [(16383, { asked := some 3 })] }).blk.reseq 16383).asked = some 3 ∧
    (NMap.get [] (after (.syncReqResend 16383) (later (10 ^ 9) (fabDev { contexts := [(16383, { asked := some 3 })] }))).td.fab.control 2047).length = 1 ∧
    (after (.syncReqResend 16383) (fabDev { contexts := [(16383, { asked := some 3 })] })).td.fab.control = [] ∧
    (after (.nosyncExpiry 1) (later (10 ^ 9) (fabDev { contexts := [(1, { held := [⟨{}, 0⟩, ⟨{}, 1⟩] })] }))).cnt48 KCL.RESEQ_NOSYNC_LO = 2 ∧
    (fabDev { contexts := [(1, { held := [⟨{}, 0⟩] })] }).blk.heldFor ⟨0, false, [⟨{}, 0⟩], [], false, none⟩ (16 * (fabDev).blk.resWait) = false ∧
    good95.wf = true ∧ (laneDev 5).blk.laneState 95 = 5 ∧ ((laneDev 5).blk.lane 95).rx = .start ∧ ((laneDev 5 { rx := .skip }).blk.lane 95).rx = .skip ∧
    ((after (.grant (some good95) 0 1) (laneDev 5)).lane 95).owed = 1 := by decide +kernel

/-- As many contexts as there can be, none of them the one asked for. -/
theorem test_witness_full_contexts : (List.replicate 524288 ((0 : Nat), (⟨0, 0, false, 0⟩ : ReqCtx))).length = 524288 ∧
    NMap.find? ([] : NMap ReqCtx) (reqKey 2047 5) = none := ⟨List.length_replicate .., rfl⟩
theorem test_witness_full_contexts_miss (n : Nat) : NMap.find? (List.replicate n ((0 : Nat), (⟨0, 0, false, 0⟩ : ReqCtx))) (reqKey 2047 5) = none := by
  induction n with
  | zero => rfl
  | succ n ih =>
    rw [List.replicate_succ, NMap.find?, ih]
    decide +kernel

/-- MAC port 127 is enabled and up, with its pause modes. -/
def macDev (rx tx : Nat) (xoff : Nat := 0) : State :=
  { blk := { (dev .forwarding [(LIN.MAC_CFG 7 15, fldPut LIN.MAC_CFG_ENABLE (fldPut LIN.MAC_CFG_MODE (fldPut LIN.MAC_CFG_BIND 0#32 1) 4) 1), put (LIN.MAC_STS 7 15) LIN.MAC_STS_XOFF xoff,
      (LIN.MAC_PAUSE 7 15, fldPut LIN.MAC_PAUSE_TX_CLASS_EN (fldPut LIN.MAC_PAUSE_TX_MODE (fldPut LIN.MAC_PAUSE_RX_MODE 0#32 rx) tx) 255)]).blk with
      line := { up := [LineObj.key (.mac 127)] } } }
/-- A pause frame of an opcode. -/
def pauseBytes (op : Byte) (lo : Byte) : List Byte := [0x01, 0x80, 0xC2, 0, 0, 0x01, 0, 0, 0, 0, 0, 0, 0x88, 0x08, op, lo, 0, 9] ++ List.replicate 46 0#8

theorem test_witness_PauseFrames : (macDev 1 0).blk.isMacControl 127 (pauseBytes 0 1) = true ∧ fwd.blk.isMacControl 0 [] = false ∧
    (macDev 1 0).blk.lineLive = true ∧ (macDev 1 0).blk.macEn 127 = true ∧ (macDev 1 0).blk.isUp (.mac 127) = true ∧
    (macDev 1 0).blk.fld (macPause 127) LIN.MAC_PAUSE_RX_MODE = 1 ∧ beNat (bytesAt (pauseBytes 0 1) 14 2) = 1 ∧
    NMap.get 0 (after (.macControlFrame 127 (pauseBytes 0 1)) (macDev 1 0)).td.sched.pauses (16 * 127 + 8) =
      (macDev 1 0).blk.quantaNs 127 9 ∧ 0 < (macDev 1 0).blk.quantaNs 127 9 ∧
    (macDev 2 0).blk.fld (macPause 127) LIN.MAC_PAUSE_RX_MODE = 2 ∧ beNat (bytesAt (pauseBytes 1 1) 14 2) = 0x0101 ∧
    (after (.macControlFrame 127 (pauseBytes 1 1)) (macDev 2 0)).cnt48 (LIN.RX_PFC_LO 7 15) = 1 ∧
    NMap.get 0 (after (.pauseExpiry 127 8) (later 5 (schDev { pauses := [(16 * 127 + 8, 5)] }))).td.sched.pauses (16 * 127 + 8) = 0 ∧
    ((macDev 0 1 255).blk.txClasses 127).contains 8 = true ∧ ((macDev 0 2 255).blk.txClasses 127).contains 7 = true ∧
    (macDev 0 2 255).blk.fld (macSts 127) LIN.MAC_STS_XOFF &&& 2 ^ 7 ≠ 0 ∧
    (after (.pauseExpiry 127 8) (later 4 (schDev { pauses := [(16 * 127 + 8, 5)] }))).td.sched.pauses = [(16 * 127 + 8, 5)] ∧
    (after (.pfcResend 127 7) (later (10 ^ 9) (macDev 0 2 255))).out.length = 1 := by decide +kernel

theorem test_witness_lane_training : (laneDev 2).blk.laneState 95 = 2 ∧ (laneDev 2).blk.groupState (8 + 95 / 8) = 0 ∧
    (after (.laneTrainingResult 95 .locked) (laneDev 2)).laneState 95 = 3 ∧ (laneDev 2).blk.laneRate 95 = 0 ∧
    (after (.laneTrainingResult 95 .failed) (laneDev 2)).laneState 95 = 6 ∧ (laneDev 2 {} 2).blk.laneRate 95 = 2 ∧
    topRate (bitOff ((laneDev 2 { mask := 7 } 2).blk.lane 95).mask ((laneDev 2 {} 2).blk.laneRate 95) &&&
      (2 ^ ((laneDev 2).blk.fld (laneCfg 95) FAB.LANE_CFG_MAX_RATE + 1) - 1)) = some 1 ∧
    (after (.laneTrainingResult 95 .failed) (laneDev 2 { mask := 7 } 2)).laneRate 95 = 1 ∧ (laneDev 0).blk.laneState 95 ≠ 2 := by decide +kernel

/-- A codeword of zeros whose first symbols differ on arrival. -/
def cw (bad : Nat) : Codeword := ⟨0, ((List.finRange 544).take bad).map (fun k => (k, 1#10))⟩

theorem test_witness_codewords : (cw 0).good = true ∧ (cw 15).good = true ∧ (cw 16).good = false ∧
    ((laneDev 2 { goodRun := 2 }).blk.lane 95).locked = false ∧ ((laneDev 2 { goodRun := 3 }).blk.lane 95).goodRun = 3 ∧
    (laneDev 5 { locked := true, badRun := 6 }).blk.laneState 95 = 5 ∧ ((laneDev 5 { locked := true, badRun := 7 }).blk.lane 95).badRun = 7 := by
  decide +kernel

theorem test_witness_lane_states : (laneDev 3).blk.helloDue 95 = true ∧ (laneDev 4 { said := some (0, 0) }).blk.helloDue 95 = false ∧
    (after (.helloSend 95) (laneDev 3)).out.length = 1 ∧ ((after (.helloSend 95) (laneDev 4)).lane 95).told = true ∧
    (later 10000000 (laneDev 3)).blk.helloMissed 95 = true ∧ (laneDev 3).blk.helloMissed 95 = false ∧
    (ticked (2 ^ 20) (laneDev 5)).blk.helloMissed 95 = true ∧ (after (.helloTimeout 95) (later 10000000 (laneDev 3))).laneState 95 = 6 ∧
    (after (.helloTimeout 95) (ticked (2 ^ 20) (laneDev 5))).fld (laneSts 95) FAB.LANE_STS_CAUSE = 3 ∧
    (after (.probationEnd 95) (later 1000000 (laneDev 4 { farOk := true }))).laneState 95 = 5 ∧
    (after (.probationEnd 95) (later 999999 (laneDev 4 { farOk := true }))).laneState 95 = 4 ∧
    (after (.probationEnd 95) (later 9999999 (laneDev 4))).laneState 95 = 4 ∧ (after (.probationEnd 95) (later 10000000 (laneDev 4))).laneState 95 = 6 := by
  decide +kernel

theorem test_witness_lane_ends : (laneDev 6).blk.groupState (8 + 95 / 8) = 0 ∧ (after (.laneRetry 95) (later (10 ^ 12) (laneDev 6))).laneState 95 = 2 ∧
    (after (.laneRetry 95) (laneDev 6)).laneState 95 = 6 ∧
    ((after (.laneJoinSpray 95) (ticked 1 (laneDev 5))).lane 95).spraying = true ∧ ((after (.laneJoinSpray 95) (laneDev 5)).lane 95).spraying = false ∧
    (fabDev {} [put (FAB.CTL 11) FAB.CTL_DRAIN 1]).blk.flag (FAB.CTL 11) FAB.CTL_DRAIN = true ∧
    (fabDev {} [put (FAB.CTL 11) FAB.CTL_DRAIN 1]).blk.flag (FAB.STS 11) FAB.STS_DRAINED = false ∧
    (after (.drained 11) (fabDev {} [put (FAB.CTL 11) FAB.CTL_DRAIN 1])).flag (FAB.STS 11) FAB.STS_DRAINED = true ∧
    ((laneDev 5 { tx := [.control 0 []] }).blk.lane (8 * 11 + 7)).tx ≠ [] := by decide +kernel

theorem test_witness_FabricCells : good95.wf = true ∧ goodHello.wf = true ∧ ({} : FCell).wf = true ∧ good95.crcOk = true ∧
    3 ≤ (laneDev 3).blk.laneState 95 ∧ (laneDev 5).blk.laneState 95 ≤ 5 ∧ goodHello.version ≠ 1 ∧
    (after (.hello good95 goodHello) (laneDev 5)).cnt48 KCL.BAD_TYPE_LO = 1 ∧
    (after (.hello good95 { goodHello with version := 1, id := 9 }) (laneDev 3)).fld (FAB.LANE_PARTNER 11 7) FAB.LANE_PARTNER_ID = 9 ∧
    ((after (.reach good95 (BitVec.ofNat 2048 (2 ^ 2047))) (laneDev 5)).lane 95).reach = 2 ^ 2047 ∧
    (after (.idle good95 0) (laneDev 5)).laneCredits 95 = 2 ∧ (after (.idle good95 5) (laneDev 5)).cnt48 KCL.BAD_TYPE_LO = 1 ∧
    (5 : Nat) ≤ (15#4).toNat ∧ (laneDev 5).blk.devId ≠ 2047 ∧ (after (.dataCell good95 { dest := 2047 }) (laneDev 5)).cnt48 KCL.MISROUTED_LO = 1 := by
  decide +kernel

/-- Lane 95 is UP and spraying and reaches device 2047. -/
def reachDev (x : FabricSt := {}) : State :=
  fabDev { x with lanes := [(95, { reach := 2 ^ 2047, spraying := true })] }
    [put2 (FAB.LANE_STS 11 7) FAB.LANE_STS_STATE 5 FAB.LANE_STS_CREDITS 10]

theorem test_witness_spray : (reachDev).blk.fabricSends = true ∧ (reachDev).blk.bestLane 2047 = some 95 ∧
    ((after .spray (reachDev { again := [.data { dest := 2047 }] })).lane 95).tx = [.data { dest := 2047 }] ∧
    (reachDev { staging := [(7, [{ dest := 2047 }])] }).blk.reachable 2047 = true ∧ (reachDev).blk.reachable 2046 = false ∧
    (reachDev { staging := [(7, [{ dest := 2046, eop := true }])] }).blk.strandedLong 7 = false ∧
    (after (.unreachDrop 7) (later 10000 (reachDev { staging := [(7, [{ dest := 2046, eop := true }])], stranded := [(7, 0)] }))).cnt48
      KCL.UNREACH_DROP_LO = 1 ∧
    (reachDev { control := [(2047, [(1, 0)])] }).blk.controlDue 2047 = false ∧
    (after (.controlCellSend 2047) (later 64 (reachDev { control := [(2047, [(1, 0)])] }))).cnt48 KCL.CTRL_SENT_LO = 1 ∧
    (fabDev { contexts := [(16383, { synced := true, held := [⟨{ seq := 4 }, 0⟩] })] }).blk.heldFor
      ((fabDev { contexts := [(16383, { synced := true, held := [⟨{ seq := 4 }, 0⟩] })] }).blk.reseq 16383) 1 = false ∧
    (after (.reseqTimeout 16383) (later (10 ^ 9) (fabDev { contexts := [(16383, { synced := true, held := [⟨{ seq := 4 }, 0⟩] })] }))).cnt48
      KCL.RESEQ_LOSS_LO = 1 := by
  decide +kernel

/-- Line lane 7 of slice 7 in a state. -/
def lineDev (st : Nat) (x : LineLane := {}) : State :=
  { blk := { (dev .forwarding [put (LIN.LANE_STS 7 7) LIN.LANE_STS_STATE st]).blk with line := { lanes := [(63, x)] } } }
def phyDev : State := dev .forwarding [put (FLX.PHY_CFG 7 7) FLX.PHY_CFG_ENABLE 1, put (FLX.GRP_CFG 7) FLX.GRP_CFG_ENABLE 1,
  put (FLX.GRP_CTL 7) FLX.GRP_CTL_CAL_REQ 1, ((LineObj.group 7).reg, 1#32)]
/-- A group whose skew has been within its bound since time 0. -/
def skewed (ns : Nat) : State := later ns { blk := { phyDev.blk with line := { skewOk := [(7, 0)] } } }
def otn63 : State := dev .forwarding [put (OTN.CFG 63) OTN.CFG_ENABLE 1]

theorem test_witness_line_lanes : (lineDev 1).blk.lstate 7 7 = 1 ∧ (after (.cdrLock 7 7) (lineDev 1)).lstate 7 7 = 2 ∧
    (lineDev 2).blk.flag (LIN.LANE_STS 7 7) LIN.LANE_STS_LOS = false ∧ (after (.lockLossRetrain 7 7) (later 20000001 (lineDev 2 { lolAt := some 0 }))).lstate 7 7 = 3 ∧
    (after (.lockLossRetrain 7 7) (later 20000000 (lineDev 2 { lolAt := some 0 }))).lstate 7 7 = 2 ∧
    (lineDev 3).blk.flag (LIN.LANE_STS 7 7) LIN.LANE_STS_LOS = false ∧
    (after (.retrainAttemptEnd 7 7 true true) (lineDev 3)).lstate 7 7 = 3 ∧ (after (.retrainAttemptEnd 7 7 true false) (lineDev 3)).lstate 7 7 = 2 ∧
    ((after (.retrainAttemptEnd 7 7 false false) (lineDev 3 { attempts := 1 })).lineLane 7 7).attempts = 2 ∧
    (after (.retrainAttemptEnd 7 7 false false) (lineDev 3 { attempts := 2 })).lstate 7 7 = 4 ∧ (LineObj.lane 7 7).wf = true ∧
    (lineDev 2).blk.lstate 7 7 ≠ 0 ∧ (after (.defectChange (.lane 7 7) 0 true) (lineDev 2)).flag (LIN.LANE_STS 7 7) LIN.LANE_STS_LOS = true := by
  decide +kernel

def downMac : State := { blk := { (macDev 0 0).blk with line := {} } }

theorem test_witness_line_objects : (LineObj.mac 127).wf = true ∧ (macDev 0 0).blk.objEn (.mac 127) = true ∧ fwd.blk.objEn (.mac 127) = false ∧
    bitAt ((after (.defectChange (.mac 127) 15 true) (macDev 0 0)).raw (.mac 127)) 15 = true ∧ (macDev 0 0).blk.objDown (.mac 127) = false ∧
    (macDev 0 0).blk.clearLong (.mac 127) = false ∧ (later 10000000 (macDev 0 0)).blk.clearLong (.mac 127) = true ∧
    (after (.portUp (.mac 127)) (later 10000000 downMac)).isUp (.mac 127) = true ∧
    fwd.blk.objDown (.mac 127) = true ∧ (after .lineEvent (ticked 1 { blk := { fwd.blk with line := { changed := [(127, 1)] } } })).line.changed = [] ∧
    (after .lineEvent { blk := { fwd.blk with line := { changed := [(127, 1)] } } }).line.changed = [(127, 1)] ∧
    noFlexe.wf = true ∧ phyDev.blk.objEn (.phy 7 7) = true ∧ phyDev.blk.objEn (.group 7) = true ∧
    phyDev.blk.flag (FLX.GRP_CTL 7) FLX.GRP_CTL_CAL_REQ = true ∧
    NMap.find? (skewed 10000000).blk.line.skewOk 7 = some 0 ∧ NMap.get 0 phyDev.blk.line.calReqAt 7 + 10000000 ≤ 10000000 ∧
    bitAt ((after (.skewRecovery 7) (skewed 10000000)).raw (.group 7)) 0 = false ∧
    bitAt ((after (.skewRecovery 7) (skewed 9999999)).raw (.group 7)) 0 = true ∧
    (after (.calendarSwitch 7) phyDev).fld (FLX.GRP_CTL 7) FLX.GRP_CTL_ACTIVE_CAL = 1 ∧
    (after (.calTimeout 7) (later 10000000 phyDev)).flag (FLX.GRP_CTL 7) FLX.GRP_CTL_CAL_TIMEOUT = true := by decide +kernel

theorem test_witness_otn : (withOh noOh).wf = true ∧ otn63.blk.otnBase 63 = 63 ∧ otn63.blk.objEn (.otn 63) = true ∧
    otn63.blk.lineLive = true ∧ (otn63.blk.otnCtx 63).gfp = 0 ∧ ((after (.gfpFrame 63 0 .idle) otn63).otnCtx 63).gfp = 1 ∧
    ((after (.gfpFrame 63 1 .other) { otn63 with blk := { otn63.blk with line := { otn := [(63, { gfp := 1 })] } } }).otnCtx 63).gfp = 0 ∧
    ((after (.gfpFrame 63 2 .other) { otn63 with blk := { otn63.blk with line := { otn := [(63, { gfp := 2 })] } } }).otnCtx 63).gfp = 0 ∧
    bitAt ((after (.otnLof 63 true) (later 3000000 otn63)).raw (.otn 63)) 5 = true ∧
    bitAt ((after (.otnLof 63 true) (later 2999999 otn63)).raw (.otn 63)) 5 = false ∧ (fwd.blk.objEn (.otn (fwd.blk.otnBase 63))) = false := by decide +kernel

def cageDev (m : Mode) : State := dev m [put (LIN.CAGE_CFG 7 7) LIN.CAGE_CFG_ENABLE 1]

theorem test_witness_cages : (CagePoll.wf ⟨true, false, true, 5, [(0, 8)], false⟩) = true ∧ (cageDev .forwarding).blk.flag (LIN.CAGE_CFG 7 7) LIN.CAGE_CFG_ENABLE = true ∧
    (cageDev .forwarding).blk.lineLive = true ∧ (cageDev .forwarding).blk.pollDue 7 7 = true ∧
    ({ (cageDev .forwarding).blk with line := { polledAt := [(63, 0)] } } : Block).pollDue 7 7 = false ∧
    fldGet LIN.CAGE_STS_RESULT ((cageDev .handover).blk.regNow .host (LIN.CAGE_STS 7 7)) = 5 ∧
    (after (.cagePoll 7 7 ⟨false, false, true, 5, [], false⟩) (cageDev .forwarding)).reg (LIN.CAGE_STS 7 7) = 0#32 ∧
    (after (.cagePoll 7 7 ⟨true, false, false, 5, [], false⟩) (cageDev .forwarding)).flag (LIN.CAGE_STS 7 7) LIN.CAGE_STS_PRESENT = true ∧
    fwd.blk.flag (LIN.CAGE_CFG 7 7) LIN.CAGE_CFG_ENABLE = false := by decide +kernel

/-- Check context 15 in a state, with a mode, a period and a length. -/
def chkDev (st mode period : Nat) (len : Nat := 32) : State :=
  dev .forwarding [put (CHK.CTX_STS 15) CHK.CTX_STS_STATE st, put2 (CHK.CTX_CTL 15) CHK.CTX_CTL_MODE mode CHK.CTX_CTL_PERIOD_TICKS period,
    (CHK.LENGTH_LO 15, BitVec.ofNat 32 len)]

theorem test_witness_CheckRuns : (chkDev 1 0 0).blk.chkState 15 = 1 ∧ (chkDev 1 0 0).blk.chkMode 15 ≠ 1 ∧ (chkDev 1 1 0).blk.chkMode 15 = 1 ∧
    (after (.checkRunEnd 15 [] false) (chkDev 1 0 0)).chkState 15 = 3 ∧
    (after (.checkRunEnd 15 [] true) (chkDev 1 1 0)).fld (CHK.CTX_STS 15) CHK.CTX_STS_OUTCOME = 3 ∧ (chkDev 3 0 1).blk.chkState 15 = 3 ∧
    (chkDev 3 0 1).blk.fld (CHK.CTX_CTL 15) CHK.CTX_CTL_PERIOD_TICKS = 1 ∧ (chkDev 3 0 0).blk.fld (CHK.CTX_CTL 15) CHK.CTX_CTL_PERIOD_TICKS = 0 ∧
    ({ (chkDev 3 0 1).blk with time := { fired := 1 } } : Block).chkRefuses 15 false = false ∧
    ({ (chkDev 3 0 1 31).blk with time := { fired := 1 } } : Block).chkRefuses 15 false = true ∧
    (after (.checkPeriodRestart 15) { blk := { (chkDev 3 0 1).blk with time := { fired := 1 } } }).chkState 15 = 1 ∧
    (after (.checkPeriodRestart 15) { blk := { (chkDev 3 0 1 31).blk with time := { fired := 1 } } }).chkState 15 = 5 ∧
    (after .scrubWriteback { blk := { (fwd).blk with chk := { wb := [(0, 0), (1, 1)] } } }).chk.wb = [(1, 1)] := by decide +kernel

/-- Logical channels 0 and 1 are mapped to physical ones in states, with channel state beside them. -/
def d5Dev (st : Nat) (c : D5Chan := {}) (rs : NMap Word := []) (d : D5St := {}) : State :=
  { blk := { (dev .forwarding ([put2 (D5M.MAP 0) D5M.MAP_VALID 1 D5M.MAP_PHYSICAL 16, put2 (D5C.STS 16) D5C.STS_STATE st D5C.STS_LOGICAL 0] ++ rs)).blk with
      d5 := { d with chans := [(16, c)] } } }

theorem test_witness_d5_accesses : (d5Dev d5Active).blk.d5Member 0 = some 0 ∧ 0 < (d5Dev d5Active).blk.tableSize ∧
    (d5Dev d5Active).blk.d5Phys 0 = some 16 ∧ (d5Dev d5Active).blk.d5Queued 16 (d5Local (d5Dev d5Active).blk.d5TB 0 / 64) = false ∧
    (after (.ddr5Read 0 [16] .corrected .clean) (d5Dev d5Active)).cnt48 (D5C.ECC_CORR_LO 16) = 1 ∧
    (after (.ddr5Read 0 [16] .corrected .clean) (d5Dev d5Active)).cnt48 (D5C.CA_PAR_LO 16) = 1 ∧
    (d5Dev d5Active { wqA := [d5Local (d5Dev d5Active).blk.d5TB 0 / 64] }).blk.d5Queued 16 (d5Local (d5Dev d5Active).blk.d5TB 0 / 64) = true ∧
    (d5Dev d5Active).blk.tableSize ≤ 2 ^ 40 - 1 ∧ ([⟨16, true⟩] : List LinkErr).all (fun e => e.chan < 17) = true ∧
    64 ≤ fwd.blk.tableSize ∧ fwd.blk.d5Member 0 = none ∧ (d5Dev d5Active).blk.d5Phys 1 ≠ some 16 := by decide +kernel

theorem test_witness_d5_refresh : ((d5Dev d5Active { slot := 1, crossing := some true }).blk.d5Chan 16).slot % 2 = 1 ∧
    ((after (.refreshSlot 16) (d5Dev d5Active)).d5Chan 16).slot = 1 ∧ (d5Dev d5Active {} [put (PWR.GSTS 44) PWR.GSTS_STATE 3]).blk.d5Sleeps 16 = true ∧
    ((d5Dev d5Active).blk.d5Chan 16).suspended = false ∧ (d5Dev d5Active).blk.wqLevel 16 ≤ (d5Dev d5Active).blk.fld (D5C.WQ_CFG 16) D5C.WQ_CFG_WQ_HIGH ∧
    (d5Dev d5Active).blk.d5Sleeps 16 = false ∧ (after (.mr4Read 16 5 true false) (d5Dev d5Active)).fld (D5C.TEMP 16) D5C.TEMP_MR4 = 5 ∧
    ((after (.mr4Read 16 5 true false) (d5Dev d5Active)).d5Chan 16).crossing = some true ∧
    (after (.hotCrossing 16) (later 1950 (d5Dev d5Active { slot := 1, crossing := some true }))).hot 16 = true ∧
    (d5Dev d5Active { slot := 1 }).blk.slotDue 16 = false ∧ (d5Dev d5Active).blk.slotDue 16 = true ∧
    (d5Dev d5Active { mr4Tick := some 0 }).blk.ticks = 0 ∧
    ((d5Dev d5Active { slot := 1, crossing := some false }).blk.d5Chan 16).crossing = some false ∧
    ((after (.coolCrossing 16) (later 1950 (d5Dev d5Active { slot := 1, crossing := some false }))).d5Chan 16).crossing = none := by decide +kernel

theorem test_witness_d5_holds : (d5Dev d5Active).blk.d5State 16 ∈ [d5Active, d5Source, d5Target, d5Remirror] ∧
    (after (.periodicCalibration 16 false) (d5Dev d5Active)).d5State 16 = d5Hold ∧ (d5Dev d5Spare).blk.d5State 16 ∉ [d5Active, d5Source, d5Target, d5Remirror] ∧
    (d5Dev d5Active).blk.fld (D5C.WQ_CFG 16) D5C.WQ_CFG_ERR_LIMIT < ((d5Dev d5Active { errTick := 256 }).blk.d5Chan 16).errTick ∧
    (after (.hold 16) (d5Dev d5Active { errTick := 256 })).d5State 16 = d5Hold ∧ (d5Dev d5Hold { before := 2 }).blk.d5State 16 = d5Hold ∧
    (after (.holdEnd 16 true) (d5Dev d5Hold { before := 2, marked := [1] })).d5State 16 = d5Active ∧
    (d5Dev d5Remirror {} [] { remirror := [(0, 10 ^ 15)] }).blk.d5.remirror = [(0, 10 ^ 15)] ∧
    ((d5Dev d5Remirror).blk.d5Cap - (d5Dev d5Remirror).blk.d5TB) / 64 ≤ copyUnits (10 ^ 15) ∧
    copyUnits 0 < ((d5Dev d5Remirror).blk.d5Cap - (d5Dev d5Remirror).blk.d5TB) / 64 ∧
    (after (.remirrorEnd 0) (d5Dev d5Remirror {} [] { remirror := [(0, 10 ^ 15)] })).d5State 16 = d5Active ∧
    (d5Dev d5Training { resetHigh := true } [put (D5C.CTL 16) D5C.CTL_RETRAIN 1]).blk.flag (D5C.CTL 16) D5C.CTL_RETRAIN = true ∧
    (after (.channelTrainingEnd 16 ⟨true, 0, 0, 0, 0⟩) (d5Dev d5Training { resetHigh := true } [put (D5C.CTL 16) D5C.CTL_RETRAIN 1])).d5State 16 = d5Spare := by decide +kernel

/-- Channel 16 is being evacuated to channel 15. -/
def evacDev (age : Nat) (copied : Option Nat) : State := d5Dev d5Source {} [] { evac := some ⟨16, 15, 8, age, copied⟩ }

theorem test_witness_d5_evacuation : (evacDev 0 none).blk.d5State 16 ≠ d5Hold ∧ copyUnits 0 < (evacDev 0 none).blk.d5Cap / 64 ∧
    (evacDev 0 none).blk.d5Cap / 64 ≤ copyUnits (10 ^ 15) ∧
    (after .evacCopyEnd (evacDev (10 ^ 15) none)).d5.evac = some ⟨16, 15, 8, 10 ^ 15, some 0⟩ ∧
    (after .evacCopyEnd (evacDev 0 none)).d5.evac = some ⟨16, 15, 8, 0, none⟩ ∧
    (evacDev 0 (some 0)).blk.d5Logical 16 = some 0 ∧ Evac.moves ⟨16, 15, 8, 0, some 0⟩ 0 = false ∧ Evac.moves ⟨16, 15, 8, 0, some 0⟩ 1 = true ∧
    (after .evacMapChange (ticked 1 (evacDev 0 (some 0)))).d5Phys 0 = some 15 ∧
    (after .evacMapChange (ticked 1 (evacDev 0 (some 0)))).d5State 15 = d5Active ∧
    (after .evacMapChange (ticked 1 (evacDev 0 (some 0)))).fld D5M.EVAC_STS D5M.EVAC_STS_RESULT = 2 ∧
    (after .evacMapChange (evacDev 0 (some 0))).fld D5M.EVAC_STS D5M.EVAC_STS_RESULT = 0 := by decide +kernel

/-- A device with the time state given. -/
def timeDev (x : TimeSt) (rs : NMap Word := []) : State := { blk := { (dev .forwarding rs).blk with time := x } }

theorem test_witness_TimeEvents : (timeDev { sinceEdge := some 899999999 }).blk.time.sinceEdge = some 899999999 ∧
    (after .ppsEdge (timeDev { sinceEdge := some 899999999 })).cnt48 TMB.PPS_REJECTED_LO = 1 ∧
    (timeDev { sinceEdge := some 900000000, armedAt := some 7 }).blk.time.armedAt ≠ none ∧ fwd.blk.time.sinceEdge = none ∧
    (after .ppsEdge (timeDev { sinceEdge := some 900000000, armedAt := some 7 })).time.todLoaded = true ∧
    (after .todTimeout (timeDev { armedAt := some 7, elapsed := 2000000007 })).flag TMB.STS TMB.STS_TOD_TIMEOUT = true ∧
    (after .todTimeout (timeDev { armedAt := some 7, elapsed := 2000000006 })).flag TMB.STS TMB.STS_TOD_TIMEOUT = false ∧
    (timeDev {} [put TMB.STS TMB.STS_STATE stAcquire]).blk.servo = stAcquire ∧ (timeDev {} [put TMB.STS TMB.STS_STATE stLocked]).blk.servo = stLocked ∧
    (after .holdoverEntry (timeDev { sinceEdge := some 2500000000 } [put TMB.STS TMB.STS_STATE stLocked])).servo = stHoldover ∧
    (after .holdoverEntry (timeDev { sinceEdge := some 2499999999 } [put TMB.STS TMB.STS_STATE stLocked])).servo = stLocked ∧ fwd.blk.synceCause 1 = true := by decide +kernel

/-- SyncE output 1 has a good source; its squelch bit stands, and its last cause cleared at 0. -/
def synceDev : State := { blk := { (dev .forwarding [put (TMB.SYNCE_CFG 1) TMB.SYNCE_CFG_ENABLE 1, put (LIN.LANE_STS 0 0) LIN.LANE_STS_STATE 2,
    put TMB.SYNCE_STS ⟨1, 1⟩ 1]).blk with line := { synceClear := [(1, 0)] } } }

theorem test_witness_squelch_and_slew : bitAt ((after (.squelchLift 1) (later 9999999 synceDev)).reg TMB.SYNCE_STS).toNat 1 = true ∧
    bitAt ((after (.squelchLift 1) (later 10000000 synceDev)).reg TMB.SYNCE_STS).toNat 1 = false ∧ NMap.find? synceDev.blk.line.synceClear 1 = some 0 ∧
    (dev .forwarding [put (TMB.SYNCE_CFG 1) TMB.SYNCE_CFG_ENABLE 1, put (LIN.LANE_STS 0 0) LIN.LANE_STS_STATE 2]).blk.synceCause 1 = false ∧
    (timeDev { slewLeft := 100000000 }).blk.time.slewLeft ≠ 0 ∧
    ceilDiv (100000001 : Nat) (10 ^ 8) < (timeDev { slewLeft := 100000001 }).blk.cyclesFor (timeDev { slewLeft := 100000001 }).blk.toBoundary ∧
    (after .slewEnd (timeDev { slewLeft := 100000001 })).time.slewLeft = 0 := by decide +kernel

theorem test_witness_HostInterfaceEvents : 0x80 ≤ (0x80#10).toNat ∧ fwd.blk.flag (HDR.ERR_INFO 1) HDR.ERR_INFO_VALID = false ∧
    (after (.tdAccessTimeout .host 0x80 0 false) fwd).fld (HDR.ERR_INFO 1) HDR.ERR_INFO_CODE = 7 ∧
    (dev .forwarding [(HDR.ERR_INFO 1, 0x80000000#32)]).blk.flag (HDR.ERR_INFO 1) HDR.ERR_INFO_VALID = true ∧
    State.reset.blk.reach .host 2 0x100 = .silent ∧ fwd.blk.reach .host 2 0x100 = .answers ∧ coreOn fwd.blk.mode.mode = true ∧
    fwd.blk.mode.mode ≠ .bringUp ∧ (after (.windowRead 4 0 true) fwd).flag WIN.STS WIN.STS_UNCORR = true ∧ fwd.blk.windowAddr 1 % 32 ≠ 0 ∧
    ([none] : List (Option Byte)).length % 32 ≠ 0 ∧ (fwd.blk.ring 68).unreported = 0 ∧ (fwd.blk.windowSeen 4 0).2 = false ∧ fwd.blk.windowAddr 0 % 32 = 0 ∧ none ∉ (List.replicate 32 (some 0#8)) ∧
    (dev .forwarding [put (PCI.RING_CFG 68) PCI.RING_CFG_INT_EN 1]).blk.flag (PCI.RING_CFG 68) PCI.RING_CFG_INT_EN = true ∧
    (after (.ringCoalesce 68) { blk := { (dev .forwarding [put (PCI.RING_CFG 68) PCI.RING_CFG_INT_EN 1]).blk with
      rings := [(68, { unreported := 1, firstAt := 0 })], time := { elapsed := 10 ^ 9 } } }).ring 68 = { request := true } ∧
    fwd.blk.time.elapsed < 7 + 1000 * fwd.blk.fld (PCI.RING_COAL 68) PCI.RING_COAL_TIME := by decide +kernel

/-- The first 12 partition units count, so that the cache has a quad. -/
def cntDev (x : CntSt := {}) (rs : NMap Word := []) : State :=
  { blk := { (dev .forwarding ([(LKP.PART_ACTIVE_0 0, 0xFFFFFF#32)] ++ rs)).blk with cnt := x } }

theorem test_witness_CounterEngine : (dev .forwarding ((upTo 12).map (fun k => (LKP.PART_ACTIVE_0 k, 0#32)))).blk.noCache = true ∧ cntDev.blk.noCache = false ∧ 0 < (1#20).toNat ∧
    (after (.counterSweep 1) cntDev).cnt.sweep = 1 ∧ (cntDev { queue := [⟨0, 1, 2, false⟩] }).blk.cnt.queue = [⟨0, 1, 2, false⟩] ∧
    (after .counterWriteBack (cntDev { queue := [⟨0, 1, 2, false⟩] })).cnt48 CNT.C_WRITEBACKS_LO = 1 ∧
    (after .counterWriteBack (cntDev { queue := [⟨0, 1, 2, false⟩], wbFrom := 1 })).cnt.queue = [⟨0, 1, 2, false⟩] ∧
    (cntDev {} [put CNT.CTL CNT.CTL_ENABLE 1]).blk.flag CNT.CTL CNT.CTL_ENABLE = true ∧
    (cntDev {} [put CNT.SNAP_STS CNT.SNAP_STS_STATE 1]).blk.fld CNT.SNAP_STS CNT.SNAP_STS_STATE = 1 ∧
    (after .snapshotBuildEnd (cntDev {} [put CNT.SNAP_STS CNT.SNAP_STS_STATE 1])).fld CNT.SNAP_STS CNT.SNAP_STS_STATE = 3 := by decide +kernel

/-- A snapshot of two pairs exports, and the export ring has a buffer of one record. -/
def exportDev : State :=
  { blk := { (dev .forwarding [put CNT.SNAP_STS CNT.SNAP_STS_STATE 2, put (PCI.RING_CFG 66) PCI.RING_CFG_ENABLE 1]).blk with
      rings := [(66, { owned := 1 })]
      cnt := { snap := { count := 2 } }
      host := { mem := [(1, 1#8), (8, 16#8), (15, 0x80#8)] } } }

theorem test_witness_export : exportDev.blk.mode.mode ≠ .faultHold ∧ exportDev.blk.fld CNT.SNAP_STS CNT.SNAP_STS_STATE = 2 ∧
    exportDev.blk.ringRuns 66 = true ∧ 0 < exportDev.blk.ringFree 66 ∧ ringAlive .forwarding 66 = true ∧ exportDev.blk.ringSize 66 ≤ 2 ^ 16 ∧
    (match exportDev.blk.fetchHead 66 with
      | .ok d => leAt d 8 3 % 16 == 0 && !exportDev.blk.host.fails (leAt d 0 8) (16 * min (leAt d 8 3 / 16) 2)
      | .err _ => false) = true ∧
    (after .counterExport exportDev).cnt.snap.next = 1 := by decide +kernel

/-- Cascade link 3 is up with all lanes, the device in a role, with the cushion's state. -/
def cscDev (role : Nat) (x : CscSt := {}) (rs : NMap Word := []) (as : List Anchor := []) : State :=
  { blk := { (dev .forwarding ([(CSC.LINK_STS 3, fldPut CSC.LINK_STS_UP (fldPut CSC.LINK_STS_LANES_UP 0#32 3) 1)] ++ rs)).blk with
      mode := { (dev .forwarding).blk.mode with role := role }, csc := x, anchors := as } }
def anch (st : AnchorState) : Anchor := ⟨5, 0, 5, true, 0, 9, st, 0, 8, false⟩

/-- A device that has joined 2 ms ago, or a little less, ELIGIBLE or not. -/
def joining (el ns : Nat) : State := later ns (cscDev 0 { joinAt := some 3 } [put2 CSC.CTL CSC.CTL_JOIN 1 CSC.CTL_ELIGIBLE el])

theorem test_witness_election : (joining 1 2000003).blk.flag CSC.CTL CSC.CTL_JOIN = true ∧ (joining 1 2000003).blk.csc.masterPos = none ∧
    (joining 1 2000003).blk.csc.joinAt = some 3 ∧ (joining 1 2000003).blk.lowerEligible = false ∧ (joining 1 2000003).blk.mode.role ≠ roleMaster ∧
    (after .masterElection (joining 1 2000003)).mode.role = roleMaster ∧ (after .masterElection (joining 0 2000003)).mode.role = roleMember ∧
    (after .masterElection (joining 1 2000002)).mode.role = 0 ∧ fwd.blk.csc.joinAt = none ∧
    (cscDev 0 { joinAt := some 3 }).blk.flag CSC.CTL CSC.CTL_JOIN = false ∧ (cscDev 0 { masterPos := some 1, joinAt := some 3 }).blk.csc.masterPos.isSome = true := by
  decide +kernel

theorem test_witness_master_loss : (cscDev roleMember { masterPos := some 3 }).blk.csc.masterPos = some 3 ∧
    (after .masterLoss (later 1000000 (cscDev roleMember { masterPos := some 3 }))).csc.masterPos = none ∧
    (after .masterLoss (later 999999 (cscDev roleMember { masterPos := some 3 }))).csc.masterPos = some 3 ∧
    (after .masterLoss (later 10000000001 (cscDev roleMember { masterPos := some 3, link3 := { masterAt := 10000000001, pausedFrom := some 0 } }))).csc.masterPos
      = none ∧
    (after .masterLoss (later 10000000000 (cscDev roleMember { masterPos := some 3, link3 := { masterAt := 10000000000, pausedFrom := some 0 } }))).csc.masterPos
      = some 3 := by decide +kernel

/-- Link 3 holds a message not acknowledged, sent at 1 ns. -/
def unacked (ns : Nat) : State := later ns (cscDev 2 { link3 := { window := [⟨0, 0, .accept 9, 0, 1⟩] } })

theorem test_witness_cushion : (cscDev 2).blk.cascadeOn = true ∧ (cscDev 2).blk.fld (CSC.LINK_STS 3) CSC.LINK_STS_LANES_UP ≠ 0 ∧
    ((after (.cascadeHelloSend 3) (cscDev 2 { link3 := { nextOut := 65535 } })).csc.link 3).nextOut = 0 ∧
    ((after (.cascadeHelloSend 3) (later 10000 (cscDev 2 { link3 := { helloAt := some 0 } }))).csc.link 3).helloAt = some 10000 ∧
    ((after (.cascadeHelloSend 3) (later 9999 (cscDev 2 { link3 := { helloAt := some 0 } }))).csc.link 3).helloAt = some 0 ∧
    (after (.cascadeResend 3) (unacked 4001)).cnt48 CSC.RETRANSMIT_LO = 1 ∧ (after (.cascadeResend 3) (unacked 4000)).cnt48 CSC.RETRANSMIT_LO = 0 ∧
    (cscDev 1 {} [put CSC.STS CSC.STS_SEEN 8]).blk.masterRuns = true ∧ bitAt (cscDev 1 {} [put CSC.STS CSC.STS_SEEN 8]).blk.seen 3 = true ∧
    3 ≠ (cscDev 1).blk.myPos ∧ ((after .timeSyncSend (cscDev 1 {} [put CSC.STS CSC.STS_SEEN 8])).csc.link 3).nextOut = 1 ∧
    ((after .timeSyncSend (cscDev 1 { syncTick := some 0 } [put CSC.STS CSC.STS_SEEN 8])).csc.link 3).nextOut = 0 := by decide +kernel

/-- An anchor entry of tag 9 stamped one second into network time, held. -/
def anch1 : Anchor := { anch .held with stampSec := 1, stampNs := 0 }

theorem test_witness_deadlines : (cscDev 1 {} [] [anch .held]).blk.ancFind 9 = some (anch .held) ∧ bitAt (anch .held).needed 3 = true ∧
    bitAt (anch .held).accepted 3 = false ∧ (anch .held).stamp ≤ (cscDev 1).blk.nowTotal + 250000 ∧
    (cscDev 1).blk.nowTotal + 500000 < anch1.stamp ∧ (after (.coordDeadline 9) (cscDev 1 {} [] [anch1])).anchors = [anch1] ∧
    (after (.coordDeadline 9) (cscDev 1 {} [] [anch .held])).cnt48 ANC.ABANDONED_LO = 1 ∧ (cscDev 2).blk.mode.role ≠ roleMaster ∧
    (after (.unconfirmed 9) (cscDev 2 {} [] [anch1])).anchors = [anch1] ∧ (after (.unconfirmed 9) (cscDev 2 {} [] [anch .held])).ancFind 9 = none := by
  decide +kernel

/-- The header of a message from position 3 with a sequence number. -/
def hdr3 (q : BitVec 16) : CHdr := ⟨3, 0, q, 0⟩

theorem test_witness_CascadeMessages : (cscDev 2).blk.inTurn 3 (hdr3 0) ∧ 32768 ≤ ((0xFFFF#16).toNat + 65536 - ((cscDev 2).blk.csc.link 3).nextIn) % 65536 ∧
    (cscDev 2).blk.flag (CSC.LINK_STS 3) CSC.LINK_STS_UP = true ∧
    ((after (.cascadeHello 3 (hdr3 0) (.hello true true false 15)) (cscDev 2)).csc.link 3).farEligible = true ∧
    (after (.cascadeHello 3 (hdr3 0) (.reserved 4)) (cscDev 2)).cnt48 CSC.BAD_MSG_LO = 1 ∧
    (cscDev 2 { masterPos := some 3 }).blk.csc.masterPos = some 3 ∧
    (after (.timeSync 3 (hdr3 0) ⟨1, 999999999⟩) (cscDev 2 { masterPos := some 3 })).csc.t1 = 1999999999 ∧
    (after (.learn 3 (hdr3 0) 7 0 0 0 false) (cscDev 2 { masterPos := some 3 })).reg CSC.SYNC_SEQ = 7#32 ∧ (0#16).toNat = (cscDev 2).blk.csc.reqSeq ∧
    (cscDev 1).blk.masterRuns = true ∧ (after (.delayReq 3 (hdr3 0) ⟨0, 0⟩) (cscDev 1)).out.length = 1 ∧
    ((after (.accept 3 (hdr3 0) 9) (cscDev 1 {} [] [{ anch .held with needed := 12 }])).ancFind 9).map (fun e => e.accepted) = some 8 ∧
    (after (.refuse 3 (hdr3 0) 9 1) (cscDev 1 {} [] [anch .held])).ancFind 9 = none ∧ roleMember = 2 ∧
    (after (.prepare 3 (hdr3 0) ⟨1, 0⟩ 5 0 9) (cscDev 2)).anchors.length = 1 ∧ (after (.prepare 3 (hdr3 0) ⟨0, 0⟩ 5 0 9) (cscDev 2)).anchors.length = 0 ∧
    (after (.confirm 3 (hdr3 0) 9) (cscDev 2 {} [] [anch .held])).ancFind 9 = some (anch .pending) ∧
    (after (.abandon 3 (hdr3 0) 9) (cscDev 2 {} [] [anch .held])).ancFind 9 = none := by
  unfold Block.inTurn
  decide +kernel

/-- A device whose service port runs, with its state and that of the firmware block. -/
def svcDev (x : SvcSt := {}) (f : FwSt := {}) (m : Mode := .forwarding) (rs : NMap Word := []) : State :=
  { blk := { (dev m ([(SVC.CTL, 1#32), (SVC.STS, 1#32)] ++ rs)).blk with svc := x, fw := f } }
def frameOf (a0 a1 : Word) (len : BitVec 16 := 0) (pay : List Byte := []) : Trasum := ⟨true, 0, 0, 1, false, 1, len, a0, a1, pay⟩
def loading (x : FwSt := {}) : State := svcDev {} x .forwarding [put FWM.UPD_STS FWM.UPD_STS_STATE 1]

theorem test_witness_TrasumRequests : fwd.blk.svcRuns = false ∧ svcDev.blk.svcRuns = true ∧
    svcDev.blk.trasumBad opRead { frameOf 0x600000 1 with fcsOk := false } = true ∧ svcDev.blk.trasumBad opRead (frameOf 0x600000 64) = false ∧
    (after (.trasumRead { frameOf 0x600000 1 with fcsOk := false }) svcDev).reg SVC.RX_DISCARDED = 1#32 ∧
    (svcDev {} { mbTrasum := some (frameOf 0 0) }).blk.fw.mbTrasum = some (frameOf 0 0) ∧
    (svcDev { queue := List.replicate 7 (1, frameOf 0 0) }).blk.svc.queue.length < 8 ∧
    8 ≤ (svcDev { queue := List.replicate 8 (1, frameOf 0 0) }).blk.svc.queue.length ∧ svcDev.blk.fw.mbTrasum = none ∧
    (svcDev { kept := some (1, opRead, []) }).blk.svc.kept = some ((frameOf 0 1).seq.toNat, opRead, []) ∧
    (after (.trasumRead (frameOf 0x600000 1)) (svcDev { kept := some (1, opRead, []) })).reg SVC.DUPLICATES = 1#32 ∧ svcDev.blk.svc.kept = none ∧
    (after (.trasumRead (frameOf 0x600000 1)) svcDev).flag SVC.STS SVC.STS_PEER_SEEN = true ∧ badOpWf (some 10) = true ∧
    svcDev.blk.trasumBad (10#7).toNat (frameOf 0 0) = false ∧ trasumCountBad (frameOf 0x600000 65) = true ∧
    trasumRangeBad (frameOf 0x64FFFC 2) = true ∧ trasumRangeBad (frameOf 0x64FFFC 1) = false ∧ (frameOf 0 1).len.toNat ≠ 4 * (frameOf 0 1).arg1.toNat := by
  decide +kernel

theorem test_witness_trasum_downloads : svcDev.blk.startRefusal 1024 1 = 0 ∧ svcDev.blk.startRefusal 1023 1 ≠ 0 ∧
    svcDev.blk.trasumBad opFwStart (frameOf 1024 1) = false ∧ (after (.fwStart (frameOf 1024 1)) svcDev).receiving = true ∧
    (loading { dlLen := 1024 }).blk.receiving = true ∧ (loading { dlLen := 1024 }).blk.blockBad 0 1024 = false ∧
    (loading { dlLen := 1024 }).blk.blockBad 1024 1024 = true ∧ (frameOf 0 0 1024 (List.replicate 1024 7#8)).len = 1024#16 ∧
    (loading { dlLen := 1024 }).blk.trasumBad opFwBlock (frameOf 0 0 1024 (List.replicate 1024 7#8)) = false ∧
    (after (.fwAbort (frameOf 0 0)) (loading)).receiving = false ∧ svcDev.blk.receiving = false ∧ svcDev.blk.trasumBad opMailbox (frameOf 0 0 7 (List.replicate 7 0#8)) = false ∧
    (svcDev {} {} .spore).blk.mode.mode = .spore ∧ (frameOf 0 0 7 (List.replicate 7 0#8)).len.toNat < 8 ∧ 136 < (frameOf 0 0 137 (List.replicate 137 0#8)).len.toNat ∧
    (svcDev {} {} .forwarding [put FWM.MB_STS FWM.MB_STS_STATE 1]).blk.mbBusy = true := by decide +kernel

/-- The mailbox works on a command of a length. -/
def mbDev (cmd len : Nat) (f : FwSt := {}) : State :=
  svcDev {} f .forwarding [put FWM.MB_STS FWM.MB_STS_STATE 1, put FWM.MB_CMD FWM.MB_CMD_CMD cmd, (FWM.MB_ARG1, BitVec.ofNat 32 (256 * len))]

theorem test_witness_MailboxTransfers : (mbDev 1 128).blk.mbBusy = true ∧ (mbDev 1 128).blk.fld FWM.MB_CMD FWM.MB_CMD_CMD = 1 ∧
    (mbDev 1 128).blk.fw.mbTrasum = none ∧ 128 = ((mbDev 1 128).blk.reg FWM.MB_ARG1).toNat / 256 % 256 ∧
    128 < ((mbDev 2 129).blk.reg FWM.MB_ARG1).toNat / 256 % 256 ∧ (after (.i2cRead .noModule) (mbDev 1 1)).fld FWM.MB_STS FWM.MB_STS_CODE = 2 ∧
    (after (.i2cWrite .nak) (mbDev 2 1)).fld FWM.MB_STS FWM.MB_STS_CODE = 3 ∧ (after (.i2cRead .nak) (mbDev 1 0)).fld FWM.MB_STS FWM.MB_STS_CODE = 5 ∧
    (after (.i2cRead (.ok [5])) (mbDev 1 1)).mbData 1 = [5#8] ∧ (after (.mdioRead (.ok [5, 6])) (mbDev 3 0)).fld FWM.MB_STS FWM.MB_STS_STATE = 2 ∧
    (mbDev 4 0 { mbTrasum := some (frameOf 0 0) }).blk.fw.mbTrasum = some (frameOf 0 0) ∧ (mbDev 4 0 { mbTrasum := some (frameOf 0 0) }).blk.svc.queue = [] ∧
    (mbDev 4 0 { mbTrasum := some (frameOf 0 0) }).blk.svcRuns = true ∧ svcDev.blk.mbBusy = false ∧ (mbDev 1 1).blk.mode.scan = false ∧
    (after .mailboxTimeout (later 49999999 (mbDev 4 0))).mbBusy = true ∧
    (after .mailboxTimeout (later 50000000 (mbDev 4 0))).fld FWM.MB_STS FWM.MB_STS_CODE = 4 := by decide +kernel

/-- A device in LOW-POWER-HOLD whose group `g` tolerates any wake time. -/
def holdDev (g : Nat) (rs : NMap Word := []) : State := dev .lowPowerHold (put (PWR.LTR g) PWR.LTR_LTR 0xFFFFFF :: rs)

theorem test_witness_PowerGroups : (holdDev 27).blk.railsOff = false ∧ (holdDev 27).blk.groupFixed 27 = none ∧
    (holdDev 27).blk.flag (PWR.GSTS 27) PWR.GSTS_MOVING = false ∧ (holdDev 27).blk.mayEnter 27 4 4 = true ∧
    (holdDev 27).blk.mayEnter 27 3 4 = false ∧ (holdDev 27).blk.mayEnter 27 3 1 = true ∧ (holdDev 27).blk.mayEnter 27 3 2 = false ∧
    (holdDev 27).blk.mayEnter 27 3 3 = false ∧ (after (.powerStateEntry 27 3) (holdDev 27)).fld (PWR.GSTS 27) PWR.GSTS_STATE = 1 ∧
    retCells 27 ≤ (holdDev 27).blk.poolFree 0 ∧ (after (.powerStateEntry 27 4) (holdDev 27)).fld (PWR.GSTS 27) PWR.GSTS_STATE = 4 ∧
    (after (.powerStateEntry 27 4) (holdDev 27)).fld PWR.RET_USED PWR.RET_USED_CELLS = 32768 ∧
    (holdDev 27 [put PWR.RET_CFG PWR.RET_CFG_RET_POOL 7]).blk.poolFree 7 < retCells 27 ∧
    (after (.powerStateEntry 27 4) (holdDev 27 [put PWR.RET_CFG PWR.RET_CFG_RET_POOL 7])).flag (PWR.GSTS 27) PWR.GSTS_RET_REFUSED = true ∧
    (∀ st ∈ [4, 3, 2, 1], fwd.blk.mayEnter 0 0 st = false) := by decide +kernel

theorem test_witness_wakes : (dev .forwarding [put (PWR.GSTS 19) PWR.GSTS_STATE 2]).blk.groupState 19 ≠ 0 ∧
    (after (.demand 19) (dev .forwarding [put (PWR.GSTS 19) PWR.GSTS_STATE 2])).flag (PWR.GSTS 19) PWR.GSTS_MOVING = true ∧
    (dev .forwarding [put2 (PWR.GSTS 19) PWR.GSTS_STATE 4 PWR.GSTS_MOVING 1]).blk.mode.inProgress = none ∧
    (after (.wakeComplete 19) (dev .forwarding [put2 (PWR.GSTS 19) PWR.GSTS_STATE 4 PWR.GSTS_MOVING 1])).fld (PWR.GSTS 19) PWR.GSTS_STATE = 0 := by decide +kernel

/-- Slice 7 drains, since 1 ns. -/
def draining : State := { blk := { (dev .forwarding [(PWR.SLICE_STS, 0x80#32), (PWR.SLICE_DRAIN, 0x80#32)]).blk with pwr := { drainAt := [(7, 1)] } } }

theorem test_witness_slices : bitAt (draining.blk.reg PWR.SLICE_STS).toNat 7 = true ∧ bitAt (draining.blk.reg PWR.SLICE_STS).toNat 15 = false ∧
    bitAt (draining.blk.reg PWR.SLICE_DRAIN).toNat 7 = true ∧
    bitAt ((after (.sliceDrainExpiry 7) (later 10000001 draining)).fld PWR.SLICE_STS PWR.SLICE_STS_DRAINED) 7 = true ∧
    bitAt ((after (.sliceDrainExpiry 7) (later 10000000 draining)).fld PWR.SLICE_STS PWR.SLICE_STS_DRAINED) 7 = false ∧
    bitAt ((after .sliceReleaseApply (ticked 1 (dev .forwarding [(PWR.SLICE_STS, 0x8080#32)]))).fld PWR.SLICE_STS PWR.SLICE_STS_DRAINED) 7 = false ∧
    bitAt ((after .sliceReleaseApply (dev .forwarding [(PWR.SLICE_STS, 0x8080#32)])).fld PWR.SLICE_STS PWR.SLICE_STS_DRAINED) 7 = true := by
  decide +kernel

/-- 25 sensor readings, sensor `i` at `x` eighths of a degree and the others at 40 °C. -/
def sensors (k : Nat) (x : BitVec 16) : Vector (BitVec 16) 25 := (Vector.replicate 25 (320#16)).setIfInBounds k x
/-- The last sample stands in the state. -/
def warm (t : List Int) (m : Mode := .forwarding) : State := { blk := { (dev m).blk with temps := t } }
def readings (k : Nat) (x : BitVec 16) : List Int := (sensors k x).toList.map (fun v => v.toInt)

theorem test_witness_temperatures : hardOffSensor (readings 24 960) = none ∧ hardOffSensor (readings 23 960) = some 23 ∧
    shutdownSensor (readings 23 920) (readings 23 920) = some 23 ∧ shutdownSensor [] (readings 23 920) = none ∧
    firstPast (fun x => 105 * 8 ≤ x) (readings 0 840) (readings 0 840) = some 0 ∧
    allNear (fun x => x ≤ 103 * 8) (readings 0 824) (readings 0 824) = true ∧ (warm (readings 0 840)).blk.temps = readings 0 840 ∧
    (warm [] .standby).blk.mode.mode ≠ .unpowered ∧ (warm [] .standby).blk.sampleDue = true ∧
    ({ (warm []).blk with pwr := { sampleAt := some 0 } } : Block).sampleDue = false := by decide +kernel

theorem test_witness_clocks_and_links : coreOn fwd.blk.mode.mode = true ∧ (after (.refclkLoss .td) fwd).mode.mode = .faultHold ∧
    (after (.refclkLoss .td) fwd).mode.cause = 8 ∧ (after (.forwardedClockLockLoss 31) fwd).fld BRG.STS BRG.STS_FIRST_GROUP = 31 ∧
    fwd.blk.flag BRG.STS BRG.STS_DRIFT = false ∧ (drifted 0).blk.flag BRG.STS BRG.STS_DRIFT = true ∧ fwd.blk.cascadeOn = true ∧
    (after (.cascadeLaneStateChange 3 2) fwd).fld (CSC.LINK_STS 3) CSC.LINK_STS_LANES_UP = 2 ∧
    (after (.cascadeLinkHelloLoss 3) (later 1000000 (cscDev 2))).flag (CSC.LINK_STS 3) CSC.LINK_STS_UP = false ∧
    (after (.cascadeLinkHelloLoss 3) (later 999999 (cscDev 2))).flag (CSC.LINK_STS 3) CSC.LINK_STS_UP = true ∧
    (cscDev 2).blk.flag (CSC.LINK_STS 3) CSC.LINK_STS_UP = true ∧ fwd.blk.flag SVC.STS SVC.STS_LINK_UP ≠ true ∧
    bitAt ((after (.servicePortLinkChange true) fwd).reg (HDR.INT_RAW 0x61)).toNat 0 = true ∧ (runs .forwarding).blk.fwRuns = true ∧
    (runs .forwarding).blk.flag FWM.FW_STS FWM.FW_STS_TRIAL = false ∧ (runs .forwarding).blk.flag FWM.FW_STS FWM.FW_STS_QUARANTINE = false ∧
    (after (.settingsSave [1, 2]) (runs .forwarding)).fw.settings = [1, 2] := by decide +kernel

theorem test_witness_TicksAndBridgeSlots : coreOn fwd.blk.mode.mode = true ∧ coreOn (dev .standby).blk.mode.mode = false ∧
    ((withGroup { skid := [⟨none, [], true, 9⟩] }).blk.group 0 0).skid = [⟨none, [], true, 9⟩] ∧
    0 < ((withGroup { skid := [⟨none, [], true, 9⟩] }).blk.group 0 0).credits ∧
    ((after (.bridgeSlot 0 0 0 {}) (withGroup { skid := [⟨none, [], true, 9⟩], seq := 65535 })).group 0 0).seq = 0 ∧
    ((after (.bridgeSlot 0 0 0 {}) (withGroup { waiting := [⟨none, [], true, 9⟩] })).group 0 0).flight = [⟨none, [], true, 0⟩] ∧
    ((after (.bridgeSlot 0 0 0 {}) (withGroup { waiting := [⟨none, [], true, 9⟩], credits := 0 })).group 0 0).skid = [⟨none, [], true, 9⟩] ∧
    (after (.bridgeSlot 0 0 0 {}) (withGroup { waiting := [⟨none, [], true, 9⟩], credits := 0, skid := List.replicate 16 ⟨none, [], true, 9⟩ })).fd.bridge.stallCnt = 1 ∧
    ((withGroup { credits := 0 }).blk.group 0 0).departing = [] ∧ ((withGroup { credits := 0 }).blk.group 0 0).waiting = [] := by decide +kernel

/-- The record commands' registers with selections made. -/
def selDev (kind ix : Nat) : State := dev .forwarding [put2 QMG.PROF_SEL QMG.PROF_SEL_KIND kind QMG.PROF_SEL_INDEX ix,
  (QMG.PROF_W 0, 0x00400040#32), (QMG.PROF_W 1, 0x00380038#32), (QMG.PROF_W 3, 1#32)]
def schSel (kind ix : Nat) : State := dev .forwarding [put2 SCH.SEL SCH.SEL_KIND kind SCH.SEL_INDEX ix]

theorem test_witness_profiles : accB (selDev 1 255) .host QMG.PROF_CMD = true ∧ (selDev 1 255).blk.profBusy = false ∧
    ({ (selDev 1 255).blk with td := { store := { profUntil := 1 } } } : Block).profBusy = true ∧
    (hw).value &&& 0xF#32 = 0#32 ∧ (selDev 1 255).blk.fld QMG.PROF_SEL QMG.PROF_SEL_KIND = 1 ∧ (selDev 1 255).blk.fld QMG.PROF_SEL QMG.PROF_SEL_INDEX = 255 ∧
    profIndexOk 1 255 = true ∧ profIndexOk 1 256 = false ∧ profIndexOk 3 1048575 = true ∧
    storeProfBad ((upTo 8).map (fun k => profMask 1 k ((selDev 1 255).blk.reg (QMG.PROF_W k)).toNat)) = none ∧
    storeProfBad ((upTo 8).map (fun k => profMask 1 k (fwd.blk.reg (QMG.PROF_W k)).toNat)) = some 0 ∧
    (after (.profRead hw) (selDev 1 255)).fld QMG.PROF_STS QMG.PROF_STS_STATE = 2 ∧
    (after (.profRead hw) (selDev 1 256)).fld QMG.PROF_STS QMG.PROF_STS_STATE = 3 ∧
    (after (.profWrite hw) (selDev 1 255)).fld QMG.PROF_STS QMG.PROF_STS_STATE = 2 ∧
    ((after (.clearWm hw) { blk := { (selDev 3 1048575).blk with td := { store := { queues := [(1048575, { crossed := true })] } } } }).queue
      1048575).crossed = false := by decide +kernel

theorem test_witness_scheduler_records : accB (schSel 5 16383) .host SCH.CMD = true ∧ (schSel 5 16383).blk.schBusy = false ∧
    ({ (schSel 5 16383).blk with td := { sched := { cmdUntil := 1 } } } : Block).schBusy = true ∧
    (schSel 5 16383).blk.schKind = 5 ∧ (schSel 5 16383).blk.schIndex = 16383 ∧ (schSel 5 16383).blk.schIndexOk 5 16383 = true ∧
    fwd.blk.schIndexOk 5 0 = false ∧ (schSel 5 16383).blk.shadowHeld = false ∧ fldGet SCH.CMD_READ (hw).value = 0 ∧
    (after (.schRead hw) (schSel 5 16383)).fld SCH.STS SCH.STS_STATE = 2 ∧ (after (.schRead hw) (schSel 5 0)).fld SCH.STS SCH.STS_STATE = 3 ∧
    (after (.schWrite hw) (schSel 5 16383)).fld SCH.STS SCH.STS_STATE = 2 ∧ (after (.schCopy hw) (schSel 5 16383)).fld SCH.STS SCH.STS_STATE = 2 ∧
    (dev .forwarding [put SCH.SHP_CTL SCH.SHP_CTL_COMMIT 1]).blk.shadowHeld = true := by decide +kernel

theorem test_witness_patterns_and_counters : accB fwd .host PAY.PAT_CMD = true ∧ fwd.blk.flag PAY.CTL PAY.CTL_COMMIT = false ∧
    (hw).value &&& 7#32 = 0#32 ∧ (NMap.get noPattern (after (.patWrite hw) (dev .forwarding [(PAY.PAT_W0, 5#32)])).fd.patterns
      (fwd.blk.payShadow * 8192)).getD 0 0 = 5#32 ∧
    accB fwd .host CNT.OP_CMD = true ∧ fwd.blk.cntBusy = false ∧ ({ fwd.blk with cnt := { opUntil := 1 } } : Block).cntBusy = true ∧ 0 < (dev .forwarding [(CNT.COUNT, 1#32)]).blk.fld CNT.COUNT CNT.COUNT_COUNT ∧
    (after (.counterRead hw) (dev .forwarding [(CNT.COUNT, 1#32)])).fld CNT.OP_STS CNT.OP_STS_STATE = 2 ∧
    (dev .faultHold).blk.mode.mode = .faultHold ∧ (after (.counterClear hw) (cntDev { queue := [⟨0, 1, 2, false⟩] }
      [put CNT.CTL CNT.CTL_ENABLE 1, (CNT.COUNT, 1#32)])).cnt.queue = [] ∧
    (after (.counterClearWrap hw) fwd).fld CNT.OP_STS CNT.OP_STS_STATE = 2 := by decide +kernel

/-- A device with table 1 of a kind named in OP_TABLE. -/
def opDev (kind : Byte) (rs : NMap Word := []) (tbl : TblSt := {}) : State := tableDev tbl (put LKP.OP_TABLE LKP.OP_TABLE_TABLE_ID 1 :: rs) kind

theorem test_witness_table_ops : accB (opDev 3) .host LKP.OP_CTL = true ∧ (opDev 3).blk.flag LKP.OP_CTL LKP.OP_CTL_GO = false ∧
    (opDev 3).blk.fdLive = true ∧ (opDev 3).blk.tbl.moving = [] ∧ (opDev 3).blk.tbl.movingReg = false ∧
    (opDev 3).blk.fld LKP.OP_TABLE LKP.OP_TABLE_TABLE_ID = 1 ∧ emKind ((opDev 3).blk.opTable false 1) = some false ∧
    emKind ((opDev 4).blk.opTable false 1) = some true ∧ (opDev 3).blk.emValue false ((opDev 3).blk.opTable false 1) 0 = none ∧
    (after (.emRead hw) (opDev 3)).fld LKP.OP_STS LKP.OP_STS_RESULT = 2 ∧ (after (.nop hw) (opDev 3)).fld LKP.OP_STS LKP.OP_STS_STATE = 2 ∧
    (after (.emDelete hw) (opDev 3)).fld LKP.OP_STS LKP.OP_STS_RESULT = 2 := by decide +kernel

/-- The exact-match table with key 5 in it. -/
def emDev : State := { blk := { after (.emInsert hw) (opDev 3 [(LKP.OP_KEY 5, 5#32)]) with latches := [] } }

theorem test_witness_em_values : emDev.blk.emValue false (emDev.blk.opTable false 1) (emKeyOf false (emDev.blk.regsBe (LKP.OP_KEY 0) 6)) ≠ none ∧
    emDev.blk.fld LKP.OP_STS LKP.OP_STS_RESULT = 0 ∧ emDev.blk.tbl.moving = [] ∧
    (after (.emInsert hw) emDev).fld LKP.OP_STS LKP.OP_STS_RESULT = 1 := by decide +kernel

theorem test_witness_direct_and_routes : isDirect ((opDev 5).blk.opTable false 1) = true ∧
    seqWord (copyOf ((opDev 5).blk.opTable false 1) ((copiesOf ((opDev 5).blk.opTable false 1)).headD 0)) (3 % 2 ^ 32) ≠ none ∧
    (after (.directWrite hw) (opDev 5 [(LKP.OP_DATA 0, 9#32)])).fld LKP.OP_STS LKP.OP_STS_RESULT = 0 ∧
    (after (.directRead hw) (opDev 5)).fld LKP.OP_STS LKP.OP_STS_RESULT = 0 ∧ lpmKind ((opDev 1).blk.opTable false 1) = some false ∧
    lpmKind ((opDev 2).blk.opTable false 1) = some true ∧
    (after (.routeRead hw) (opDev 1)).fld LKP.OP_STS LKP.OP_STS_RESULT = ((opDev 1).blk.routeRead ((opDev 1).blk.opTable false 1) 0 0).1 := by
  decide +kernel

/-- An image with one narrow TCAM table, ID 1, in bank 0, and its image ACTIVE. -/
def imageC : List Byte := List.replicate 0x10 0#8 ++ [7#8, 0, 0, 0, 1, 0] ++ List.replicate 42 0#8 ++ [9#8, 0, 0, 0, 0x50, 0, 0, 0, 0x20]
  ++ List.replicate 7 0#8 ++ [1#8] ++ List.replicate 15 0#8 ++ [1#8, 0, 0, 0, 1] ++ List.replicate 11 0#8
def tcDev (t : TcamSt := {}) (rs : NMap Word := []) : State :=
  { blk := { (run { prog := { bank0 := { image := imageC } } } (bank0 3 ++ [put TCM.OP_TABLE TCM.OP_TABLE_TABLE_ID 1,
      put TCM.OP_HANDLE TCM.OP_HANDLE_HANDLE 5] ++ rs)).blk with tcam := t } }
def entry5 : TRow := { handle := 5, state := 1 }

theorem test_witness_tcam_ops : accB tcDev .host TCM.OP_CTL = true ∧ tcDev.blk.flag TCM.OP_CTL TCM.OP_CTL_GO = false ∧ tcDev.blk.fdLive = true ∧
    tcDev.blk.tcTable false 1 = some ⟨0, 1, 0, 1, 0, 0⟩ ∧ tcDev.blk.fld TCM.OP_HANDLE TCM.OP_HANDLE_HANDLE = 5 ∧
    tcDev.blk.handleRows ⟨0, 1, 0, 1, 0, 0⟩ 5 = [] ∧ (tcDev { rows := [(7, entry5)] }).blk.handleRows ⟨0, 1, 0, 1, 0, 0⟩ 5 = [(0, 7)] ∧
    ((tcDev { rows := [(7, entry5)] }).blk.trow 0 7).state = 1 ∧ (after (.delete hw) (tcDev { rows := [(7, entry5)] })).trow 0 7 = {} ∧
    (after (.update hw) tcDev).fld TCM.OP_STS TCM.OP_STS_RESULT = 2 ∧ (after (.insert hw) (tcDev { rows := [(7, entry5)] })).fld TCM.OP_STS TCM.OP_STS_RESULT = 1 ∧
    bitAt (tcDev { flags := 1 }).blk.tcam.flags 0 = true ∧ (after (.groupAbandon hw) (tcDev { flags := 1 })).fld TCM.OP_STS TCM.OP_STS_RESULT = 0x0B ∧
    (after (.groupAbandon hw) tcDev).fld TCM.OP_STS TCM.OP_STS_RESULT = 0 ∧ tcDev.blk.place ⟨0, 1, 0, 0, 0, 0⟩ 0 = none ∧
    accB tcDev .host TCM.STEP_CTL = true ∧ (Instr.next hw { flipped := [(39, 8191)] }).wf = true ∧ (after (.start hw) tcDev).tcam.step.isSome = true ∧
    (after (.stop hw) (tcDev { step := some ⟨1, 0, 0, none⟩ })).tcam.step = none := by decide +kernel

/-- A step-through of bank 0, with an entry that matches every key. -/
def stepDev : State := tcDev { rows := [(7, entry5)], step := some ⟨1, 0, 0, none⟩ }

theorem test_witness_steps : stepDev.blk.stepFind ⟨1, 0, 0, none⟩ [] = some (0, 0, 7) ∧ stepDev.blk.stepFind ⟨1, 0, 0, some (0, 0, 7)⟩ [] = none ∧
    (stepDev.blk.trow 0 7).hits (0 % 2 ^ tcBits 0) = true ∧ (after (.next hw {}) stepDev).tcam.step = some ⟨1, 0, 0, some (0, 0, 7)⟩ ∧
    (after (.next hw {}) stepDev).reg TCM.STEP_HANDLE = 5#32 ∧ tcDev.blk.tcam.step = none := by decide +kernel

theorem test_witness_places : (tcDev.blk.place ⟨0, 1, 0, 1, 0, 0⟩ 0).isSome = true := by decide +kernel

theorem test_witness_TimeAndAnchorCommands : accB fwd .host TMB.CTL = true ∧ fldGet TMB.CTL_STEP (0#32) = 0 ∧
    (after (.todArm hw) fwd).time.armedAt = some fwd.blk.time.elapsed ∧ fldGet TMB.CTL_TOD_ARM (0#32) = 0 ∧ fwd.blk.servo ≠ stFollow ∧
    (timeDev {} [put TMB.STS TMB.STS_STATE stFollow]).blk.servo = stFollow ∧ (timeDev {} [put TMB.STS TMB.STS_STATE stFollowHold]).blk.servo = stFollowHold ∧
    (dev .forwarding [put TMB.STEP_NS TMB.STEP_NS_NS 999999999] [(4, .host)]).blk.isArmed 4 .host = true ∧
    (after (.step hw) (dev .forwarding [put TMB.STEP_NS TMB.STEP_NS_NS 999999999] [(4, .host)])).time.t = 999999999 * 10 ^ 12 ∧
    (after (.step hw) (dev .forwarding [put TMB.STEP_NS TMB.STEP_NS_NS 1000000000] [(4, .host)])).time.t = 0 ∧ fldGet TMB.CTL_STEP_REL (0#32) = 0 ∧
    accB fwd .host TMB.SLEW_NS = true ∧ (after (.slew (hw 1000000#32)) fwd).time.slewLeft = 10 ^ 18 ∧ (after (.slew (hw 1000001#32)) fwd).time.slewLeft = 0 ∧
    (toSigned 32 (1000000#32).toNat).natAbs ≤ 1000000 ∧ accB fwd .host TMB.FREQ_ADJ = true ∧
    (timeDev {} [put TMB.STS TMB.STS_STATE stHost]).blk.servo = stHost ∧
    (after (.freqAdjWrite (hw 0xFFFFFFFF#32)) (timeDev {} [put TMB.STS TMB.STS_STATE stHost])).freqAdj = -1 := by decide +kernel

/-- The POST words of a MARKER at 1 s with TAG 9, and page ANC armed. -/
def postDev (as : List Anchor := []) (sec : Nat := 1) : State :=
  { blk := { (dev .forwarding [(ANC.POST_W 1, BitVec.ofNat 32 sec), (ANC.POST_W 2, 0x50000#32), (ANC.POST_W 4, 9#32)] [(5, .host)]).blk with anchors := as } }

theorem test_witness_anchor_commands : accB postDev .host ANC.CMD = true ∧ fldGet ANC.CMD_CANCEL (0#32) = 0 ∧
    postDev.blk.postWords = (⟨0, 1, 5, false, 0, 9, .pending, 0, 0, false⟩, false) ∧
    postDev.blk.ancCheck ⟨0, 1, 5, false, 0, 9, .pending, 0, 0, false⟩ false false = ancPosted ∧
    (postDev [] 0).blk.ancCheck ⟨0, 0, 5, false, 0, 9, .pending, 0, 0, false⟩ false false ≠ ancPosted ∧
    (after (.post hw) postDev).anchors.length = 1 ∧ (after (.post hw) (postDev [] 0)).anchors.length = 0 ∧
    (anchorDev 5 0 0).blk.isArmed 5 .host = false ∧ postDev.blk.ancFind 9 = none ∧ fldGet ANC.CMD_POST (0#32) = 0 ∧
    (after (.cancel hw) postDev).fld ANC.STS ANC.STS_RESULT = ancNotFound ∧
    (postDev [⟨5, 0, 5, false, 0, 9, .pending, 0, 0, false⟩]).blk.ancFind 9 ≠ none ∧
    (after (.cancel hw) (postDev [⟨5, 0, 5, false, 0, 9, .pending, 0, 0, false⟩])).fld ANC.STS ANC.STS_RESULT = ancCancelled ∧
    (after (.cancel hw) (postDev [⟨5, 0, 5, true, 0, 9, .pending, 0, 0, false⟩])).fld ANC.STS ANC.STS_RESULT = ancConfirmed ∧
    accB fwd .host CSC.CTL = true ∧ (dev .quiescent [] [(6, .host)]).blk.isArmed 6 .host = true ∧
    (after (.join hw) (dev .quiescent [] [(6, .host)])).flag CSC.CTL CSC.CTL_JOIN = true ∧ fwd.blk.isArmed 6 .host = false ∧
    (fwd.blk.csc.link 3).farMaster = false ∧ (after (.join hw) (dev .quiescent [] [(6, .host)])).csc.joinAt = some 0 := by decide +kernel

/-- Channel 16 in a state, page D5M armed. -/
def chanDev (st : Nat) (rs : NMap Word := []) : State := dev .forwarding (put (D5C.STS 16) D5C.STS_STATE st :: rs) [(0x84, .host)]

theorem test_witness_channel_commands : accB (chanDev d5Out) .host (D5C.CTL 16) = true ∧ (chanDev d5Out).blk.d5State 16 ∈ [d5Out, d5Failed, d5Untrained] ∧
    (after (.channelRetrain hw 16) (chanDev d5Out)).d5State 16 = d5Training ∧ (chanDev d5Active).blk.d5State 16 ∉ [d5Out, d5Failed, d5Untrained] ∧
    accB (chanDev d5Spare) .host D5M.RETIRE_CMD = true ∧ (chanDev d5Spare).blk.isArmed 0x84 .host = true ∧
    fldGet D5M.RETIRE_CMD_CHANNEL (fldPut D5M.RETIRE_CMD_CHANNEL 0#32 16) = 16 ∧
    (after (.retire (hw (fldPut D5M.RETIRE_CMD_CHANNEL 0#32 16))) (chanDev d5Spare)).d5State 16 = d5Retired ∧
    (after (.restore (hw (fldPut D5M.RETIRE_CMD_CHANNEL 0#32 16))) (chanDev d5Retired)).d5State 16 = d5Untrained ∧
    accB (chanDev d5Active) .host D5M.EVAC_CTL = true ∧ (chanDev d5Active).blk.evacRefusal 16 ≠ 0 ∧
    (chanDev d5Active [put (D5C.STS 15) D5C.STS_STATE d5Spare]).blk.evacRefusal 16 = 0 ∧
    (chanDev d5Active [put (D5C.STS 15) D5C.STS_STATE d5Spare]).blk.d5First d5Spare = some 15 ∧
    (after (.evacStart (hw (fldPut D5M.EVAC_CTL_SOURCE 0#32 16))) (chanDev d5Active [put (D5C.STS 15) D5C.STS_STATE d5Spare])).d5State 15 = d5Target ∧
    fldGet D5M.EVAC_CTL_SOURCE (fldPut D5M.EVAC_CTL_SOURCE 0#32 16) ≤ 16 ∧ fldGet D5M.EVAC_CTL_AFTER (fldPut D5M.EVAC_CTL_SOURCE 0#32 16) ≤ 2 ∧
    (after (.evacAbort hw) (d5Dev d5Source {} [] { evac := some ⟨16, 15, 8, 0, none⟩ })).d5.evac = none := by decide +kernel

/-- Page FWM armed, a download length, and the firmware block's state. -/
def updDev (len : Nat := 1024) (rs : NMap Word := []) (f : FwSt := {}) (n : Nv := {}) : State :=
  { blk := { (dev .forwarding (put FWM.UPD_LEN FWM.UPD_LEN_LEN len :: rs) [(0x62, .host)]).blk with fw := f, nv := n } }

theorem test_witness_downloads : accB updDev .host FWM.UPD_CTL = true ∧ (0#32 : Word) &&& 0x1F#32 = 0#32 ∧ updDev.blk.isArmed 0x62 .host = true ∧
    fwd.blk.isArmed 0x62 .host = false ∧ fldGet FWM.UPD_CTL_TARGET (fldPut FWM.UPD_CTL_TARGET 0#32 1) = 1 ∧ updDev.blk.startRefusal 1024 1 = 0 ∧
    (updDev 1000).blk.startRefusal 1000 1 ≠ 0 ∧ (after (.updStart (hw (fldPut FWM.UPD_CTL_TARGET 0#32 1))) updDev).receiving = true ∧
    (after (.updStart (hw (fldPut FWM.UPD_CTL_TARGET 0#32 1))) (updDev 1000)).fld FWM.UPD_STS FWM.UPD_STS_REFUSE = 2 ∧
    (after (.updFinish hw) updDev).fld FWM.UPD_STS FWM.UPD_STS_REFUSE = 4 ∧
    (updDev 1024 [put FWM.UPD_STS FWM.UPD_STS_STATE 1] { dlLen := 1024, received := 1 }).blk.receiving = true ∧
    ((1 : Nat) % 2 ^ (1024 / 1024) = 2 ^ (1024 / 1024) - 1) ∧
    (after (.updAbort hw) (updDev 1024 [put FWM.UPD_STS FWM.UPD_STS_STATE 1])).receiving = false := by decide +kernel

theorem test_witness_trials : (updDev 0 [] {} { boot0 := some { trial := true } }).blk.nv.boot.trial = true ∧ updDev.blk.nv.boot.trial = false ∧
    ((updDev 0 [] {} { hdrB := some { state := 2 } }).blk.nv.hdr (1 - (updDev 0 [] {} { hdrB := some { state := 2 } }).blk.nv.boot.selected)).state = 2 ∧
    ((updDev 0 [] {} { hdrB := some { state := 2 } }).blk.nv.hdr 1).span = false ∧
    (after (.updActivate hw) (updDev 0 [] {} { boot0 := some { trial := true } })).fld FWM.UPD_STS FWM.UPD_STS_REFUSE = 1 ∧
    (updDev 0 [put FWM.FW_STS FWM.FW_STS_SETTINGS_INCOMPATIBLE 1]).blk.flag FWM.FW_STS FWM.FW_STS_SETTINGS_INCOMPATIBLE = true ∧
    (after (.updConfirm hw) (updDev 0 [put FWM.FW_STS FWM.FW_STS_SETTINGS_INCOMPATIBLE 1])).fld FWM.UPD_STS FWM.UPD_STS_REFUSE = 6 ∧
    (updDev 0 [put2 FWM.FW_STS FWM.FW_STS_TRIAL 1 FWM.FW_STS_READY 1]).blk.flag FWM.FW_STS FWM.FW_STS_TRIAL = true ∧
    (updDev 0 [put2 FWM.FW_STS FWM.FW_STS_TRIAL 1 FWM.FW_STS_READY 1]).blk.flag FWM.FW_STS FWM.FW_STS_READY = true ∧
    accB fwd .host FWM.WDT = true ∧ (after (.kick hw) (later 5 fwd)).fw.kickedAt = 5 := by decide +kernel

theorem test_witness_power_commands : accB fwd .host (PWR.LTR 19) = true ∧
    (0#32).toNat < exitLatency ((dev .forwarding [put (PWR.GSTS 19) PWR.GSTS_STATE 2]).blk.groupState 19) ∧ fwd.blk.railsOff = false ∧
    (after (.ltrWrite (hw 0#32) 19) (dev .forwarding [put (PWR.GSTS 19) PWR.GSTS_STATE 2])).flag (PWR.GSTS 19) PWR.GSTS_MOVING = true ∧
    exitLatency (fwd.blk.groupState 19) ≤ (5#32).toNat ∧ accB fwd .host PWR.SLICE_DRAIN = true ∧ fwd.blk.groupFixed 19 = none ∧
    NMap.get 1 (after (.sliceDrain hw 7) fwd).pwr.drainAt 7 = 0 ∧ NMap.get 1 (after (.sliceRelease hw 7) draining).pwr.releaseAt 7 = 0 ∧
    bitAt ((after (.sliceDrain hw 7) fwd).fld PWR.SLICE_STS PWR.SLICE_STS_DRAINING) 7 = true ∧ (⟨.service, 0⟩ : RegWrite).src = .service ∧
    accB fwd .service PWR.SLICE_DRAIN = true ∧ (after (.sliceDrain ⟨.service, 0⟩ 7) fwd).reg PWR.SLICE_STS = 0#32 ∧ accB fwd .host THM.STS = true := by
  decide +kernel

theorem test_witness_lane_commands : accB fwd .host (LIN.LANE_CFG 7 7) = true ∧ fldGet LIN.LANE_CFG_RETRAIN (0#32) = 0 ∧
    fwd.blk.flag (LIN.LANE_CFG 7 7) LIN.LANE_CFG_ENABLE = false ∧ fwd.blk.lstate 7 7 = 0 ∧ (after (.laneEnable hw 7 7) fwd).lstate 7 7 = 1 ∧
    (dev .forwarding [put (LIN.LANE_CFG 7 7) LIN.LANE_CFG_ENABLE 1]).blk.flag (LIN.LANE_CFG 7 7) LIN.LANE_CFG_ENABLE = true ∧
    fldGet LIN.LANE_CFG_ENABLE (fldPut LIN.LANE_CFG_ENABLE 0#32 1) = 1 ∧
    (dev .forwarding [put (LIN.LANE_CFG 7 7) LIN.LANE_CFG_ENABLE 1, put (LIN.LANE_STS 7 7) LIN.LANE_STS_STATE 3]).blk.lstate 7 7 = 3 ∧
    accB fwd .host (OwnerReg.mac 7 15).cfg = true ∧ (Instr.portEnable hw (.otn 63)).wf = true ∧ (Instr.portDisable hw (.phy 7 7)).wf = true ∧
    fwd.blk.flag (OwnerReg.otn 63).cfg ⟨31, 1⟩ = false ∧ accB fwd .host (LIN.LPORT_MAP (255 / 32) (255 % 32)) = true ∧
    accB fwd .host (FLX.GRP_CTL 7) = true ∧ accB fwd .host (laneCfg 95) = true ∧ fwd.blk.flag (laneCfg 95) FAB.LANE_CFG_ENABLE = false ∧
    fwd.blk.laneState 95 = 0 ∧ (after (.fabLaneEnable hw 95) fwd).laneState 95 = 2 ∧
    (dev .forwarding [put (laneCfg 95) FAB.LANE_CFG_ENABLE 1]).blk.flag (laneCfg 95) FAB.LANE_CFG_ENABLE = true ∧
    accB fwd .host KCL.PLANE_DRAIN = true ∧ accB fwd .host (FAB.CTL 11) = true ∧ fldGet FAB.CTL_DRAIN (0#32) = 0 := by decide +kernel

theorem test_witness_check_and_counter_commands : accB fwd .host (CHK.CTX_CTL 15) = true ∧ (0#32 : Word) &&& 0xF#32 = 0#32 ∧
    (Instr.checkStart hw 15 1 []).wf = true ∧ (Instr.checkPause hw 15 1 []).wf = true ∧ (Instr.checkResume hw 15 1 []).wf = true ∧
    (Instr.checkAbort hw 15 1 []).wf = true ∧ (chkDev 1 0 0).blk.chkState 15 = 1 ∧ fwd.blk.chkState 15 ≠ 1 ∧
    accB fwd .host (PmcReg.cfg.addr 63) = true ∧ accB fwd .host PMC.CTL = true ∧ accB fwd .host CNT.CTL = true ∧
    fldGet CNT.CTL_ENABLE (fldPut CNT.CTL_ENABLE 0#32 1) = 1 ∧ accB fwd .host CNT.SNAP_CTL = true := by decide +kernel

theorem test_witness_ring_commands : accB fwd .host (PCI.RING_POST 68) = true ∧ fldGet PCI.RING_POST_POST (1#32) ≤ (ringDev 68 0).blk.ringCredit 68 ∧
    fwd.blk.ringCredit 68 < fldGet PCI.RING_POST_POST (1#32) ∧ accB fwd .host (PCI.RING_CFG 68) = true ∧
    fwd.blk.flag (PCI.RING_CFG 68) PCI.RING_CFG_ENABLE = false ∧ (ringDev 68 0).blk.flag (PCI.RING_CFG 68) PCI.RING_CFG_ENABLE = true ∧
    (ringDev 68 0).blk.flag (PCI.RING_STS 68) PCI.RING_STS_STOPPED = false ∧
    fwd.blk.toSorus 0 = false ∧ (dev .forwarding [(FWM.SORUS_RINGS, 1#32)]).blk.toSorus 0 = true ∧ ((ringDev 67 0).blk.ring 67).job = none ∧
    ((jobDev ⟨6, 0, 64, 3, false, 0, none⟩).blk.ring 67).job.isSome = true ∧
    (after (.ringDisable hw 67) (jobDev ⟨6, 0, 64, 3, false, 0, none⟩)).ring 67 = (jobDev ⟨6, 0, 64, 3, false, 0, none⟩).blk.ring 67 ∧ accB fwd .host LKP.PART_CTL = true ∧
    fwd.blk.flag LKP.PART_CTL LKP.PART_CTL_COMMIT = false ∧ fwd.blk.partRefused = false ∧
    (dev .forwarding [put CNT.CTL CNT.CTL_ENABLE 1, put CNT.STS CNT.STS_RUNNING 1, (LKP.PART_SHADOW_0 0, 3#32)]).blk.partRefused = true ∧ (dev .forwarding [] [(0x22, .host)]).blk.isArmed 0x22 .host = true ∧
    accB fwd .host (LRN.TBL_LIMIT 7) = true ∧ accB fwd .host (LRN.TBL_CFG 7) = true ∧ fwd.blk.hwLimits ≤ 2097152 ∧
    accB fwd .host (poolLimitAddr 7) = true ∧ fwd.blk.poolLimitOk 7 0 = true ∧ fwd.blk.poolLimitOk 7 638976 = false ∧
    accB fwd .host (PRS.STAGE 255) = true ∧ fwd.blk.shareSum (255 / 32) ≤ 384 := by decide +kernel

theorem test_witness_other_commands : accB fwd .host QMG.QSPLIT = true ∧ (dev .quiescent [] [(0x80, .host)]).blk.isArmed 0x80 .host = true ∧
    (dev .quiescent [] [(0x80, .host)]).blk.qsplitOk 1024 = true ∧ fwd.blk.qsplitOk 1024 = false ∧ accB fwd .host QMG.RAND_SEED = true ∧
    (after (.randSeedWrite (hw 9#32)) fwd).td.store.lfsr = 9 ∧ accB fwd .host SCH.SHP_CTL = true ∧
    (dev .forwarding [] [(0x82, .host)]).blk.isArmed 0x82 .host = true ∧ fwd.blk.flag SCH.SHP_CTL SCH.SHP_CTL_COMMIT = false ∧
    accB fwd .host BRG.CTL = true ∧ fwd.blk.flag BRG.CTL BRG.CTL_WIDTH_REQ = false ∧ accB fwd .host BRG.STS = true ∧
    accB fwd .host SHD.REBASE_END = true ∧ accB fwd .host SHD.MISMATCH_VALID = true ∧ accB fwd .host (HDR.PAGE_CTL 0x80) = true ∧
    (64 : Nat) ≤ fldGet PRS.STAGE_MTU (fldPut PRS.STAGE_MTU 0#32 16384) ∧ fldGet PRS.STAGE_MTU (fldPut PRS.STAGE_MTU 0#32 16384) ≤ 16384 := by decide +kernel

end Sys2Proof.Tests
end

section
/-! PROOFS. Reserved fields and reserved offsets read 0 (R10): a read and a store both stay within the bits that exist. -/

namespace Sys2Proof.Machine

/-- A word cut to a mask has no bit outside it. -/
theorem and_mask_and_not_mask (w m : Word) : (w &&& m) &&& ~~~m = 0#32 := by
  rw [BitVec.and_assoc, BitVec.and_not_self]
  exact BitVec.and_zero

/-- An offset that no register has reads 0 (R10). -/
theorem Block.regNow_of_regOf_none (b : Block) (src : Source) {a : Nat} (h : regOf a = none) : b.regNow src a = 0#32 := by
  simp only [Block.regNow, h]

/-- What a register reads, held by FREEZE or standing, is cut to the bits that exist (R10). -/
theorem Block.regNow_eq_and_maskOf (b : Block) (src : Source) (a : Nat) : ∃ w, b.regNow src a = w &&& maskOf a := by
  cases h : regOf a with
  | none => exact ⟨0#32, by rw [b.regNow_of_regOf_none src h, BitVec.zero_and]⟩
  | some r =>
    simp only [Block.regNow, h]
    split
    · exact ⟨_, rfl⟩
    · exact ⟨_, rfl⟩

/-- Settles O8: what is read and what is stored are words cut to the register's mask. -/
theorem reservedBitsReadZero : Obligations.ReservedBitsReadZero := by
  intro b src a v
  obtain ⟨w, hw⟩ := b.regNow_eq_and_maskOf src a
  refine ⟨?_, b.regNow_of_regOf_none src, ?_⟩
  · rw [hw, and_mask_and_not_mask]
  · rw [Block.reg_setReg_same, and_mask_and_not_mask]

end Sys2Proof.Machine
end

section
/-! PROOFS. Addresses that no register has (R400): an unassigned page reads 0, discards writes and is counted; a reserved offset of an
assigned page reads 0 and ignores writes. -/

namespace Sys2Proof.Machine

/-- REGISTER_WRITE of a full aligned word, with no mailbox request waiting after it, is that word written (R399). -/
theorem exec_registerWrite_word (s : State) (src : Source) {a : Nat} (v : Word) (ha : a < 2 ^ 26) (h4 : a % 4 = 0)
    (h : (s.blk.regWrite src a v).fw.mbTrasum = none) :
    Machine.exec (.registerWrite ⟨src, BitVec.ofNat 26 a, wordBytes v⟩) s = .next { s with blk := s.blk.regWrite src a v } := by
  have hact : Machine.exec (.registerWrite ⟨src, BitVec.ofNat 26 a, wordBytes v⟩) s =
      s.act (fun b => (b.access ⟨src, BitVec.ofNat 26 a, wordBytes v⟩).mbAnswer) := rfl
  rw [hact, State.act_eq, Block.access_word _ _ _ _ ha h4, Block.mbAnswer_none _ h]

/-- A four-byte read of an aligned register that answers gives the register's word and nothing more (R399). -/
theorem Block.readBar0_word {b : Block} {src : Source} {a : Nat} (h4 : a % 4 = 0)
    (h : b.reach src (a / 0x10000) (a % 0x10000) = .answers) :
    b.readBar0 src a 4 = (b.readWord src a).1.emitOut (.data (leBytes 4 (b.readWord src a).2.toNat) false) := by
  have hblock : a / 8 = (a + 4 - 1) / 8 := by omega
  have hword : a / 4 = (a + 4 - 1) / 4 := by omega
  have haligned : a / 4 * 4 = a := by omega
  have hmax : max 4 1 = 4 := rfl
  unfold Block.readBar0
  simp only [h, hmax, if_neg (not_not_intro hblock), if_pos hword, haligned]

/-- LO_HI_READ of an aligned word that answers with 0: the four bytes of 0 leave the device. -/
theorem exec_loHiRead_zero {s : State} {src : Source} {a : Nat} {b : Block} (ha : a < 2 ^ 26) (h4 : a % 4 = 0)
    (h : s.blk.reach src (a / 0x10000) (a % 0x10000) = .answers) (hw : s.blk.readWord src a = (b, 0#32)) :
    Machine.exec (.loHiRead (.bar0 src (BitVec.ofNat 26 a) 4)) s = .next { s with blk := b.emitOut (.data [0, 0, 0, 0] false) } := by
  have hact : Machine.exec (.loHiRead (.bar0 src (BitVec.ofNat 26 a) 4)) s =
      s.act (fun b => b.readBar0 src (BitVec.ofNat 26 a).toNat 4) := rfl
  have haddr : (BitVec.ofNat 26 a).toNat = a := by rw [BitVec.toNat_ofNat]; exact Nat.mod_eq_of_lt ha
  have hzero : leBytes 4 (0#32).toNat = [0, 0, 0, 0] := by decide
  rw [hact, State.act_eq, haddr, Block.readBar0_word h4 h, hw, hzero]

/-- The count of an access to an unassigned page touches registers alone. -/
theorem Block.unmapped_regsOnly (b : Block) : b.RegsOnly b.unmapped :=
  .trans (b.setReg_regsOnly _ _) (Block.intRaw_regsOnly _ _ _)

/-- UNMAPPED_CNT counts one more access and stops at all-ones (R400, R443). -/
theorem Block.reg_unmapped_UNMAPPED_CNT (b : Block) :
    (b.unmapped.reg PCI.UNMAPPED_CNT).toNat = min ((b.reg PCI.UNMAPPED_CNT).toNat + 1) 0xFFFFFFFF := by
  have hmask : maskOf PCI.UNMAPPED_CNT = BitVec.allOnes 32 := by decide +kernel
  unfold Block.unmapped Block.satAdd
  rw [Block.reg_intRaw_ne _ (by decide), Block.reg_setReg_same, hmask, BitVec.and_allOnes, BitVec.toNat_ofNat]
  omega

/-- The count of an access to an unassigned page leaves every register but the counter and PCI's causes alone. -/
theorem Block.unmapped_regsKept (b : Block) : b.regsKept b.unmapped [PCI.UNMAPPED_CNT, HDR.INT_RAW 1] := by
  intro c hc
  simp only [List.mem_cons, List.not_mem_nil, or_false, not_or] at hc
  obtain ⟨hcnt, hraw⟩ := hc
  unfold Block.unmapped Block.satAdd
  rw [Block.reg_intRaw_ne _ (Ne.symm hraw), Block.reg_setReg_ne _ (Ne.symm hcnt)]

/-- An unassigned page reads 0 and the read is counted (R400). -/
theorem Block.readWord_unassigned {b : Block} {src : Source} {a : Nat}
    (h : b.reach src (a / 0x10000) (a % 0x10000) = .answers) (hp : (pageRow (a / 0x10000)).isSome = false) :
    b.readWord src a = (b.unmapped, 0#32) := by
  have hnone : (pageRow (a / 0x10000)).isNone = true := by rw [← Option.not_isSome, hp]; rfl
  simp only [Block.readWord, h, hnone, if_true]

/-- A write of an unassigned page is counted and stores nothing (R400). -/
theorem Block.regWrite_unassigned {b : Block} {src : Source} {a : Nat} (v : Word)
    (h : b.reach src (a / 0x10000) (a % 0x10000) = .answers) (hp : (pageRow (a / 0x10000)).isSome = false) :
    b.regWrite src a v = b.unmapped.unlatch src a := by
  have hnone : (pageRow (a / 0x10000)).isNone = true := by rw [← Option.not_isSome, hp]; rfl
  simp only [Block.regWrite, Block.regWriteMeets, Block.writeWord, h, hp, hnone, if_true, Bool.and_false, Bool.false_eq_true,
    if_false]

/-- Latching registers changes nothing but the latches (R12). -/
theorem Block.foldl_latch_eq (src : Source) : ∀ (ks : List Nat) (b : Block),
    ∃ l, ks.foldl (fun y k => y.latch src k) b = { b with latches := l }
  | [], b => ⟨b.latches, rfl⟩
  | k :: ks, b => by
    obtain ⟨l, hl⟩ := foldl_latch_eq src ks (b.latch src k)
    exact ⟨l, by rw [List.foldl_cons, hl]; rfl⟩

/-- An offset that no register has reads 0, in the page's soft reset or out of it, where nothing is latched for it (R10, R403). -/
theorem Block.readWord_reserved {b : Block} {src : Source} {a : Nat}
    (h : b.reach src (a / 0x10000) (a % 0x10000) = .answers) (hp : (pageRow (a / 0x10000)).isSome = true) (hr : regOf a = none)
    (hl : NMap.find? b.latches (latchKey src a) = none) : ∃ l, b.readWord src a = ({ b with latches := l }, 0#32) := by
  have hsome : (pageRow (a / 0x10000)).isNone = false := by rw [← Option.not_isSome, hp]; rfl
  have hread : b.readWord src a = b.readReg src a := by
    simp only [Block.readWord, h, hsome, Bool.false_eq_true, if_false]
  rw [hread]
  unfold Block.readReg
  split
  · exact ⟨b.latches, rfl⟩
  · obtain ⟨l, hlatch⟩ := Block.foldl_latch_eq src (latched a) b
    exact ⟨l, by simp only [hl, hlatch, b.regNow_of_regOf_none src hr]⟩

/-- An assigned page has LOCK_KEY at its offset, so an offset that no register has is another. -/
theorem offset_ne_LOCK_KEY {a : Nat} (hp : (pageRow (a / 0x10000)).isSome = true) (hr : regOf a = none) : a % 0x10000 ≠ 0x34 := by
  intro ho
  have ha : a = a / 0x10000 * 0x10000 + 0x34 := by omega
  have hkey : (regsHDR.find? (fun r => r.off = 0x34)).isSome = true := by decide
  rw [ha, regOf_header hp (by decide)] at hr
  rw [hr] at hkey
  exact Bool.false_ne_true hkey

/-- An accepted write of an offset that no register has disarms the page's unlock and stores nothing (R10, R404). -/
theorem Block.regWrite_reserved {b : Block} {src : Source} {a : Nat} (v : Word) (h : b.accepts src a) (hr : regOf a = none) :
    b.regWrite src a v = (b.disarm (a / 0x10000) src).unlatch src a := by
  obtain ⟨hreach, hpage, hreset, hwrEn⟩ := h
  have hsome : (pageRow (a / 0x10000)).isNone = false := by rw [← Option.not_isSome, hpage]; rfl
  have hkey := offset_ne_LOCK_KEY hpage hr
  simp only [Block.regWrite, Block.regWriteMeets, Block.writeWord, Block.pageWrite, hreach, hsome, hreset, hwrEn, hr, hkey,
    Block.flag_disarm, Bool.false_eq_true, if_false, decide_false, Bool.false_and, Bool.and_false, Bool.not_true]

/-- Settles O12: an access to an unassigned page is the count and no more; one to a reserved offset touches no register. -/
theorem unassignedPageIsCounted : Obligations.UnassignedPageIsCounted := by
  intro s src a v ha h4 hmb hreach
  refine ⟨fun hpage => ⟨?_, ?_⟩, fun hpage hreg hlatch => ⟨?_, fun hacc => ?_⟩⟩
  · obtain ⟨r, hr⟩ := s.blk.unmapped_regsOnly
    refine ⟨_, exec_loHiRead_zero ha h4 hreach (Block.readWord_unassigned hreach hpage), ?_,
      s.blk.reg_unmapped_UNMAPPED_CNT, s.blk.unmapped_regsKept⟩
    rw [hr]
    rfl
  · have hwrite := Block.regWrite_unassigned v hreach hpage
    obtain ⟨r, hr⟩ := s.blk.unmapped_regsOnly
    refine ⟨_, exec_registerWrite_word s src v ha h4 ?_, ?_⟩
    · rw [hwrite, hr]
      exact hmb
    · rw [hwrite]
      exact ⟨by rw [hr]; rfl, s.blk.reg_unmapped_UNMAPPED_CNT, s.blk.unmapped_regsKept⟩
  · obtain ⟨l, hread⟩ := Block.readWord_reserved hreach hpage hreg hlatch
    exact ⟨_, exec_loHiRead_zero ha h4 hreach hread, rfl, rfl⟩
  · have hwrite := Block.regWrite_reserved v hacc hreg
    refine ⟨_, exec_registerWrite_word s src v ha h4 ?_, ?_⟩
    · rw [hwrite]
      exact hmb
    · rw [hwrite]
      rfl

end Sys2Proof.Machine
end
